-- ==== Sys2Proof/Word.lean ====
section
/-! DEFINITION. The plain word types of the 742 and the fixed-size tables its blocks keep. -/

namespace Sys2Proof

/-- A byte, as memory, the desk link and the input line carry it. -/
abbrev Byte := BitVec 8

/-- A value of the time base: microseconds, 32 bits, wrapping (R116). -/
abbrev Time := BitVec 32

/-- A fixed number of like things: ranks, banks, heads, surfaces, slots. -/
abbrev Table (n : Nat) (α : Type) := Vector α n

namespace Table

variable {n : Nat} {α : Type}

/-- The entry with number `i`. -/
def look (t : Table n α) (i : Fin n) : α := t[i]

/-- The table with entry `i` replaced. -/
def put (t : Table n α) (i : Fin n) (x : α) : Table n α := Vector.set t i.1 x i.2

/-- The table with entry `i` changed by `f`. -/
def upd (t : Table n α) (i : Fin n) (f : α → α) : Table n α := t.put i (f (t.look i))

/-- The table whose entry `i` is `f i`. -/
def tab (f : Fin n → α) : Table n α := Vector.ofFn f

/-- The table with every entry `x`. -/
def const (x : α) : Table n α := tab fun _ => x

end Table

end Sys2Proof
end

