-- ==== Sys2Proof/Config.lean ====
section
/-! DEFINITION. What is fixed for one 742: the strap values of TABLE 3, and what State.reset takes for them. -/

namespace Sys2Proof

/-- Channel width strap: W is 2 or 4 bytes per beat (R1). -/
inductive ChannelWidth where
  | bits16
  | bits32
  deriving DecidableEq, Repr

/-- Ranks strap (R1). -/
inductive RankStrap where
  | one
  | two
  deriving DecidableEq, Repr

/-- Row bits strap (R1). -/
inductive RowBits where
  | r13
  | r14
  | r15
  | r16
  deriving DecidableEq, Repr

/-- Column bits strap (R1). -/
inductive ColumnBits where
  | c9
  | c10
  | c11
  deriving DecidableEq, Repr

/-- Address order strap (R1, R22). -/
inductive AddressOrder where
  | rrbc
  | rbrc
  deriving DecidableEq, Repr

/-- Lanes strap (R1, R138). -/
inductive LaneStrap where
  | one
  | two
  deriving DecidableEq, Repr

/-- Lane rate strap: 2.5, 5 or 10 Gbit/s (R1, R138). -/
inductive LaneRate where
  | gbit2_5
  | gbit5
  | gbit10
  deriving DecidableEq, Repr

/-- The nine straps of TABLE 3; each takes its listed values and no others (R1). -/
structure Straps where
  width : ChannelWidth
  ranks : RankStrap
  rowBits : RowBits
  columnBits : ColumnBits
  order : AddressOrder
  startProfile : Fin 4
  areaSelect : Fin 8
  lanes : LaneStrap
  laneRate : LaneRate
  deriving DecidableEq, Repr

namespace Config

/-- DESIGN CHOICE (log 5): the strap values of `State.reset`; PART_RESET latches any others.
The channel is the 1 GiB channel of the worked examples of chapters 1 and 2. -/
def resetStraps : Straps :=
  { width := .bits32, ranks := .two, rowBits := .r14, columnBits := .c10, order := .rrbc,
    startProfile := 0, areaSelect := 0, lanes := .one, laneRate := .gbit10 }

/-- DESIGN CHOICE (log 5): the memory reset line in `State.reset` is not asserted. -/
def resetMemoryResetLine : Bool := false

/-- DESIGN CHOICE (log 5): the input controller's ready level in `State.reset` is low. -/
def resetReady : Bool := false

end Config

end Sys2Proof
end

