-- ==== Sys2Proof/Syntax.lean ====
section
/-! DEFINITION. The commands of the 742: one constructor per row of spec/opcode_table.json.
The table gives no operands; each constructor carries what the rules say the event carries. -/

namespace Sys2Proof

/-- One beat of a write burst: four byte lanes and their byte enables (R23).
With W = 2 only lanes 0 and 1 exist. -/
structure WriteBeat where
  data : BitVec 32
  enables : BitVec 4
  deriving DecidableEq, Repr

/-- A write burst that completes: its place among the write bursts that still owe a record, counted from the oldest
command, and its beats (R23, R26). -/
structure WriteCompletion where
  burst : Nat
  beats : Table 8 WriteBeat
  deriving DecidableEq, Repr

/-- A read burst that completes: its place among the read bursts that still owe a record, counted from the oldest
command, and its beats as they arrived (R24, R26). -/
structure ReadCompletion where
  burst : Nat
  beats : Table 8 (BitVec 32)
  deriving DecidableEq, Repr

/-- What is wrong with a bad upstream frame (R147). -/
inductive FrameDefect where
  | badCheck
  | wrongLength
  | unknownKind
  deriving DecidableEq, Repr

/-- What is wrong with a bad inbound frame of the input line (R165). -/
inductive LineDefect where
  | wrongKind
  | wrongLength
  | badCheck
  | badStop
  deriving DecidableEq, Repr

/-- The commands. A rank is the number the command carries (R2); a row and a column are the lines of
the widest channel, of which the straps use the low bits (log 7). -/
inductive Instr where
  | partReset (straps : Straps) (memoryReset : Bool) (ready : Bool)
  | activate (rank : Nat) (bank : Fin 8) (row : BitVec 16)
  | precharge (rank : Nat) (bank : Fin 8)
  | prechargeAll (rank : Nat)
  | write (rank : Nat) (bank : Fin 8) (column : BitVec 11) (chop : Bool)
  | writeAutoPrecharge (rank : Nat) (bank : Fin 8) (column : BitVec 11) (chop : Bool)
  | read (rank : Nat) (bank : Fin 8) (column : BitVec 11) (chop : Bool)
  | readAutoPrecharge (rank : Nat) (bank : Fin 8) (column : BitVec 11) (chop : Bool)
  | refresh (rank : Nat)
  | modeSet (register : Fin 4) (value : BitVec 16)
  | calibrate (rank : Nat)
  | powerDownEntry (rank : Nat)
  | powerDownExit (rank : Nat)
  | selfRefreshEntry (rank : Nat)
  | selfRefreshExit (rank : Nat)
  | noOp
  | memoryReset
  | memoryResetRelease
  | observedWrite (completed : WriteCompletion)
  | observedRead (completed : ReadCompletion)
  | encodeCompletion
  | stallTimerExpiry (head : Fin 4)
  | tick
  | epochEnd
  | deferralAbandoned (slot : Fin 64)
  | overrideHoldExpiry
  | lanesAligned
  | laneAlignmentLost (lane : Fin 2)
  | helloRepeatTimerExpiry
  | aligningTimerExpiry
  | frameEnd
  | hello (version : Byte)
  | keys (modifiers : Byte) (codes : Table 6 Byte)
  | pointer (x : BitVec 16) (y : BitVec 16) (buttons : Byte) (wheel : Byte)
  | set (setting : Byte) (head : Byte) (value : BitVec 64)
  | apply
  | readRequest (id : BitVec 16) (item : Byte) (head : Byte) (flags : Byte)
  | clear (events : BitVec 16)
  | resync (head : Byte)
  | badUpstreamFrame (defect : FrameDefect)
  | readyLevelRise
  | readyLevelFall
  | inputFrameEnd
  | lamp (set : Byte)
  | inputLineBadFrame (defect : LineDefect)
  deriving DecidableEq, Repr

end Sys2Proof
end

