-- ==== Sys2Proof/WellFormed.lean ====
section
/-! DEFINITION. Which commands the outside world can send: the channel has at most two ranks (TABLE 3),
so a command carries rank 0 or 1. Every other bound is in the operand's type. -/

namespace Sys2Proof

/-- The rank a channel command carries, when it carries one (TABLE 4). -/
def Instr.rank? : Instr → Option Nat
  | .activate r _ _ => some r
  | .precharge r _ => some r
  | .prechargeAll r => some r
  | .write r _ _ _ => some r
  | .writeAutoPrecharge r _ _ _ => some r
  | .read r _ _ _ => some r
  | .readAutoPrecharge r _ _ _ => some r
  | .refresh r => some r
  | .calibrate r => some r
  | .powerDownEntry r => some r
  | .powerDownExit r => some r
  | .selfRefreshEntry r => some r
  | .selfRefreshExit r => some r
  | .partReset _ _ _ | .modeSet _ _ | .noOp | .memoryReset | .memoryResetRelease
  | .observedWrite _ | .observedRead _ | .encodeCompletion | .stallTimerExpiry _ | .tick | .epochEnd
  | .deferralAbandoned _ | .overrideHoldExpiry | .lanesAligned | .laneAlignmentLost _
  | .helloRepeatTimerExpiry | .aligningTimerExpiry | .frameEnd | .hello _ | .keys _ _
  | .pointer _ _ _ _ | .set _ _ _ | .apply | .readRequest _ _ _ _ | .clear _ | .resync _
  | .badUpstreamFrame _ | .readyLevelRise | .readyLevelFall | .inputFrameEnd | .lamp _
  | .inputLineBadFrame _ => none

/-- A command the outside world can send. -/
def Instr.wellFormed (i : Instr) : Bool :=
  match i.rank? with
  | some r => decide (r < 2)
  | none => true

end Sys2Proof
end

