-- ==== Sys2Proof/Decode.lean ====
section
/-! DEFINITION. The table of commands gives no row any bits, so no word spells a command. -/

namespace Sys2Proof

/-- No row of spec/opcode_table.json gives bits: no word is a command. -/
def decodeTableWord (_nbits _w : Nat) : Option Instr := none

end Sys2Proof
end

