-- ==== Sys2Proof/Machine/Geometry.lean ====
section
/-! DEFINITION. What the straps fix: the channel's geometry and address formula (R1, R22), the announcement
area (R27), the start profiles (R8, TABLE 6) and the link's capacity (R120, R138). -/

namespace Sys2Proof

/-- W, the number of bytes per beat (R1). -/
def Straps.beatBytes (p : Straps) : Nat :=
  match p.width with
  | .bits16 => 2
  | .bits32 => 4

/-- The number of ranks decoded (R1). -/
def Straps.rankCount (p : Straps) : Nat :=
  match p.ranks with
  | .one => 1
  | .two => 2

/-- The row bits strap as a number (R1). -/
def Straps.rowBitCount (p : Straps) : Nat :=
  match p.rowBits with
  | .r13 => 13
  | .r14 => 14
  | .r15 => 15
  | .r16 => 16

/-- The column bits strap as a number (R1). -/
def Straps.columnBitCount (p : Straps) : Nat :=
  match p.columnBits with
  | .c9 => 9
  | .c10 => 10
  | .c11 => 11

/-- R, the number of rows per bank (R1). -/
def Straps.rowCount (p : Straps) : Nat := 2 ^ p.rowBitCount

/-- C, the number of columns per bank, counted in beats (R1). -/
def Straps.columnCount (p : Straps) : Nat := 2 ^ p.columnBitCount

/-- The channel size in bytes (R1). -/
def Straps.channelSize (p : Straps) : Nat :=
  p.rankCount * 8 * p.rowCount * p.columnCount * p.beatBytes

/-- The row number of a command: its low row bits (DESIGN CHOICE, log 7). -/
def Straps.rowOf (p : Straps) (row : BitVec 16) : Nat := row.toNat % p.rowCount

/-- The column number of a command: its low column bits (DESIGN CHOICE, log 7). -/
def Straps.columnOf (p : Straps) (column : BitVec 11) : Nat := column.toNat % p.columnCount

/-- The channel address of the first byte of a column (R22). -/
def Straps.address (p : Straps) (rank bank row column : Nat) : Nat :=
  match p.order with
  | .rrbc => (((rank * p.rowCount + row) * 8 + bank) * p.columnCount + column) * p.beatBytes
  | .rbrc => (((rank * 8 + bank) * p.rowCount + row) * p.columnCount + column) * p.beatBytes

/-- The base of the announcement area (R27). -/
def Straps.areaBase (p : Straps) : Nat := p.channelSize - (p.areaSelect.1 + 1) * 65536

/-- The size of the announcement area in bytes (R27). -/
def areaSize : Nat := 1024

/-- Whether a channel address lies in the announcement area (R27). -/
def Straps.inArea (p : Straps) (a : Nat) : Bool :=
  decide (p.areaBase ≤ a) && decide (a < p.areaBase + areaSize)

/-- The register contents of the start profiles (R8, TABLE 6). -/
def Straps.profileRegister (p : Straps) (register : Fin 4) : BitVec 16 :=
  match p.startProfile, register with
  | 0, 0 => 0x0006
  | 0, 2 => 0x0400
  | 1, 0 => 0x0808
  | 1, 2 => 0x0500
  | 2, 0 => 0x1009
  | 2, 2 => 0x0600
  | 3, 0 => 0x180B
  | 3, 2 => 0x0800
  | _, _ => 0x0000

/-- The number of lanes (R138). -/
def Straps.laneCount (p : Straps) : Nat :=
  match p.lanes with
  | .one => 1
  | .two => 2

/-- The link's capacity in tile bytes per tick (R120, R138). -/
def Straps.capacity (p : Straps) : Nat :=
  match p.laneRate with
  | .gbit2_5 => 290000 * p.laneCount
  | .gbit5 => 580000 * p.laneCount
  | .gbit10 => 1160000 * p.laneCount

/-- The reset value of the link budget B (R120). -/
def Straps.resetBudget (p : Straps) : Nat := p.capacity * 15 / 16

end Sys2Proof
end

