-- ==== Sys2Proof/Machine/State.lean ====
section
/-! DEFINITION. The state of the 742, block by block (00_scope.md "Block diagram"), the outcomes that stop it
(there are none), and the state after part reset. -/

namespace Sys2Proof.Machine

/-! ### Channel Follower (chapter 1) -/

/-- The power state of a rank (R4). -/
inductive PowerState where
  | active
  | powerDown
  | selfRefresh
  deriving DecidableEq, Repr

/-- The follower's state for one rank: bank table, power state, known-closed flag (R3, R4, R13).
A bank is `none` when CLOSED and holds its open row otherwise. -/
structure Rank where
  banks : Table 8 (Option Nat)
  power : PowerState
  knownClosed : Bool
  deriving DecidableEq, Repr

/-- The following states (TABLE 7). -/
inductive Following where
  | waitModes
  | resync
  | following
  deriving DecidableEq, Repr

/-- One mode-shadow register with its valid flag (R5). -/
structure ShadowRegister where
  value : BitVec 16
  valid : Bool
  deriving DecidableEq, Repr

/-- A burst whose command was taken and whose record is still owed: what R7 fixes at the command.
`address` is the channel address of the group base, `columns` is 8 or 4, `start` is s of R24. -/
structure Burst where
  address : Nat
  columns : Nat
  start : Nat
  exchange : Bool
  latency : Nat
  deriving DecidableEq, Repr

/-- The Channel Follower (chapter 1). The bursts are those that still owe a record (R25, log 6). -/
structure Channel where
  following : Following
  ranks : Table 2 Rank
  shadow : Table 4 ShadowRegister
  writeBursts : List Burst
  readBursts : List Burst
  deriving DecidableEq, Repr

/-! ### Announcement Decoder (chapter 2) -/

/-- Bytes kept by offset in one canonical form: offsets strictly rising, no entry 0 (log 16). -/
abbrev Buffer := List Host.Cell

/-- One descriptor slot (R28). -/
structure DescriptorSlot where
  bytes : Buffer
  seen : BitVec 64
  generation : Byte
  deriving DecidableEq, Repr

/-- The outcomes of a commit (TABLE 12, TABLE 45). -/
inductive CommitOutcome where
  | taken
  | incomplete
  | badKind
  | badValue
  | overlap
  | capacity
  | mismatch
  | noSurface
  | inUse
  deriving DecidableEq, Repr

/-! ### Change Tracker (chapters 2 and 3) -/

/-- Pixel formats (R33). -/
inductive PixelFormat where
  | f32
  | f16
  deriving DecidableEq, Repr

/-- Width, height and format: what the surfaces of a flip set share (R34, R41). -/
structure Geometry where
  width : Nat
  height : Nat
  format : PixelFormat
  deriving DecidableEq, Repr

/-- A DECLARED entry of the surface table (R33); tile columns and rows are computed from the geometry.
`stale` holds one mark per tile in raster order of the tile grid (R49). -/
structure Surface where
  base : Nat
  pitch : Nat
  geometry : Geometry
  owner : Option (Fin 4)
  stale : List Bool
  deriving DecidableEq, Repr

/-- The two codes of a tile (chapter 6). -/
inductive Code where
  | exact
  | reduced
  deriving DecidableEq, Repr

/-- Head states (R67). -/
inductive HeadState where
  | off
  | waiting
  | showing
  | stalled
  deriving DecidableEq, Repr

/-- An entry of the head table (R34); `quality` holds one entry per tile in raster order (R52). -/
structure Head where
  state : HeadState
  flipSet : List (Fin 16)
  shown : Option (Fin 16)
  geometry : Option Geometry
  quality : List Code
  deriving DecidableEq, Repr

/-! ### Scan Follower (chapter 4) -/

/-- The follower of a head: none while OFF, else SEEK or TRACK (R68). -/
inductive ScanMode where
  | none
  | seek
  | track
  deriving DecidableEq, Repr

/-- The follower state of one head (TABLE 19). -/
structure Scan where
  mode : ScanMode
  cursor : Nat
  lastStart : Option Time
  period : Nat
  frameCount : BitVec 32
  stall : Option Time
  deriving DecidableEq, Repr

/-! ### Capture Unit and Tile Coder (chapters 5 and 6) -/

/-- The kinds of record (R84). -/
inductive RecordKind where
  | new
  | refine
  deriving DecidableEq, Repr

/-- The states of a record (R84). -/
inductive RecordState where
  | capturing
  | captured
  | encoding
  | deferred
  | queued
  | sending
  deriving DecidableEq, Repr

/-- The coded forms: both payloads; their lengths are E and Q (R110). -/
structure CodedForms where
  exact : List Byte
  reduced : List Byte
  deriving DecidableEq, Repr

/-- The decision: the code and the frame size charged (R130). -/
structure Decision where
  code : Code
  frameSize : Nat
  deriving DecidableEq, Repr

/-- A record (R84). `format`, `tw` and `th` are the tile's as at allocation (R111); `received` has flag
16 * line + unit for each fill unit (R93); `pixels` holds offset 128 * line + byte. -/
structure Record where
  head : Fin 4
  surface : Fin 16
  column : Nat
  row : Nat
  kind : RecordKind
  state : RecordState
  withdrawn : Bool
  received : BitVec 512
  pixels : Buffer
  coded : Option CodedForms
  decision : Option Decision
  age : Nat
  format : PixelFormat
  tw : Nat
  th : Nat
  deriving DecidableEq, Repr

/-! ### Budget Unit (chapter 7) -/

/-- What the Budget Unit keeps for one head (R122 to R129, R132). -/
structure HeadBudget where
  share : Nat
  cap : Nat
  credit : Nat
  accumulator : Nat
  demand : Nat
  deferred : List (Fin 64)
  deriving DecidableEq, Repr

/-- The Budget Unit: time base, tick timer, epoch, the heads, the recompute request and the
interaction override (R116, R117, R124, R136). -/
structure Budget where
  now : Time
  tickAt : Time
  epochTicks : Nat
  heads : Table 4 HeadBudget
  recompute : Bool
  overrideActive : Bool
  hold : Option Time
  deriving DecidableEq, Repr

/-! ### Desk Link (chapter 8) -/

/-- Link states (R139). -/
inductive LinkState where
  | down
  | aligning
  | up
  deriving DecidableEq, Repr

/-- Classes of a head (R121). -/
inductive HeadClass where
  | critical
  | high
  | normal
  deriving DecidableEq, Repr

/-- Allocation modes (R125, R126). -/
inductive AllocationMode where
  | static
  | dynamic
  deriving DecidableEq, Repr

/-- A desktop rectangle (R164). -/
structure Desktop where
  x0 : Nat
  y0 : Nat
  x1 : Nat
  y1 : Nat
  deriving DecidableEq, Repr

/-- The per-head settings of TABLE 37. -/
structure HeadSettings where
  cls : HeadClass
  weight : Nat
  quota : Nat
  exactOnly : Bool
  refine : Bool
  desktop : Option Desktop
  deriving DecidableEq, Repr

/-- The settings of TABLE 37; in `mask` bit i stands for row i + 1 of TABLE 38, 1 is masked. -/
structure Settings where
  budget : Nat
  mode : AllocationMode
  heads : Table 4 HeadSettings
  holdMs : Nat
  keyEnable : Bool
  motionEnable : Bool
  buttonEnable : Bool
  mask : BitVec 10
  deriving DecidableEq, Repr

/-- The contents of a HEAD frame, fixed when it is queued (R142, R170). -/
structure HeadFrame where
  head : Fin 4
  state : HeadState
  flipSet : List (Fin 16)
  geometry : Option Geometry
  period : Nat
  deriving DecidableEq, Repr

/-- Control frames (R142). A STATUS frame has no contents until it begins. -/
inductive ControlFrame where
  | hello (lanes : Nat)
  | head (frame : HeadFrame)
  | lamp (set : Byte)
  | status
  | answer (id : BitVec 16) (valid : Bool) (value : BitVec 64)
  deriving DecidableEq, Repr

/-- The frame on the wire (R145, R146): a control frame, a STATUS frame with the event set taken at its
beginning, or the tile frame of the record in a slot. -/
inductive Wire where
  | idle
  | control (frame : ControlFrame)
  | status (events : BitVec 10)
  | tile (slot : Fin 64)
  deriving DecidableEq, Repr

/-- For each class, the last head served by the send arbiter (R145). -/
structure LastServed where
  critical : Fin 4
  high : Fin 4
  normal : Fin 4
  deriving DecidableEq, Repr

/-- The Desk Link (chapter 8). `staged` are the pending settings, `current` those in force (R149). `acquired` are
the lanes whose receivers have found the byte boundaries (R138), `arriving` the bytes that each lane has received of
the upstream frame that has begun and not ended (R147, R168; log 31), `aligned` the lanes' alignment as the link's
commands have told it (R139; log 18). -/
structure Link where
  state : LinkState
  acquired : Table 2 Bool
  arriving : Option (Table 2 (List Byte))
  aligned : Table 2 Bool
  aligningAt : Option Time
  helloAt : Option Time
  control : List ControlFrame
  send : Table 4 (List (Fin 64))
  wire : Wire
  lastServed : LastServed
  staged : Settings
  current : Settings
  applyRequest : Bool
  latches : BitVec 10
  statusPending : Bool
  deriving DecidableEq, Repr

/-- The fourteen counters of TABLE 39, in its order (R154). -/
structure Counters where
  surfaceWrites : BitVec 32
  strayReads : BitVec 32
  anomalies : BitVec 32
  capturesCompleted : BitVec 32
  capturesTorn : BitVec 32
  capturesAbandoned : BitVec 32
  tilesExact : BitVec 32
  tilesReduced : BitVec 32
  tileBytes : BitVec 32
  deferralsAbandoned : BitVec 32
  upstreamDiscarded : BitVec 32
  inputDropped : BitVec 32
  inputLineErrors : BitVec 32
  answersDropped : BitVec 32
  deriving DecidableEq, Repr

/-! ### Input Relay (chapter 9) -/

/-- Notices (R163). -/
inductive Notice where
  | restart
  | outcome (slot : Fin 16) (generation : Byte) (outcome : CommitOutcome)
  | link (up : Bool)
  deriving DecidableEq, Repr

/-- Entries of the input queue (R157). A key set is kept in ascending order without repeats. -/
inductive InputEntry where
  | keyboard (modifiers : Byte) (keys : List Byte)
  | pointer (x : BitVec 15) (y : BitVec 15) (buttons : BitVec 5) (wheel : Int)
  | notice (n : Notice)
  deriving DecidableEq, Repr

/-- The frame the transmitter sends: an entry as it stood when the frame began, and for a NOTICE the
lost-notice flag as it stood then (R156). -/
structure InputFrame where
  entry : InputEntry
  lost : Bool
  deriving DecidableEq, Repr

/-- The input-line receiver (R165): hunting, or the part of a frame it expects next. The kind byte is kept until
the length byte is taken. -/
inductive Receiver where
  | hunting
  | kind
  | length (kind : Byte)
  | payload
  | check (set : Byte)
  deriving DecidableEq, Repr

/-- The Input Relay (chapter 9); `sending` is `none` when the transmitter is IDLE. -/
structure Relay where
  queue : List InputEntry
  sending : Option InputFrame
  ready : Bool
  lost : Bool
  heldModifiers : Byte
  heldKeys : List Byte
  position : Option (BitVec 15 × BitVec 15)
  buttons : BitVec 5
  lamps : Byte
  lampPending : Bool
  receiver : Receiver
  deriving DecidableEq, Repr

/-! ### The machine -/

/-- The whole state of the 742, and the queue of commands that wait, first in first out. -/
structure State where
  straps : Straps
  memoryResetLine : Bool
  channel : Channel
  descriptors : Table 16 DescriptorSlot
  surfaces : Table 16 (Option Surface)
  heads : Table 4 Head
  scans : Table 4 Scan
  slots : Table 64 (Option Record)
  rovers : Table 4 Nat
  encodeQueue : List (Fin 64)
  encoder : Option (Fin 64)
  budget : Budget
  link : Link
  relay : Relay
  counters : Counters
  pending : List Instr
  deriving DecidableEq, Repr

/-- The 742 has no fault: bad traffic is counted, latched as an event or answered with an outcome. -/
inductive Fault where
  deriving DecidableEq, Repr

/-- Raised by no meaning; the interface asks for it (a command without a meaning; none is left).
Safe: a refusal stops the model where the part goes on. -/
inductive Refusal where
  | notModelled (mnemonic : String)
  deriving DecidableEq, Repr

/-! ### Part reset -/

/-- A rank after part reset (R3, R4, R14). -/
def Rank.reset : Rank := { banks := Table.const none, power := .active, knownClosed := false }

/-- The Channel Follower after part reset: RESYNC, the shadow from the start profile (R8, R14). -/
def Channel.reset (p : Straps) : Channel :=
  { following := .resync
    ranks := Table.const Rank.reset
    shadow := Table.tab fun n => { value := p.profileRegister n, valid := true }
    writeBursts := []
    readBursts := [] }

/-- A descriptor slot after part reset (R28). -/
def DescriptorSlot.reset : DescriptorSlot := { bytes := [], seen := 0, generation := 0 }

/-- An OFF head (R34). -/
def Head.reset : Head :=
  { state := .off, flipSet := [], shown := none, geometry := none, quality := [] }

/-- No follower (R68); the fields without a meaning hold 0 and none (DESIGN CHOICE, log 15). -/
def Scan.reset : Scan :=
  { mode := .none, cursor := 0, lastStart := none, period := 0, frameCount := 0, stall := none }

/-- A head's budget after part reset (R122, R123, R124, R127, R129, R132). -/
def HeadBudget.reset : HeadBudget :=
  { share := 0, cap := 8192, credit := 0, accumulator := 0, demand := 0, deferred := [] }

/-- The Budget Unit after part reset (R116, R117, R124, R136). -/
def Budget.reset : Budget :=
  { now := 0, tickAt := 1000, epochTicks := 0, heads := Table.const HeadBudget.reset,
    recompute := false, overrideActive := false, hold := none }

/-- The reset settings of a head (R121, R149). -/
def HeadSettings.reset (h : Fin 4) : HeadSettings :=
  { cls := if h = 0 then .critical else .normal, weight := 4, quota := 16, exactOnly := false,
    refine := true, desktop := none }

/-- The reset settings (TABLE 37). -/
def Settings.reset (p : Straps) : Settings :=
  { budget := p.resetBudget, mode := .dynamic, heads := Table.tab HeadSettings.reset, holdMs := 200,
    keyEnable := true, motionEnable := true, buttonEnable := true, mask := 0 }

/-- The Desk Link after part reset (R139, R143, R144, R145, R149, R150, R152). -/
def Link.reset (p : Straps) : Link :=
  { state := .down, acquired := Table.const false, arriving := none, aligned := Table.const false,
    aligningAt := none, helloAt := none, control := [],
    send := Table.const [], wire := .idle, lastServed := { critical := 3, high := 3, normal := 3 },
    staged := Settings.reset p, current := Settings.reset p, applyRequest := false, latches := 0,
    statusPending := false }

/-- Every counter 0 (R154). -/
def Counters.reset : Counters :=
  { surfaceWrites := 0, strayReads := 0, anomalies := 0, capturesCompleted := 0, capturesTorn := 0,
    capturesAbandoned := 0, tilesExact := 0, tilesReduced := 0, tileBytes := 0,
    deferralsAbandoned := 0, upstreamDiscarded := 0, inputDropped := 0, inputLineErrors := 0,
    answersDropped := 0 }

/-- The Input Relay after part reset, before the ready level is looked at: the RESTART notice is the one
queued entry (R156, R157, R161, R163, R165, R166). -/
def Relay.reset (ready : Bool) : Relay :=
  { queue := [.notice .restart], sending := none, ready := ready, lost := false, heldModifiers := 0,
    heldKeys := [], position := none, buttons := 0, lamps := 0, lampPending := false,
    receiver := .hunting }

/-- Every block in its reset state, with straps `p` latched and the two input levels as given. -/
def State.initial (p : Straps) (memoryReset ready : Bool) : State :=
  { straps := p
    memoryResetLine := memoryReset
    channel := Channel.reset p
    descriptors := Table.const DescriptorSlot.reset
    surfaces := Table.const none
    heads := Table.const Head.reset
    scans := Table.const Scan.reset
    slots := Table.const none
    rovers := Table.const 0
    encodeQueue := []
    encoder := none
    budget := Budget.reset
    link := Link.reset p
    relay := Relay.reset ready
    counters := Counters.reset
    pending := [] }

/-- The machine right after reset. The strap values and the two input levels are the model's choice
(DESIGN CHOICE, log 5); everything else is as the rules state. -/
def State.reset : State :=
  State.initial Config.resetStraps Config.resetMemoryResetLine Config.resetReady

end Sys2Proof.Machine
end

