-- ==== Sys2Proof/Machine/Buffer.lean ====
section
/-! DEFINITION. The byte buffers of the 742: a descriptor slot's assembled bytes (R28) and a record's pixel
store (R84). An unlisted offset reads as 0 (R28; for a pixel store DESIGN CHOICE, log 16). -/

namespace Sys2Proof.Machine

/-- The byte at offset `a`. -/
def Buffer.read (b : Buffer) (a : Nat) : Byte :=
  match b with
  | [] => 0
  | (k, x) :: rest => if k = a then x else Buffer.read rest a

/-- The buffer with byte `v` at offset `a`; writing 0 removes the entry. -/
def Buffer.write (b : Buffer) (a : Nat) (v : Byte) : Buffer :=
  match b with
  | [] => if v = 0 then [] else [(a, v)]
  | (k, x) :: rest =>
    if a < k then (if v = 0 then (k, x) :: rest else (a, v) :: (k, x) :: rest)
    else if a = k then (if v = 0 then rest else (a, v) :: rest)
    else (k, x) :: Buffer.write rest a v

/-- The buffer with every (offset, byte) pair of a list written, in order. -/
def Buffer.writeAll (b : Buffer) (cells : List (Nat × Byte)) : Buffer :=
  cells.foldl (fun b c => Buffer.write b c.1 c.2) b

/-- The canonical form: offsets strictly rising, and no entry 0. -/
abbrev Buffer.wf (b : Buffer) : Prop :=
  b.Pairwise (fun c d => c.1 < d.1) ∧ ∀ c ∈ b, c.2 ≠ 0

/-- A little-endian field of `n` bytes from offset `a` (00_scope.md "Numbers"). -/
def Buffer.field (b : Buffer) (a : Nat) (n : Nat) : Nat :=
  match n with
  | 0 => 0
  | n + 1 => (Buffer.read b a).toNat + 256 * Buffer.field b (a + 1) n

end Sys2Proof.Machine
end

