-- ==== Sys2Proof/Machine/Flags.lean ====
section
/-! DEFINITION. The event latches (R152, TABLE 38) and the counters (R154, TABLE 39). -/

namespace Sys2Proof.Machine

/-- The ten events, in the order of TABLE 38. -/
inductive Event where
  | followLost
  | memoryReset
  | blindRefresh
  | announceRefused
  | headStalled
  | deferralAbandoned
  | inputOverflow
  | inputLineError
  | lampOverrun
  | upstreamCheck
  deriving DecidableEq, Repr

/-- The event's bit in an event set (10, after TABLE 46). -/
def Event.bit (e : Event) : BitVec 10 :=
  match e with
  | .followLost => 0x001
  | .memoryReset => 0x002
  | .blindRefresh => 0x004
  | .announceRefused => 0x008
  | .headStalled => 0x010
  | .deferralAbandoned => 0x020
  | .inputOverflow => 0x040
  | .inputLineError => 0x080
  | .lampOverrun => 0x100
  | .upstreamCheck => 0x200

/-- Whether the event is latched. -/
def State.latched (e : Event) (s : State) : Bool := decide (s.link.latches &&& e.bit ≠ 0)

/-- The events latched and unmasked in the current settings (R142, R153). -/
def Link.reportable (l : Link) : BitVec 10 := l.latches &&& ~~~l.current.mask

/-- Raising an event in the Desk Link: the latch is set; when it was clear and the event is unmasked the
STATUS pending flag is set; a latched event changes nothing (R152). -/
def Link.raise (l : Link) (e : Event) : Link :=
  if l.latches &&& e.bit = 0 then
    { l with
      latches := l.latches ||| e.bit
      statusPending := l.statusPending || decide (l.current.mask &&& e.bit = 0) }
  else l

/-- Raising an event (R152). -/
def State.raise (e : Event) (s : State) : State := { s with link := s.link.raise e }

/-- The counters, in the order of TABLE 39. -/
inductive Counter where
  | surfaceWrites
  | strayReads
  | anomalies
  | capturesCompleted
  | capturesTorn
  | capturesAbandoned
  | tilesExact
  | tilesReduced
  | tileBytes
  | deferralsAbandoned
  | upstreamDiscarded
  | inputDropped
  | inputLineErrors
  | answersDropped
  deriving DecidableEq, Repr

/-- A counter's value. -/
def Counters.value (c : Counters) (k : Counter) : BitVec 32 :=
  match k with
  | .surfaceWrites => c.surfaceWrites
  | .strayReads => c.strayReads
  | .anomalies => c.anomalies
  | .capturesCompleted => c.capturesCompleted
  | .capturesTorn => c.capturesTorn
  | .capturesAbandoned => c.capturesAbandoned
  | .tilesExact => c.tilesExact
  | .tilesReduced => c.tilesReduced
  | .tileBytes => c.tileBytes
  | .deferralsAbandoned => c.deferralsAbandoned
  | .upstreamDiscarded => c.upstreamDiscarded
  | .inputDropped => c.inputDropped
  | .inputLineErrors => c.inputLineErrors
  | .answersDropped => c.answersDropped

/-- The counters with one replaced. -/
def Counters.store (c : Counters) (k : Counter) (v : BitVec 32) : Counters :=
  match k with
  | .surfaceWrites => { c with surfaceWrites := v }
  | .strayReads => { c with strayReads := v }
  | .anomalies => { c with anomalies := v }
  | .capturesCompleted => { c with capturesCompleted := v }
  | .capturesTorn => { c with capturesTorn := v }
  | .capturesAbandoned => { c with capturesAbandoned := v }
  | .tilesExact => { c with tilesExact := v }
  | .tilesReduced => { c with tilesReduced := v }
  | .tileBytes => { c with tileBytes := v }
  | .deferralsAbandoned => { c with deferralsAbandoned := v }
  | .upstreamDiscarded => { c with upstreamDiscarded := v }
  | .inputDropped => { c with inputDropped := v }
  | .inputLineErrors => { c with inputLineErrors := v }
  | .answersDropped => { c with answersDropped := v }

/-- A 32-bit count increased by `n`, stopping at 4,294,967,295 without wrapping (R154). -/
def saturatingAdd (v : BitVec 32) (n : Nat) : BitVec 32 :=
  BitVec.ofNat 32 (min (v.toNat + n) 4294967295)

/-- A counter increased by a stated amount (R154). -/
def State.countBy (k : Counter) (n : Nat) (s : State) : State :=
  { s with counters := s.counters.store k (saturatingAdd (s.counters.value k) n) }

/-- A counter counts one (R154). -/
def State.count (k : Counter) (s : State) : State := s.countBy k 1

/-- The counter with READ item id 0x20 + n (TABLE 48). -/
def Counter.ofIndex (n : Nat) : Option Counter :=
  match n with
  | 0 => some .surfaceWrites
  | 1 => some .strayReads
  | 2 => some .anomalies
  | 3 => some .capturesCompleted
  | 4 => some .capturesTorn
  | 5 => some .capturesAbandoned
  | 6 => some .tilesExact
  | 7 => some .tilesReduced
  | 8 => some .tileBytes
  | 9 => some .deferralsAbandoned
  | 10 => some .upstreamDiscarded
  | 11 => some .inputDropped
  | 12 => some .inputLineErrors
  | 13 => some .answersDropped
  | _ => none

end Sys2Proof.Machine
end

