-- ==== Sys2Proof/Machine/Operands.lean ====
section
/-! DEFINITION. How the commands' operands and the mode shadow are read: shadow fields (TABLE 5, TABLE 43),
the group and the order of a burst (R7, R23, R24), and the fields of upstream frames (R158, R169). -/

namespace Sys2Proof.Machine

/-! ### Mode shadow fields (TABLE 43) -/

/-- Burst modes (TABLE 5). -/
inductive BurstMode where
  | fixed8
  | perCommandChop
  | fixedChop
  | unsupported
  deriving DecidableEq, Repr

/-- Read latency code: register 0, bits 0 to 3. -/
def Channel.readLatencyCode (c : Channel) : Nat := ((c.shadow.look 0).value.extractLsb' 0 4).toNat

/-- Burst order: register 0, bit 11; true is exchange. -/
def Channel.exchangeOrder (c : Channel) : Bool := (c.shadow.look 0).value.getLsbD 11

/-- Burst mode: register 0, bits 12 and 13. -/
def Channel.burstMode (c : Channel) : BurstMode :=
  match ((c.shadow.look 0).value.extractLsb' 12 2).toNat with
  | 0 => .fixed8
  | 1 => .perCommandChop
  | 2 => .fixedChop
  | _ => .unsupported

/-- Write training: register 1, bit 5, whatever the register's valid flag: in WAIT_MODES condition 7 of R10 is
met by the contents a memory reset has kept (DESIGN CHOICE, log 28). -/
def Channel.writeTraining (c : Channel) : Bool := (c.shadow.look 1).value.getLsbD 5

/-- Write latency code: register 2, bits 8 to 11. -/
def Channel.writeLatencyCode (c : Channel) : Nat := ((c.shadow.look 2).value.extractLsb' 8 4).toNat

/-- Diversion: register 3, bit 0, whatever the register's valid flag: in WAIT_MODES condition 6 of R10 is met by
the contents a memory reset has kept (DESIGN CHOICE, log 28). -/
def Channel.diversion (c : Channel) : Bool := (c.shadow.look 3).value.getLsbD 0

/-- Read latency (TABLE 5). -/
def Channel.readLatency (c : Channel) : Nat := c.readLatencyCode + 5

/-- Write latency (TABLE 5). -/
def Channel.writeLatency (c : Channel) : Nat := c.writeLatencyCode + 4

/-- The shadow is supported: all four registers valid and every field supported (R6). -/
def Channel.shadowSupported (c : Channel) : Bool :=
  (c.shadow.look 0).valid && (c.shadow.look 1).valid && (c.shadow.look 2).valid
    && (c.shadow.look 3).valid && decide (c.burstMode ≠ .unsupported)
    && decide (c.readLatencyCode ≤ 11) && decide (c.writeLatencyCode ≤ 10)

/-! ### Bursts (R7, R23, R24) -/

/-- The number of columns a burst covers: 4 for a chop, 8 for a full burst (R7). -/
def Channel.burstColumns (c : Channel) (chop : Bool) : Nat :=
  match c.burstMode with
  | .fixed8 => 8
  | .perCommandChop => if chop then 4 else 8
  | .fixedChop => 4
  | .unsupported => 8

/-- The group base: the column with its low 3 bits, or for a chop its low 2 bits, cleared (R23, R24). -/
def groupBase (column columns : Nat) : Nat := column - column % columns

/-- The offset within the group that beat `k` of a read burst carries (R24). -/
def beatOffset (exchange : Bool) (columns start k : Nat) : Nat :=
  if exchange then start ^^^ k else (start + k) % columns

/-- Byte lane `j` of a 4-lane word. -/
def laneByte (w : BitVec 32) (j : Nat) : Byte := w.extractLsb' (8 * j) 8

/-- The beats of a table, in arrival order. -/
def beatList {α : Type} (t : Table 8 α) : List α := (List.finRange 8).map t.look

/-- The enabled bytes of a write burst, as (byte offset within the group, value): offset k * W + j for
byte j of beat k (R23). -/
def enabledBytes (beatBytes columns : Nat) (beats : Table 8 WriteBeat) : List (Nat × Byte) :=
  (((beatList beats).take columns).zipIdx).flatMap fun bk =>
    (List.range beatBytes).filterMap fun j =>
      if bk.1.enables.getLsbD j then some (bk.2 * beatBytes + j, laneByte bk.1.data j) else none

/-- The data of a read burst re-ordered into ascending column order, byte by byte (R24): the beat that
carries a column is the one whose offset is that column's. -/
def reorderedBytes (beatBytes : Nat) (b : Burst) (beats : Table 8 (BitVec 32)) : List Byte :=
  (List.range b.columns).flatMap fun c =>
    let arrived := (beatList beats).take b.columns
    let beat := ((arrived.zipIdx).find? fun bk => beatOffset b.exchange b.columns b.start bk.2 == c)
    match beat with
    | some bk => (List.range beatBytes).map (laneByte bk.1)
    | none => []

/-! ### Upstream fields (R158, R169) -/

/-- A byte inserted into an ascending list without repeats. -/
def insertKey (k : Byte) (l : List Byte) : List Byte :=
  match l with
  | [] => [k]
  | x :: rest => if k < x then k :: x :: rest else if k = x then x :: rest else x :: insertKey k rest

/-- The key set of a KEYS frame: code 0 stands for no key, a repeated code counts once (R158, R169). -/
def keySet (codes : Table 6 Byte) : List Byte :=
  ((List.finRange 6).map codes.look).foldl (fun l k => if k = 0 then l else insertKey k l) []

/-- A POINTER coordinate: bit 15 is ignored (R169). -/
def pointerCoordinate (v : BitVec 16) : BitVec 15 := v.extractLsb' 0 15

/-- The five button flags: bits 5 to 7 are ignored (R169). -/
def pointerButtons (b : Byte) : BitVec 5 := b.extractLsb' 0 5

/-- The wheel: a signed byte, -128 taken as -127 (R169). -/
def pointerWheel (b : Byte) : Int := max b.toInt (-127)

/-- An upstream head byte as a head: 0 to 3 (R149, R151, R59). -/
def headOf (b : Byte) : Option (Fin 4) := if h : b.toNat < 4 then some ⟨b.toNat, h⟩ else none

/-- The ten events an event set of 16 bits names: bits 10 to 15 are ignored (R169). -/
def eventSet (v : BitVec 16) : BitVec 10 := v.extractLsb' 0 10

end Sys2Proof.Machine
end

