-- ==== Sys2Proof/Machine/Ops.lean ====
section
/-! DEFINITION. The shared operations over the tables and the records: tiles (R33, R46), stale and quality maps
(R49 to R61), freeing and withdrawing records (R62 to R65, R84, R98), blind marking (R58). -/

namespace Sys2Proof.Machine

/-! ### Tiles (R33) -/

/-- Bytes per pixel (R33). -/
def PixelFormat.bytesPerPixel (f : PixelFormat) : Nat :=
  match f with
  | .f32 => 4
  | .f16 => 2

/-- Tile columns: ceil(width / 32) (R33). -/
def Geometry.tileColumns (g : Geometry) : Nat := (g.width + 31) / 32

/-- Tile rows: ceil(height / 32) (R33). -/
def Geometry.tileRows (g : Geometry) : Nat := (g.height + 31) / 32

/-- The tile count (R33). -/
def Geometry.tileCount (g : Geometry) : Nat := g.tileColumns * g.tileRows

/-- Whether a tile lies in the tile grid. -/
def Geometry.hasTile (g : Geometry) (column row : Nat) : Bool :=
  decide (column < g.tileColumns) && decide (row < g.tileRows)

/-- A tile's place in a map: raster order of the tile grid. -/
def Geometry.tileIndex (g : Geometry) (column row : Nat) : Nat := row * g.tileColumns + column

/-- The visible pixel columns of a tile column (R33). -/
def Geometry.tileWidth (g : Geometry) (column : Nat) : Nat :=
  if column + 1 < g.tileColumns then 32 else g.width - 32 * (g.tileColumns - 1)

/-- The visible lines of a tile row (R33). -/
def Geometry.tileHeight (g : Geometry) (row : Nat) : Nat :=
  if row + 1 < g.tileRows then 32 else g.height - 32 * (g.tileRows - 1)

/-- The visible bytes of a line: width * bpp (R46). -/
def Geometry.lineBytes (g : Geometry) : Nat := g.width * g.format.bytesPerPixel

/-- The first channel address past a surface (R33). -/
def Surface.limit (f : Surface) : Nat := f.base + f.pitch * f.geometry.height

/-- Whether a channel address lies in the surface's range (R46). -/
def Surface.contains (f : Surface) (a : Nat) : Bool := decide (f.base ≤ a) && decide (a < f.limit)

/-! ### Stale maps (R49) -/

/-- The mark of a tile; a tile outside the grid has none. -/
def Surface.isStale (f : Surface) (column row : Nat) : Bool :=
  f.geometry.hasTile column row && f.stale.getD (f.geometry.tileIndex column row) false

/-- The map with a tile's mark set or cleared; a marking outside the grid is not kept (R49). -/
def Surface.withMark (f : Surface) (column row : Nat) (mark : Bool) : Surface :=
  if f.geometry.hasTile column row then
    { f with stale := f.stale.set (f.geometry.tileIndex column row) mark }
  else f

/-- Whole-surface marking (R57). -/
def Surface.markWhole (f : Surface) : Surface :=
  { f with stale := List.replicate f.geometry.tileCount true }

/-- A change to a DECLARED surface; an EMPTY entry stays EMPTY (R49). -/
def State.updSurface (id : Fin 16) (f : Surface → Surface) (s : State) : State :=
  { s with surfaces := s.surfaces.upd id (Option.map f) }

/-- M_S[T] is set, subject to R49. -/
def State.markStale (id : Fin 16) (column row : Nat) (s : State) : State :=
  s.updSurface id fun f => f.withMark column row true

/-- M_S[T] is cleared (R51). -/
def State.clearStale (id : Fin 16) (column row : Nat) (s : State) : State :=
  s.updSurface id fun f => f.withMark column row false

/-- Whether M_S[T] is set. -/
def State.isStale (id : Fin 16) (column row : Nat) (s : State) : Bool :=
  match s.surfaces.look id with
  | some f => f.isStale column row
  | none => false

/-- Whole-surface marking of the surface with an id (R57). -/
def State.markWhole (id : Fin 16) (s : State) : State := s.updSurface id Surface.markWhole

/-- Whole-surface marking of every surface of a list (R43, R59, R60). -/
def State.markEach (ids : List (Fin 16)) (s : State) : State :=
  ids.foldl (fun s id => s.markWhole id) s

/-- Every declared surface's stale map is set whole (R58). -/
def State.markEverySurface (s : State) : State :=
  { s with surfaces := Table.tab fun id => (s.surfaces.look id).map Surface.markWhole }

/-! ### Heads and quality maps (R34, R52) -/

/-- A change to one entry of the head table. -/
def State.updHead (h : Fin 4) (f : Head → Head) (s : State) : State :=
  { s with heads := s.heads.upd h f }

/-- A change to one follower. -/
def State.updScan (h : Fin 4) (f : Scan → Scan) (s : State) : State :=
  { s with scans := s.scans.upd h f }

/-- A change to one head's budget. -/
def State.updBudget (h : Fin 4) (f : HeadBudget → HeadBudget) (s : State) : State :=
  { s with budget := { s.budget with heads := s.budget.heads.upd h f } }

/-- Whether a head is not OFF. -/
def State.isOn (h : Fin 4) (s : State) : Bool := decide ((s.heads.look h).state ≠ .off)

/-- Every entry of a head's quality map becomes EXACT, over its present geometry (R52). -/
def Head.allExact (d : Head) : Head :=
  { d with quality := match d.geometry with
      | some g => List.replicate g.tileCount Code.exact
      | none => [] }

/-- The quality entry of a tile (R52); none outside the geometry. -/
def Head.qualityOf (d : Head) (column row : Nat) : Option Code :=
  match d.geometry with
  | some g => if g.hasTile column row then d.quality[g.tileIndex column row]? else none
  | none => none

/-- The quality entry of a tile takes a code, when the head is not OFF and the tile lies in its present
geometry (R53, R54). -/
def Head.withQuality (d : Head) (column row : Nat) (c : Code) : Head :=
  match d.state, d.geometry with
  | .off, _ => d
  | _, none => d
  | _, some g =>
    if g.hasTile column row then { d with quality := d.quality.set (g.tileIndex column row) c } else d

/-! ### Slots and records (R84, R85) -/

/-- The slots, in order of their numbers. -/
def allSlots : List (Fin 64) := List.finRange 64

/-- The heads, in order of their numbers. -/
def allHeads : List (Fin 4) := List.finRange 4

/-- A step taken for each slot in order. -/
def State.forSlots (f : Fin 64 → State → State) (s : State) : State :=
  allSlots.foldl (fun s i => f i s) s

/-- A step taken for each head in order. -/
def State.forHeads (f : Fin 4 → State → State) (s : State) : State :=
  allHeads.foldl (fun s h => f h s) s

/-- A change to the record in a slot. -/
def State.updRecord (i : Fin 64) (f : Record → Record) (s : State) : State :=
  { s with slots := s.slots.upd i (Option.map f) }

/-- The number of slots held by a head: its live records (R85; log 14). -/
def State.held (h : Fin 4) (s : State) : Nat :=
  allSlots.countP fun i =>
    match s.slots.look i with
    | some r => r.head == h
    | none => false

/-- The live record of a surface and a tile, with its slot (R91: at most one). -/
def State.liveSlot (id : Fin 16) (column row : Nat) (s : State) : Option (Fin 64) :=
  allSlots.find? fun i =>
    match s.slots.look i with
    | some r => r.surface == id && r.column == column && r.row == row
    | none => false

/-- A slot is freed (R84). -/
def State.freeSlot (i : Fin 64) (s : State) : State := { s with slots := s.slots.put i none }

/-- A record is released: its slot is freed and its tile marked stale, subject to R49 (R63, R64). -/
def State.release (i : Fin 64) (r : Record) (s : State) : State :=
  (s.freeSlot i).markStale r.surface r.column r.row

/-- An abandon: the slot is freed, the tile marked, and one abandoned capture counted (R98). -/
def State.abandonCapture (i : Fin 64) (r : Record) (s : State) : State :=
  (s.release i r).count .capturesAbandoned

/-- A slot leaves a head's deferral list; the others keep their order (R132). -/
def State.dropDeferred (h : Fin 4) (i : Fin 64) (s : State) : State :=
  s.updBudget h fun b => { b with deferred := b.deferred.filter (· ≠ i) }

/-- A slot leaves a head's send FIFO; the others keep their order (R144). -/
def State.dropQueued (h : Fin 4) (i : Fin 64) (s : State) : State :=
  { s with link := { s.link with send := s.link.send.upd h fun l => l.filter (· ≠ i) } }

/-- A slot leaves the encode queue; the others keep their order (R112). -/
def State.dropCaptured (i : Fin 64) (s : State) : State :=
  { s with encodeQueue := s.encodeQueue.filter (· ≠ i) }

/-- Withdrawal of one live record for any cause other than link loss, by its state (R63 to R65). -/
def State.withdrawSlot (i : Fin 64) (s : State) : State :=
  match s.slots.look i with
  | none => s
  | some r =>
    match r.state with
    | .capturing => s.abandonCapture i r
    | .captured => (s.dropCaptured i).release i r
    | .deferred => (s.dropDeferred r.head i).release i r
    | .queued => (s.dropQueued r.head i).release i r
    | .encoding => s.updRecord i fun r => { r with withdrawn := true }
    | .sending => s

/-- Withdrawal of every live record that `p` names (R62). -/
def State.withdrawWhere (p : Record → Bool) (s : State) : State :=
  s.forSlots fun i s =>
    match s.slots.look i with
    | some r => if p r then s.withdrawSlot i else s
    | none => s

/-- Withdrawal of every live record of a surface (R40, R73). -/
def State.withdrawSurface (id : Fin 16) (s : State) : State :=
  s.withdrawWhere fun r => r.surface == id

/-- Withdrawal of every live record of a flip set (R43, R45). -/
def State.withdrawFlipSet (ids : List (Fin 16)) (s : State) : State :=
  s.withdrawWhere fun r => ids.contains r.surface

/-- Link loss: a SENDING record's frame is lost (R55, R65); every other record is withdrawn (R140). -/
def State.withdrawAtLinkLoss (s : State) : State :=
  s.forSlots fun i s =>
    match s.slots.look i with
    | some r => if r.state = .sending then s.release i r else s.withdrawSlot i
    | none => s

/-- Every CAPTURING record that `p` names is abandoned (R98). -/
def State.abandonWhere (p : Record → Bool) (s : State) : State :=
  s.forSlots fun i s =>
    match s.slots.look i with
    | some r => if r.state = .capturing && p r then s.abandonCapture i r else s
    | none => s

/-- Blind marking (R58): every declared surface wholly stale; every live record that is CAPTURED,
ENCODING, DEFERRED or QUEUED withdrawn. -/
def State.blindMarking (s : State) : State :=
  s.markEverySurface.withdrawWhere fun r => decide (r.state ≠ .capturing ∧ r.state ≠ .sending)

/-! ### Timers (R116) -/

/-- The time base plus a number of microseconds, modulo 2^32. -/
def State.after (micros : Nat) (s : State) : Time := s.budget.now + BitVec.ofNat 32 micros

/-- Whether the time base has reached an expiry: the expiry lies less than half a wrap behind (R116:
the longest timer is far shorter than the wrap period; DEDUCED, log 1). -/
def timeReached (now expiry : Time) : Bool := decide ((now - expiry).toNat < 2147483648)

/-- The time base brought to an expiry that is still ahead: a timer-expiry command says that the time
base has reached it (R116; DESIGN CHOICE, log 2). -/
def State.reachTime (expiry : Time) (s : State) : State :=
  if timeReached s.budget.now expiry then s
  else { s with budget := { s.budget with now := expiry } }

end Sys2Proof.Machine
end

