-- ==== Sys2Proof/Machine/Clock.lean ====
section
/-! DEFINITION. What a microsecond without a command does (R116, log 1): the time base advances, and the timers it
has reached put their expiry commands into the queue. -/

namespace Sys2Proof.Machine

/-- The expiry commands of the timers that the time base has reached, in a fixed order: the tick, the stall
timers by head, the hold timer, the HELLO repeat timer, the aligning timer (DESIGN CHOICE, log 1). -/
def State.dueCommands (s : State) : List Instr :=
  let due := fun (t : Option Time) (c : Instr) =>
    match t with
    | some e => if timeReached s.budget.now e then [c] else []
    | none => []
  due (some s.budget.tickAt) .tick
    ++ allHeads.flatMap (fun h => due (s.scans.look h).stall (.stallTimerExpiry h))
    ++ due s.budget.hold .overrideHoldExpiry
    ++ due s.link.helloAt .helloRepeatTimerExpiry
    ++ due s.link.aligningAt .aligningTimerExpiry

/-- One microsecond passes (R116): the time base increases by 1, wrapping, and the timers due queue their
expiries (log 1). -/
def State.passMicrosecond (s : State) : State :=
  let s := { s with budget := { s.budget with now := s.budget.now + 1 } }
  { s with pending := s.pending ++ s.dueCommands }

end Sys2Proof.Machine
end

