-- ==== Sys2Proof/Machine/InputQueue.lean ====
section
/-! DEFINITION. The input queue and the transmitter of the input line (R156 to R163). -/

namespace Sys2Proof.Machine

/-- Whether an entry is a KEYBOARD entry. -/
def InputEntry.isKeyboard (e : InputEntry) : Bool :=
  match e with
  | .keyboard _ _ => true
  | _ => false

/-- Whether an entry is a POINTER entry. -/
def InputEntry.isPointer (e : InputEntry) : Bool :=
  match e with
  | .pointer _ _ _ _ => true
  | _ => false

/-- Whether an entry is a NOTICE entry. -/
def InputEntry.isNotice (e : InputEntry) : Bool :=
  match e with
  | .notice _ => true
  | _ => false

/-- The transmitter begins a frame with the entry at the head of the queue; a NOTICE takes the lost-notice
flag and clears it (R156, R163). -/
def Relay.beginFrame (r : Relay) : Relay :=
  match r.queue with
  | [] => r
  | .notice n :: rest =>
    { r with queue := rest, sending := some { entry := .notice n, lost := r.lost }, lost := false }
  | e :: rest => { r with queue := rest, sending := some { entry := e, lost := false } }

/-- The transmitter begins a frame when it is IDLE and the ready level is high (R156). -/
def Relay.tryBegin (r : Relay) : Relay :=
  if r.sending.isNone && r.ready then r.beginFrame else r

/-- An entry joins the tail of the queue; an IDLE transmitter begins a frame at once (R156, R157). -/
def Relay.join (r : Relay) (e : InputEntry) : Relay :=
  { r with queue := r.queue ++ [e] }.tryBegin

/-- The queue holds 32 entries (R157). -/
def Relay.full (r : Relay) : Bool := decide (32 ≤ r.queue.length)

/-- The list with its last element that satisfies `p` replaced by `x`; it keeps its place. -/
def replaceNewest (p : InputEntry → Bool) (x : InputEntry) (l : List InputEntry) : List InputEntry :=
  match l with
  | [] => []
  | e :: rest =>
    if rest.any p then e :: replaceNewest p x rest
    else if p e then x :: rest
    else e :: rest

/-- A change to the Input Relay. -/
def State.updRelay (f : Relay → Relay) (s : State) : State := { s with relay := f s.relay }

/-- A report that is shed or that replaces another counts one and raises INPUT_OVERFLOW (R159, R160). -/
def State.inputOverflow (s : State) : State := (s.count .inputDropped).raise .inputOverflow

/-- A wheel value limited to -127 and +127 (R159). -/
def limitWheel (w : Int) : Int := max (-127) (min 127 w)

/-- A keyboard report is offered to the queue (R160). -/
def State.offerKeyboard (modifiers : Byte) (keys : List Byte) (s : State) : State :=
  let e := InputEntry.keyboard modifiers keys
  let r := s.relay
  if !r.full then s.updRelay (·.join e)
  else if r.queue.any InputEntry.isKeyboard then
    (s.updRelay fun r => { r with queue := replaceNewest InputEntry.isKeyboard e r.queue }).inputOverflow
  else if r.queue.any InputEntry.isPointer then
    (s.updRelay fun r => { r with queue := r.queue.eraseP InputEntry.isPointer }.join e).inputOverflow
  else
    (s.updRelay fun r =>
      { r with queue := r.queue.eraseP InputEntry.isNotice, lost := true }.join e).inputOverflow

/-- The merge of R159 step 1: the newest entry, when it is a POINTER entry with the report's buttons, takes
the report's x and y, and the wheel values are summed within the limit. -/
def mergePointer (x y : BitVec 15) (buttons : BitVec 5) (wheel : Int) (l : List InputEntry) :
    Option (List InputEntry) :=
  match l with
  | [] => none
  | [.pointer _ _ b w] =>
    if b = buttons then some [.pointer x y buttons (limitWheel (w + wheel))] else none
  | [_] => none
  | e :: rest => (mergePointer x y buttons wheel rest).map (e :: ·)

/-- Steps 1 to 3 of R159, with `drop` taken at a full queue that holds no POINTER entry. -/
def State.pointerSteps (x y : BitVec 15) (buttons : BitVec 5) (wheel : Int) (drop : State → State)
    (s : State) : State :=
  match mergePointer x y buttons wheel s.relay.queue with
  | some l => s.updRelay fun r => { r with queue := l }
  | none =>
    let e := InputEntry.pointer x y buttons wheel
    if !s.relay.full then s.updRelay (·.join e)
    else if s.relay.queue.any InputEntry.isPointer then
      (s.updRelay fun r => { r with queue := replaceNewest InputEntry.isPointer e r.queue }).inputOverflow
    else drop s

/-- A pointer report is offered to the queue (R159). -/
def State.offerPointer (x y : BitVec 15) (buttons : BitVec 5) (wheel : Int) (s : State) : State :=
  s.pointerSteps x y buttons wheel State.inputOverflow

/-- The queue with room made for a pointer release: the oldest KEYBOARD entry other than the newest one, or
else the oldest NOTICE entry with the lost-notice flag set, is removed (R162 step 2). -/
def Relay.shedForRelease (r : Relay) : Relay :=
  if 2 ≤ r.queue.countP InputEntry.isKeyboard then
    { r with queue := r.queue.eraseP InputEntry.isKeyboard }
  else { r with queue := r.queue.eraseP InputEntry.isNotice, lost := true }

/-- A pointer release at link loss (R162 step 2): R159 steps 1 to 3; a full queue without a POINTER entry
sheds an entry, and the release is appended, counted and raises INPUT_OVERFLOW. -/
def State.offerPointerRelease (x y : BitVec 15) (s : State) : State :=
  s.pointerSteps x y 0 0 fun s =>
    (s.updRelay fun r => r.shedForRelease.join (.pointer x y 0 0)).inputOverflow

/-- A notice is offered: appended when there is room, else discarded with the lost-notice flag set (R163). -/
def State.offerNotice (n : Notice) (s : State) : State :=
  s.updRelay fun r => if r.full then { r with lost := true } else r.join (.notice n)

/-- What the Input Relay does when the link has left UP (R162). -/
def State.releaseHeld (s : State) : State :=
  let s1 :=
    if s.relay.heldModifiers ≠ 0 ∨ s.relay.heldKeys ≠ [] then
      (s.offerKeyboard 0 []).updRelay fun r => { r with heldModifiers := 0, heldKeys := [] }
    else s
  let s2 :=
    if s1.relay.buttons ≠ 0 then
      match s1.relay.position with
      | some (x, y) => (s1.offerPointerRelease x y).updRelay fun r => { r with buttons := 0 }
      | none => s1.updRelay fun r => { r with buttons := 0 }
    else s1
  s2.offerNotice (.link false)

end Sys2Proof.Machine
end

