-- ==== Sys2Proof/Machine/Control.lean ====
section
/-! DEFINITION. The control FIFO, the send FIFOs and the send arbiter (R142 to R146). -/

namespace Sys2Proof.Machine

/-! ### The control FIFO (R143) -/

/-- The FIFO less its most recently queued ANSWER, when it holds one. -/
def dropNewestAnswer (l : List ControlFrame) : Option (List ControlFrame) :=
  match l with
  | [] => none
  | f :: rest =>
    match dropNewestAnswer rest with
    | some rest' => some (f :: rest')
    | none =>
      match f with
      | .answer _ _ _ => some rest
      | _ => none

/-- A frame other than ANSWER joins the tail; at 16 frames the newest ANSWER is removed first and counts
on ANSWERs dropped (R143). -/
def State.pushControl (f : ControlFrame) (s : State) : State :=
  if s.link.control.length < 16 then
    { s with link := { s.link with control := s.link.control ++ [f] } }
  else
    match dropNewestAnswer s.link.control with
    | some l => ({ s with link := { s.link with control := l ++ [f] } }).count .answersDropped
    | none => { s with link := { s.link with control := s.link.control ++ [f] } }

/-- Whether a queued frame is a HEAD frame for a head. -/
def ControlFrame.isHead (h : Fin 4) (f : ControlFrame) : Bool :=
  match f with
  | .head d => d.head == h
  | _ => false

/-- Whether a queued frame is a LAMP frame. -/
def ControlFrame.isLamp (f : ControlFrame) : Bool :=
  match f with
  | .lamp _ => true
  | _ => false

/-- Whether a queued frame is a HELLO. -/
def ControlFrame.isHello (f : ControlFrame) : Bool :=
  match f with
  | .hello _ => true
  | _ => false

/-- Whether a queued frame is an ANSWER. -/
def ControlFrame.isAnswer (f : ControlFrame) : Bool :=
  match f with
  | .answer _ _ _ => true
  | _ => false

/-- The contents of a HEAD frame, fixed when it is queued: a head that is OFF carries an empty flip set,
no geometry and period 0 (R74, R142, R170). -/
def State.headFrame (h : Fin 4) (s : State) : HeadFrame :=
  let d := s.heads.look h
  match d.state with
  | .off => { head := h, state := .off, flipSet := [], geometry := none, period := 0 }
  | _ => { head := h, state := d.state, flipSet := d.flipSet, geometry := d.geometry,
           period := (s.scans.look h).period }

/-- A HEAD frame for a head is offered: not queued while not UP; while UP it takes the place of a queued
HEAD frame of the head, or joins the tail (R143). -/
def State.offerHead (h : Fin 4) (s : State) : State :=
  match s.link.state with
  | .up =>
    if s.link.control.any (ControlFrame.isHead h) then
      { s with link := { s.link with
          control := s.link.control.map fun f => if f.isHead h then .head (s.headFrame h) else f } }
    else s.pushControl (.head (s.headFrame h))
  | _ => s

/-- A LAMP frame is offered (R143). -/
def State.offerLamp (set : Byte) (s : State) : State :=
  match s.link.state with
  | .up =>
    if s.link.control.any ControlFrame.isLamp then
      { s with link := { s.link with
          control := s.link.control.map fun f => if f.isLamp then .lamp set else f } }
    else s.pushControl (.lamp set)
  | _ => s

/-- A STATUS frame is offered (R143). -/
def State.offerStatus (s : State) : State :=
  match s.link.state with
  | .up => if s.link.control.contains .status then s else s.pushControl .status
  | _ => s

/-- An ANSWER is offered: dropped and counted when the FIFO holds 16 frames (R143). -/
def State.offerAnswer (id : BitVec 16) (valid : Bool) (value : BitVec 64) (s : State) : State :=
  if s.link.control.length < 16 then
    { s with link := { s.link with control := s.link.control ++ [.answer id valid value] } }
  else s.count .answersDropped

/-- A HELLO is offered in ALIGNING, unless a HELLO is queued and not begun (R139, R143). -/
def State.offerHello (s : State) : State :=
  if s.link.control.any ControlFrame.isHello then s
  else s.pushControl (.hello s.straps.laneCount)

/-! ### The send arbiter (R145, R146) -/

/-- The last head served of a class. -/
def LastServed.of (l : LastServed) (c : HeadClass) : Fin 4 :=
  match c with
  | .critical => l.critical
  | .high => l.high
  | .normal => l.normal

/-- The record with the last head served of a class replaced. -/
def LastServed.served (l : LastServed) (c : HeadClass) (h : Fin 4) : LastServed :=
  match c with
  | .critical => { l with critical := h }
  | .high => { l with high := h }
  | .normal => { l with normal := h }

/-- A control frame begins: a LAMP frame clears the lamp pending flag (R166); a STATUS frame takes its
contents from the latches and the mask in force (R142). -/
def State.beginControl (f : ControlFrame) (s : State) : State :=
  match f with
  | .status => { s with link := { s.link with wire := .status s.link.reportable } }
  | .lamp set =>
    { s with link := { s.link with wire := .control (.lamp set) }
             relay := { s.relay with lampPending := false } }
  | f => { s with link := { s.link with wire := .control f } }

/-- A tile frame begins: the record leaves the head of its send FIFO and becomes SENDING, and its head
becomes the class's last head served (R145, R146). -/
def State.beginTile (c : HeadClass) (h : Fin 4) (i : Fin 64) (rest : List (Fin 64)) (s : State) : State :=
  ({ s with link := { s.link with
      send := s.link.send.put h rest
      wire := .tile i
      lastServed := s.link.lastServed.served c h } }).updRecord i fun r => { r with state := .sending }

/-- The head of a class the arbiter chooses: the first after the class's last head served, in cyclic
order, whose class is that class and whose send FIFO is not empty (R145). -/
def State.nextHead (c : HeadClass) (s : State) : Option (Fin 4) :=
  let l := s.link.lastServed.of c
  [l + 1, l + 2, l + 3, l].find? fun h =>
    decide ((s.link.current.heads.look h).cls = c) && !(s.link.send.look h).isEmpty

/-- The first tile frame the order of R145 yields, over the classes given. -/
def State.sendTile (classes : List HeadClass) (s : State) : State :=
  match classes with
  | [] => s
  | c :: more =>
    match s.nextHead c with
    | some h =>
      match s.link.send.look h with
      | i :: rest => s.beginTile c h i rest
      | [] => s
    | none => s.sendTile more

/-- The send decision (R145): with the wire idle and the link ALIGNING or UP, the head of the control FIFO,
or while UP a tile frame by class and round robin. -/
def State.sendDecision (s : State) : State :=
  match s.link.wire, s.link.state with
  | .idle, .down => s
  | .idle, st =>
    match s.link.control with
    | f :: rest => ({ s with link := { s.link with control := rest } }).beginControl f
    | [] => if st = .up then s.sendTile [.critical, .high, .normal] else s
  | _, _ => s

/-! ### The STATUS test (R153) -/

/-- The STATUS pending flag is tested at a tick (R153). -/
def State.statusTest (s : State) : State :=
  if s.link.statusPending && decide (s.link.state = .up) then
    let s' := if s.link.reportable ≠ 0 then s.offerStatus else s
    { s' with link := { s'.link with statusPending := false } }
  else s

end Sys2Proof.Machine
end

