-- ==== Sys2Proof/Machine/Shares.lean ====
section
/-! DEFINITION. The Budget Unit's operations: shares (R124 to R126), caps and credits (R127, R128), the pointer
mapping (R164), the encode decision (R130, R131), deferral (R132 to R135) and the override (R136). -/

namespace Sys2Proof.Machine

/-! ### Shares (R124 to R126) -/

/-- What a recomputation reads of one ON head. -/
structure Claim where
  head : Fin 4
  cls : HeadClass
  weight : Nat
  demand : Nat
  deriving DecidableEq, Repr

/-- The ON heads in order of their numbers, with the settings in force and the demands as they stand (R124). -/
def State.claims (s : State) : List Claim :=
  (allHeads.filter (s.isOn ·)).map fun h =>
    { head := h
      cls := (s.link.current.heads.look h).cls
      weight := (s.link.current.heads.look h).weight
      demand := (s.budget.heads.look h).demand }

/-- The sum of a quantity over claims. -/
def sumOver (cs : List Claim) (f : Claim → Nat) : Nat := (cs.map f).sum

/-- The ON head that receives a remainder: of the highest class, and among its heads the lowest-numbered
(R121). -/
def remainderHead (cs : List Claim) : Option (Fin 4) :=
  ((cs.filter (fun c => c.cls = .critical) ++ cs.filter (fun c => c.cls = .high)
    ++ cs.filter (fun c => c.cls = .normal)).head?).map (·.head)

/-- A division by weight: each ON head receives floor(amount * w / sum of w), and what remains goes to one
head (R121, R125, R126 stage 3). -/
def byWeight (amount : Nat) (cs : List Claim) (c : Claim) : Nat :=
  let total := sumOver cs (·.weight)
  let part := fun c : Claim => amount * c.weight / total
  part c + if remainderHead cs = some c.head then amount - sumOver cs part else 0

/-- R126 stage 2, class by class: (amount left, class not satisfied, what each claim received). -/
structure NeedStage where
  left : Nat
  closed : Bool
  got : Table 4 Nat
  deriving DecidableEq, Repr

/-- A head's need beyond the floor (R126). -/
def Claim.need (floor : Nat) (c : Claim) : Nat := c.demand - floor

/-- One class of R126 stage 2. -/
def NeedStage.serve (floor : Nat) (cs : List Claim) (st : NeedStage) (cls : HeadClass) : NeedStage :=
  if st.closed then st
  else
    let mine := cs.filter fun c => c.cls = cls
    let total := sumOver mine (·.need floor)
    let give := fun c : Claim => if total ≤ st.left then c.need floor else st.left * c.need floor / total
    { left := st.left - sumOver mine give
      closed := decide (st.left < total)
      got := mine.foldl (fun t c => t.put c.head (give c)) st.got }

/-- The shares in dynamic mode (R126). -/
def dynamicShare (budget : Nat) (cs : List Claim) (c : Claim) : Nat :=
  let floor := budget / 64
  let start : NeedStage :=
    { left := budget - cs.length * floor, closed := false, got := Table.const 0 }
  let st := [HeadClass.critical, .high, .normal].foldl (NeedStage.serve floor cs) start
  floor + st.got.look c.head + byWeight st.left cs c

/-- The share of one ON head (R124). -/
def shareOf (mode : AllocationMode) (budget : Nat) (cs : List Claim) (c : Claim) : Nat :=
  match mode with
  | .static => byWeight budget cs c
  | .dynamic => dynamicShare budget cs c

/-- The share of a head: 0 when it is OFF (R124). -/
def State.newShare (h : Fin 4) (s : State) : Nat :=
  match s.claims.find? fun c => c.head == h with
  | some c => shareOf s.link.current.mode s.link.current.budget s.claims c
  | none => 0

/-- A head's budget under a new share: the cap is max(4 * share, 8,192) and the credit is lowered to it
(R127, R128). -/
def HeadBudget.withShare (b : HeadBudget) (share : Nat) : HeadBudget :=
  let cap := max (4 * share) 8192
  { b with share := share, cap := cap, credit := min b.credit cap }

/-- A recomputation of the shares (R124). -/
def State.recomputeShares (s : State) : State :=
  { s with budget := { s.budget with
      heads := Table.tab fun h => (s.budget.heads.look h).withShare (s.newShare h) } }

/-- The refill of every head that is not OFF (R128). -/
def State.refill (s : State) : State :=
  { s with budget := { s.budget with
      heads := Table.tab fun h =>
        let b := s.budget.heads.look h
        if s.isOn h then { b with credit := min (b.credit + b.share) b.cap } else b } }

/-- The end of an epoch: each head's demand from its accumulator, OFF heads 0, and the accumulators 0 (R123). -/
def State.formDemands (s : State) : State :=
  { s with budget := { s.budget with
      epochTicks := 0
      heads := Table.tab fun h =>
        let b := s.budget.heads.look h
        { b with demand := if s.isOn h then (b.accumulator + 15) / 16 else 0, accumulator := 0 } } }

/-- Accumulator, demand and credit of a head whose ON state changes (R122, R123, R129). -/
def HeadBudget.cleared (b : HeadBudget) : HeadBudget :=
  { b with accumulator := 0, demand := 0, credit := 0 }

/-- The recompute request is set (R124). -/
def State.requestRecompute (s : State) : State := { s with budget := { s.budget with recompute := true } }

/-! ### The pointer on the screens (R164) -/

/-- The pointer's tile on a head with this geometry and rectangle (R164). -/
def pointerTileIn (g : Geometry) (d : Desktop) (x y : Nat) : Nat × Nat :=
  ((x - d.x0) * (g.width - 1) / (d.x1 - d.x0) / 32, (y - d.y0) * (g.height - 1) / (d.y1 - d.y0) / 32)

/-- Whether a rectangle contains a position, bounds included (R164). -/
def Desktop.contains (d : Desktop) (x y : Nat) : Bool :=
  decide (d.x0 ≤ x) && decide (x ≤ d.x1) && decide (d.y0 ≤ y) && decide (y ≤ d.y1)

/-- The pointer's tile on one head, when the head is SHOWING and its rectangle contains the position. -/
def State.pointerOn (h : Fin 4) (x y : Nat) (s : State) : Option (Fin 4 × Nat × Nat) :=
  match (s.heads.look h).state, (s.heads.look h).geometry, (s.link.current.heads.look h).desktop with
  | .showing, some g, some d =>
    if d.contains x y then
      let t := pointerTileIn g d x y
      some (h, t.1, t.2)
    else none
  | _, _, _ => none

/-- The pointer's head, tile column and tile row, as the state stands (R164). -/
def State.pointerTile (s : State) : Option (Fin 4 × Nat × Nat) :=
  match s.relay.position with
  | some (x, y) => allHeads.findSome? fun h => s.pointerOn h x.toNat y.toNat
  | none => none

/-! ### The encode decision and deferral (R130 to R135) -/

/-- A tile frame costs its payload plus 12 bytes (R110). -/
def frameCost (payload : List Byte) : Nat := payload.length + 12

/-- The first of R130's cases 2 and 3 that applies, R131 for a REFINE record: the code and the frame size. -/
def affordable (kind : RecordKind) (exactOnly : Bool) (credit : Nat) (f : CodedForms) : Option Decision :=
  if frameCost f.exact ≤ credit then some { code := .exact, frameSize := frameCost f.exact }
  else
    match kind with
    | .refine => none
    | .new =>
      if !exactOnly && decide (frameCost f.reduced ≤ credit) then
        some { code := .reduced, frameSize := frameCost f.reduced }
      else none

/-- A record joins the tail of its head's send FIFO (R144). With the wire idle every FIFO was empty, and its
joining takes a send decision at once (R145). -/
def State.joinSendFifo (h : Fin 4) (i : Fin 64) (s : State) : State :=
  ({ s with link := { s.link with send := s.link.send.upd h fun l => l ++ [i] } }).sendDecision

/-- A charge: the credit falls by the frame size, and the record is QUEUED at the tail of its head's send
FIFO with the code chosen (R128, R130, R144). -/
def State.charge (h : Fin 4) (i : Fin 64) (d : Decision) (s : State) : State :=
  let s := s.updBudget h fun b => { b with credit := b.credit - d.frameSize }
  let s := s.updRecord i fun r => { r with state := .queued, decision := some d }
  s.joinSendFifo h i

/-- The demand accumulator increases (R122). -/
def State.addDemand (h : Fin 4) (n : Nat) (s : State) : State :=
  s.updBudget h fun b => { b with accumulator := b.accumulator + n }

/-- A deferral at the encode decision: the record joins the tail of its head's list with age 0, and the
accumulator takes its exact frame size (R122, R130). -/
def State.defer (h : Fin 4) (i : Fin 64) (f : CodedForms) (s : State) : State :=
  let s := s.updRecord i fun r => { r with state := .deferred, age := 0 }
  (s.updBudget h fun b => { b with deferred := b.deferred ++ [i] }).addDemand h (frameCost f.exact)

/-- Exact-only of a head in the settings in force. -/
def State.exactOnly (h : Fin 4) (s : State) : Bool := (s.link.current.heads.look h).exactOnly

/-- The encode decision (R130, R131). -/
def State.encodeDecision (i : Fin 64) (r : Record) (f : CodedForms) (s : State) : State :=
  let b := s.budget.heads.look r.head
  if b.deferred ≠ [] then s.defer r.head i f
  else
    match affordable r.kind (s.exactOnly r.head) b.credit f with
    | some d => (s.addDemand r.head d.frameSize).charge r.head i d
    | none => s.defer r.head i f

/-- The abandonment of a deferral (R134). -/
def State.abandonDeferral (i : Fin 64) (r : Record) (s : State) : State :=
  (((s.dropDeferred r.head i).release i r).count .deferralsAbandoned).raise .deferralAbandoned

/-- The freeing of a deferred REFINE record while the override is active: no mark, no count, no event (R135). -/
def State.freeRefine (i : Fin 64) (r : Record) (s : State) : State :=
  (s.dropDeferred r.head i).freeSlot i

/-- R133 step 1 for one head: its DEFERRED REFINE records are freed. -/
def State.freeDeferredRefines (h : Fin 4) (s : State) : State :=
  ((s.budget.heads.look h).deferred).foldl (fun s i =>
    match s.slots.look i with
    | some r => if r.state = .deferred && r.kind = .refine then s.freeRefine i r else s
    | none => s) s

/-- Whether a tile lies in the pointer's neighbourhood (R133). -/
def nearTile (pc pr column row : Nat) : Bool :=
  decide (pc ≤ column + 1) && decide (column ≤ pc + 1) && decide (pr ≤ row + 1) && decide (row ≤ pr + 1)

/-- Whether the record in a slot lies in the pointer's neighbourhood. -/
def State.slotNear (pc pr : Nat) (i : Fin 64) (s : State) : Bool :=
  match s.slots.look i with
  | some r => nearTile pc pr r.column r.row
  | none => false

/-- The order in which a head's deferred records are tried (R133 step 2). -/
def State.tryOrder (h : Fin 4) (s : State) : List (Fin 64) :=
  let l := (s.budget.heads.look h).deferred
  match s.budget.overrideActive, s.pointerTile with
  | true, some (ph, pc, pr) =>
    if ph = h then
      l.filter (fun i => s.slotNear pc pr i) ++ l.filter (fun i => !(s.slotNear pc pr i))
    else l
  | _, _ => l

/-- The trials of R133 step 3: each record charged in turn, until one is not. -/
def State.tryDeferred (h : Fin 4) (order : List (Fin 64)) (s : State) : State :=
  match order with
  | [] => s
  | i :: rest =>
    match s.slots.look i with
    | some r =>
      match r.coded with
      | some f =>
        match affordable r.kind (s.exactOnly h) (s.budget.heads.look h).credit f with
        | some d => ((s.dropDeferred h i).charge h i d).tryDeferred h rest
        | none => s
      | none => s
    | none => s

/-- One more tick of waiting for a deferred record; at 32 it is abandoned (R133 step 4, R134). -/
def State.ageDeferred (i : Fin 64) (s : State) : State :=
  match s.slots.look i with
  | some r =>
    let r' := { r with age := r.age + 1 }
    if 32 ≤ r'.age then s.abandonDeferral i r' else s.updRecord i fun _ => r'
  | none => s

/-- Re-evaluation of one head's deferral list (R133). -/
def State.reevaluate (h : Fin 4) (s : State) : State :=
  let s := if s.budget.overrideActive then s.freeDeferredRefines h else s
  let s := s.tryDeferred h (s.tryOrder h)
  ((s.budget.heads.look h).deferred).foldl (fun s i => s.ageDeferred i) s

/-! ### The interaction override (R136) -/

/-- The kinds of interaction event (R136). -/
inductive Interaction where
  | keyChange
  | motion
  | buttonChange
  deriving DecidableEq, Repr

/-- Whether the override is enabled for a kind (R136). -/
def Settings.enables (t : Settings) (k : Interaction) : Bool :=
  match k with
  | .keyChange => t.keyEnable
  | .motion => t.motionEnable
  | .buttonChange => t.buttonEnable

/-- An interaction event: with its kind enabled the override is active and the hold timer restarted (R136). -/
def State.interact (k : Interaction) (s : State) : State :=
  if s.link.current.enables k then
    { s with budget := { s.budget with
        overrideActive := true
        hold := some (s.after (s.link.current.holdMs * 1000)) } }
  else s

/-- Refinement is allowed for a head (R90). -/
def State.refineAllowed (h : Fin 4) (s : State) : Bool :=
  let b := s.budget.heads.look h
  (s.link.current.heads.look h).refine && !s.budget.overrideActive && decide (b.cap ≤ b.credit * 2)

end Sys2Proof.Machine
end

