-- ==== Sys2Proof/Machine/Coder.lean ====
section
/-! DEFINITION. The Tile Coder (chapter 6): pixels and the quantiser (R102 to R105), the tokeniser (R106 to
R109), sizes (R110), the encoder (R111 to R115) and the meaning of ENCODE_COMPLETION. -/

namespace Sys2Proof.Machine

/-! ### Pixels (R102 to R105) -/

/-- A pixel in one code's form: the bytes it is coded as. Two pixels of a code are equal exactly when
these bytes are (R102 to R105). -/
abbrev Pixel := List Byte

/-- The quantiser of R104: a value of width `w` reduced to width `w'`. -/
def quantise (w w' v : Nat) : Nat := (v * (2 ^ w' - 1) + (2 ^ w - 1) / 2) / (2 ^ w - 1)

/-- The inverse formula with which the desk rebuilds a channel (06 "What the desk rebuilds"). -/
def rebuild (w w' q : Nat) : Nat := (q * (2 ^ w - 1) + (2 ^ w' - 1) / 2) / (2 ^ w' - 1)

/-- The exact F32 pixel of memory bytes blue, green, red (R102). -/
def exactPixel32 (b g r : Byte) : Pixel := [r, g, b]

/-- The exact F16 pixel: its two memory bytes in their order (R103). -/
def exactPixel16 (lo hi : Byte) : Pixel := [lo, hi]

/-- The reduced F32 pixel (R105). -/
def reducedPixel32 (b g r : Byte) : Pixel :=
  let q := fun v : Byte => quantise 8 4 v.toNat
  [BitVec.ofNat 8 (q r * 16 + q g), BitVec.ofNat 8 (q b * 16)]

/-- The reduced F16 pixel (R103, R105): blue in bits 0 to 4, green in 5 to 10, red in 11 to 15. -/
def reducedPixel16 (lo hi : Byte) : Pixel :=
  let v := lo.toNat + 256 * hi.toNat
  let b := v % 32
  let g := v / 32 % 64
  let r := v / 2048
  [BitVec.ofNat 8 (quantise 5 3 r * 32 + quantise 6 3 g * 4 + quantise 5 2 b)]

/-- The pixel size p of a code (06 section 6.3). -/
def pixelSize (f : PixelFormat) (c : Code) : Nat :=
  match f, c with
  | .f32, .exact => 3
  | .f16, .exact => 2
  | .f32, .reduced => 2
  | .f16, .reduced => 1

/-- The pixel at column `x` and line `l` of a record's tile, in a code's form (R102 to R105). -/
def Record.pixelAt (r : Record) (c : Code) (x l : Nat) : Pixel :=
  let mem := fun k => Buffer.read r.pixels (128 * l + k)
  match r.format, c with
  | .f32, .exact => exactPixel32 (mem (4 * x)) (mem (4 * x + 1)) (mem (4 * x + 2))
  | .f32, .reduced => reducedPixel32 (mem (4 * x)) (mem (4 * x + 1)) (mem (4 * x + 2))
  | .f16, .exact => exactPixel16 (mem (2 * x)) (mem (2 * x + 1))
  | .f16, .reduced => reducedPixel16 (mem (2 * x)) (mem (2 * x + 1))

/-- The visible pixels of the record's tile in raster order (R106). -/
def Record.pixelList (r : Record) (c : Code) : List Pixel :=
  (List.range r.th).flatMap fun l => (List.range r.tw).map fun x => r.pixelAt c x l

/-! ### The tokeniser (R106 to R109) -/

/-- A position of the tile: its pixel, and the pixel above it when it lies in row 1 or below (R106). -/
abbrev Position := Pixel × Option Pixel

/-- The positions of a tile of visible width `tw` (R106). -/
def positions (tw : Nat) (ps : List Pixel) : List Position :=
  ps.zip (List.replicate tw none ++ ps.map some)

/-- Whether a position equals the pixel above it (R107). -/
def Position.sameAsAbove (p : Position) : Bool := p.2 == some p.1

/-- a(i): the run above at the first of the positions that remain (R107). -/
def runAbove (ps : List Position) : Nat := min 64 (ps.takeWhile Position.sameAsAbove).length

/-- s(i): the run of the same pixel at the first of the positions that remain (R107). -/
def runSame (ps : List Position) : Nat :=
  match ps with
  | [] => 0
  | p :: _ => min 64 (ps.takeWhile fun q => q.1 == p.1).length

/-- Tokens (R109). -/
inductive Token where
  | literal (pixels : List Pixel)
  | same (length : Nat) (pixel : Pixel)
  | above (length : Nat)
  deriving DecidableEq, Repr

/-- How many further pixels a LITERAL takes after `taken`: it stops at 64, at the end, and before a run of
2 or more of either kind (R108 step 3). -/
def literalMore (taken : Nat) (rest : List Position) : Nat :=
  match rest with
  | [] => 0
  | p :: more =>
    if 64 ≤ taken ∨ 2 ≤ runAbove (p :: more) ∨ 2 ≤ runSame (p :: more) then 0
    else literalMore (taken + 1) more + 1

/-- The token at the first of the positions that remain, with the number of pixels it covers (R108). -/
def nextToken (p : Position) (more : List Position) : Token × Nat :=
  let a := runAbove (p :: more)
  let s := runSame (p :: more)
  if 2 ≤ a ∧ s ≤ a then (.above a, a)
  else if 2 ≤ s then (.same s p.1, s)
  else
    let m := literalMore 1 more + 1
    (.literal (((p :: more).take m).map (·.1)), m)

/-- The tokens of the positions that remain; `fuel` bounds their number (R108). -/
def tokens (fuel : Nat) (ps : List Position) : List Token :=
  match fuel, ps with
  | 0, _ => []
  | _, [] => []
  | fuel + 1, p :: more =>
    let t := nextToken p more
    t.1 :: tokens fuel ((p :: more).drop t.2)

/-- The number of positions a token covers. -/
def Token.length (t : Token) : Nat :=
  match t with
  | .literal ps => ps.length
  | .same n _ => n
  | .above n => n

/-- The token byte: bits 6 and 7 the kind code, bits 0 to 5 the length minus 1 (10 section 10.3). -/
def tokenByte (kind length : Nat) : Byte := BitVec.ofNat 8 (kind * 64 + (length - 1))

/-- The bytes of a token (R109). -/
def Token.bytes (t : Token) : List Byte :=
  match t with
  | .literal ps => tokenByte 0 ps.length :: ps.flatten
  | .same n p => tokenByte 1 n :: p
  | .above n => [tokenByte 2 n]

/-- The payload of a list of pixels (R108, R109). -/
def payloadOf (tw : Nat) (ps : List Pixel) : List Byte :=
  (tokens ps.length (positions tw ps)).flatMap Token.bytes

/-- The payload of a record in a code (R110). -/
def Record.payload (r : Record) (c : Code) : List Byte := payloadOf r.tw (r.pixelList c)

/-- Both payloads (R110). -/
def Record.codedForms (r : Record) : CodedForms :=
  { exact := r.payload .exact, reduced := r.payload .reduced }

/-- The tokens a payload spells, read in order with pixel size `p` (06 "How the desk reads a payload"; 10 section
10.3): a token byte, then the pixels its kind carries. `fuel` bounds their number; kind code 3 ends it. -/
def deskTokens (fuel p : Nat) (bytes : List Byte) : List Token :=
  match fuel, bytes with
  | 0, _ => []
  | _, [] => []
  | fuel + 1, b :: rest =>
    let n := b.toNat % 64 + 1
    match b.toNat / 64 with
    | 0 =>
      .literal ((List.range n).map fun k => (rest.drop (k * p)).take p)
        :: deskTokens fuel p (rest.drop (n * p))
    | 1 => .same n (rest.take p) :: deskTokens fuel p (rest.drop p)
    | 2 => .above n :: deskTokens fuel p rest
    | _ => []

/-- How the desk reads a payload's tokens back: pixels in raster order, an ABOVE repeating the pixel `tw`
positions earlier (06 "How the desk reads a payload"). `done` holds the pixels so far. -/
def rebuildPixels (tw : Nat) (ts : List Token) (done : List Pixel) : List Pixel :=
  match ts with
  | [] => done
  | .literal ps :: rest => rebuildPixels tw rest (done ++ ps)
  | .same n p :: rest => rebuildPixels tw rest (done ++ List.replicate n p)
  | .above n :: rest =>
    rebuildPixels tw rest
      ((List.range n).foldl (fun d _ => d ++ [d.getD (d.length - tw) []]) done)

/-! ### The encoder (R112 to R115) -/

/-- The encoder, when it is IDLE, takes the record at the head of the encode queue, which becomes
ENCODING (R113). -/
def State.startEncoder (s : State) : State :=
  match s.encoder, s.encodeQueue with
  | none, i :: rest =>
    { s with encoder := some i, encodeQueue := rest }.updRecord i fun r => { r with state := .encoding }
  | _, _ => s

/-- A record whose capture is complete joins the tail of the encode queue (R95, R112, R113). -/
def State.joinEncodeQueue (i : Fin 64) (s : State) : State :=
  { s with encodeQueue := s.encodeQueue ++ [i] }.startEncoder

/-- Steps 1 to 3 of R114 for the record the encoder holds. -/
def State.finishEncoding (i : Fin 64) (s : State) : State :=
  match s.slots.look i with
  | some r =>
    let f := r.codedForms
    if r.withdrawn then s.release i r
    else
      (s.updRecord i fun r => { r with coded := some f }).encodeDecision i { r with coded := some f } f
  | none => s

/-- ENCODE_COMPLETION (R114); an IDLE encoder completes nothing (log 21). -/
def execEncodeCompletion (s : State) : Host.Outcome State Fault Refusal :=
  match s.encoder with
  | some i => .next ({ s.finishEncoding i with encoder := none }).startEncoder
  | none => .next s

end Sys2Proof.Machine
end

