-- ==== Sys2Proof/Machine/Capture.lean ====
section
/-! DEFINITION. The Capture Unit (chapter 5): candidates (R89), allocation (R88, R91), rovers (R87), filling
(R93, R94), completion (R95), tears (R96) and band ends (R97). -/

namespace Sys2Proof.Machine

/-! ### Band start (R88 to R91) -/

/-- What a band start reads: head, shown surface, band, its surface entry and the head's rover. -/
structure BandStart where
  head : Fin 4
  surface : Fin 16
  band : Nat
  entry : Surface
  rover : Nat
  deriving DecidableEq, Repr

/-- The columns from the rover up, then from 0 up to it (R89 step 2). -/
def BandStart.columns (b : BandStart) : List Nat :=
  let n := b.entry.geometry.tileColumns
  (List.range n).filter (fun c => b.rover ≤ c) ++ (List.range n).filter (fun c => c < b.rover)

/-- Whether a tile of the band has no live record of the surface (R89). -/
def State.unserved (b : BandStart) (s : State) (column : Nat) : Bool :=
  (s.liveSlot b.surface column b.band).isNone

/-- Whether a tile of the band is stale and has no live record (R89). -/
def State.staleCandidate (b : BandStart) (s : State) (column : Nat) : Bool :=
  b.entry.isStale column b.band && s.unserved b column

/-- Step 1: the stale tiles at columns pc - 1 to pc + 1, when the override is active, the pointer's head is
this head and the band lies within one of the pointer's tile row (R89). -/
def State.neighbourCandidates (b : BandStart) (s : State) : List Nat :=
  match s.budget.overrideActive, s.pointerTile with
  | true, some (ph, pc, pr) =>
    if ph = b.head ∧ pr ≤ b.band + 1 ∧ b.band ≤ pr + 1 then
      (List.range b.entry.geometry.tileColumns).filter fun c =>
        decide (pc ≤ c + 1) && decide (c ≤ pc + 1) && s.staleCandidate b c
    else []
  | _, _ => []

/-- Step 2: the remaining stale tiles in rover order (R89). -/
def State.roverCandidates (b : BandStart) (s : State) : List Nat :=
  let near := s.neighbourCandidates b
  b.columns.filter fun c => s.staleCandidate b c && !near.contains c

/-- Step 3: when refinement is allowed, the tiles whose mark is clear and whose quality entry is REDUCED
(R89, R90). -/
def State.refineCandidates (b : BandStart) (s : State) : List Nat :=
  if s.refineAllowed b.head then
    b.columns.filter fun c =>
      !(b.entry.isStale c b.band) && s.unserved b c
        && decide ((s.heads.look b.head).qualityOf c b.band = some .reduced)
  else []

/-- A candidate: its column, its kind, and whether it came from step 2. -/
structure Candidate where
  column : Nat
  kind : RecordKind
  fromRover : Bool
  deriving DecidableEq, Repr

/-- The candidates in the order of R89. -/
def State.candidates (b : BandStart) (s : State) : List Candidate :=
  (s.neighbourCandidates b).map (fun c => { column := c, kind := .new, fromRover := false })
    ++ (s.roverCandidates b).map (fun c => { column := c, kind := .new, fromRover := true })
    ++ (s.refineCandidates b).map (fun c => { column := c, kind := .refine, fromRover := false })

/-- The FREE slots in order of their numbers (R91). -/
def State.freeSlots (s : State) : List (Fin 64) := allSlots.filter fun i => (s.slots.look i).isNone

/-- k, the number of records allocated (R91). -/
def State.allocationCount (b : BandStart) (s : State) : Nat :=
  let quota := (s.link.current.heads.look b.head).quota
  let held := s.held b.head
  if quota ≤ held then 0
  else min (s.freeSlots.length) (min (quota - held) (s.candidates b).length)

/-- A new record (R84, R91). -/
def BandStart.record (b : BandStart) (c : Candidate) : Record :=
  { head := b.head, surface := b.surface, column := c.column, row := b.band, kind := c.kind,
    state := .capturing, withdrawn := false, received := 0, pixels := [], coded := none,
    decision := none, age := 0, format := b.entry.geometry.format,
    tw := b.entry.geometry.tileWidth c.column, th := b.entry.geometry.tileHeight b.band }

/-- One allocation: the record is written and the tile's mark cleared (R51, R91). -/
def State.allocate (b : BandStart) (i : Fin 64) (c : Candidate) (s : State) : State :=
  ({ s with slots := s.slots.put i (some (b.record c)) }).clearStale b.surface c.column b.band

/-- The rover after a band start: past the last tile allocated in step 2 (R87). -/
def BandStart.nextRover (b : BandStart) (taken : List Candidate) : Nat :=
  match (taken.filter (·.fromRover)).getLast? with
  | some c => (c.column + 1) % b.entry.geometry.tileColumns
  | none => b.rover

/-- The allocation of a band start that R88 admits: the first k candidates receive the lowest-numbered FREE
slots in turn, and the rover is updated (R87, R91). -/
def State.serveBand (b : BandStart) (s : State) : State :=
  let taken := (s.candidates b).take (s.allocationCount b)
  let s' := (s.freeSlots.zip taken).foldl (fun s a => s.allocate b a.1 a.2) s
  { s' with rovers := s'.rovers.put b.head (b.nextRover taken) }

/-- A band start (R88): it allocates only when the head is SHOWING and the link is UP. -/
def State.bandStart (h : Fin 4) (band : Nat) (s : State) : State :=
  match (s.heads.look h).state, s.link.state, (s.heads.look h).shown with
  | .showing, .up, some id =>
    match s.surfaces.look id with
    | some f => s.serveBand { head := h, surface := id, band := band, entry := f, rover := s.rovers.look h }
    | none => s
  | _, _, _ => s

/-- A band end: the CAPTURING records of the head in that tile row are abandoned (R97). -/
def State.bandEnd (h : Fin 4) (band : Nat) (s : State) : State :=
  s.abandonWhere fun r => r.head == h && r.row == band

/-! ### Filling (R93 to R95) -/

/-- Fill units required on each visible line of a tile (R93). -/
def Record.lineUnits (r : Record) : Nat := (r.tw * r.format.bytesPerPixel + 7) / 8

/-- Whether every required fill unit is marked (R93, R95). -/
def Record.complete (r : Record) : Bool :=
  (List.range r.th).all fun l =>
    (List.range r.lineUnits).all fun u => r.received.getLsbD (16 * l + u)

/-- The received set with one fill unit marked. -/
def markUnit (v : BitVec 512) (line unit : Nat) : BitVec 512 :=
  v ||| (1#512 <<< (16 * line + unit))

/-- A group's bytes filled into a record at tile line `l`, from byte `off` of the tile line: visible bytes
are stored, and every fill unit the group covers is marked (R94). -/
def Record.fill (r : Record) (l off : Nat) (data : List Byte) : Record :=
  let visible := r.tw * r.format.bytesPerPixel
  let cells := (data.zipIdx off).filterMap fun d =>
    if d.2 < visible then some (128 * l + d.2, d.1) else none
  { r with
    pixels := Buffer.writeAll r.pixels cells
    received := (List.range (data.length / 8)).foldl (fun v k => markUnit v l (off / 8 + k)) r.received }

/-- A scan read used for filling: surface `id`, line `line`, byte `xb` of that line (R94, R95). -/
def State.fillRead (id : Fin 16) (line xb : Nat) (data : List Byte) (s : State) : State :=
  match s.surfaces.look id with
  | none => s
  | some f =>
    if f.geometry.lineBytes ≤ xb then s
    else
      let span := 32 * f.geometry.format.bytesPerPixel
      match s.liveSlot id (xb / span) (line / 32) with
      | none => s
      | some i =>
        match s.slots.look i with
        | none => s
        | some r =>
          if r.state = .capturing then
            let r' := r.fill (line % 32) (xb % span) data
            if r'.complete then
              (((s.updRecord i fun _ => { r' with state := .captured }).count
                .capturesCompleted).joinEncodeQueue i)
            else s.updRecord i fun _ => r'
          else s

/-! ### Tears (R96) -/

/-- A surface write tears the CAPTURING record of its tile: the slot is freed and one torn capture counted;
the write itself has set the mark (R96). -/
def State.tear (id : Fin 16) (column row : Nat) (s : State) : State :=
  match s.liveSlot id column row with
  | none => s
  | some i =>
    match s.slots.look i with
    | some r => if r.state = .capturing then (s.freeSlot i).count .capturesTorn else s
    | none => s

end Sys2Proof.Machine
end

