-- ==== Sys2Proof/Machine/Scan.lean ====
section
/-! DEFINITION. The Scan Follower (chapter 4): classification of observed reads (R69 to R71, R75, R77), frame
starts and flips (R72 to R74), band ends and starts (R76), the stall timer (R79, R80), and the meanings of
OBSERVED_READ and STALL_TIMER_EXPIRY. -/

namespace Sys2Proof.Machine

/-- The stall timer's duration from the frame period (R79). -/
def stallDuration (period : Nat) : Nat := if period = 0 then 200000 else max (4 * period) 50000

/-- The stall timer is restarted (R79). -/
def State.restartStall (h : Fin 4) (s : State) : State :=
  s.updScan h fun c => { c with stall := some (s.after (stallDuration c.period)) }

/-- The follower of a head goes to SEEK with cursor line 0 (R68, R80, R82). -/
def Scan.toSeek (c : Scan) : Scan := { c with mode := .seek, cursor := 0 }

/-- Every head that is not OFF has its follower sent to SEEK (R20, R82). -/
def State.allToSeek (s : State) : State :=
  s.forHeads fun h s => if s.isOn h then s.updScan h Scan.toSeek else s

/-- The frame period after a frame start at `now` (R72 step 1). -/
def Scan.measured (c : Scan) (now : Time) : Nat :=
  match c.lastStart with
  | some t =>
    let d := (now - t).toNat
    if 1000 ≤ d ∧ d ≤ 100000 then d else 0
  | none => c.period

/-- Step 3 of a frame start on surface `id` (R73): the state of the head and its shown surface. -/
def State.frameStartHead (h : Fin 4) (id : Fin 16) (s : State) : State :=
  let s :=
    match (s.heads.look h).shown with
    | some old => if old = id then s else s.withdrawSurface old
    | none => s
  s.updHead h fun d => { d with state := .showing, shown := some id }

/-- A frame start of head `h` on surface `id`; the read is passed on as a scan read of line 0 (R72 to R74). -/
def State.frameStart (h : Fin 4) (id : Fin 16) (xb : Nat) (data : List Byte) (s : State) : State :=
  let c := s.scans.look h
  let period := c.measured s.budget.now
  let changed := decide ((c.period = 0) ≠ (period = 0))
  let shows := decide ((s.heads.look h).state ≠ .showing)
  let s := s.updScan h fun c => { c with period := period, lastStart := some s.budget.now }
  let s := s.abandonWhere fun r => r.head == h
  let s := s.frameStartHead h id
  let s := if shows || changed then s.offerHead h else s
  let s := s.updScan h fun c =>
    { c with mode := .track, cursor := 0, frameCount := saturatingAdd c.frameCount 1 }
  let s := s.bandStart h 0
  let s := s.fillRead id 0 xb data
  s.restartStall h

/-- A scan read at line `line` of the shown surface `id`, at or past the cursor (R75, R76). -/
def State.scanRead (h : Fin 4) (id : Fin 16) (line xb : Nat) (data : List Byte) (s : State) : State :=
  let cursor := (s.scans.look h).cursor
  let s :=
    if cursor / 32 < line / 32 then
      let s := s.bandEnd h (cursor / 32)
      if line % 32 = 0 then s.bandStart h (line / 32) else s
    else s
  let s := s.updScan h fun c => { c with cursor := line }
  s.fillRead id line xb data

/-- What an observed read is to a follower (R70). -/
inductive ReadClass where
  | frameStart
  | scanRead
  | strayRead
  deriving DecidableEq, Repr

/-- The classification of a read of surface `id` at line `line` (R71, R75, R77). -/
def classifyRead (c : Scan) (shown : Option (Fin 16)) (id : Fin 16) (line : Nat) : ReadClass :=
  match c.mode with
  | .track =>
    if line = 0 ∧ 1 ≤ c.cursor then .frameStart
    else if shown = some id ∧ c.cursor ≤ line then .scanRead
    else .strayRead
  | .seek => if line = 0 then .frameStart else .strayRead
  | .none => .strayRead

/-- The declared surface whose range contains a channel address (R46, R69). -/
def State.surfaceAt (a : Nat) (s : State) : Option (Fin 16) :=
  (List.finRange 16).find? fun id =>
    match s.surfaces.look id with
    | some f => f.contains a
    | none => false

/-- An observed read is handled by the follower of the head that owns its surface; a read in no declared
surface, or of a surface without an owning head, is not scan business (R69, R70). -/
def State.takeRead (g : Nat) (data : List Byte) (s : State) : State :=
  match s.surfaceAt g with
  | none => s
  | some id =>
    match s.surfaces.look id with
    | none => s
    | some f =>
      match f.owner with
      | none => s
      | some h =>
        let line := (g - f.base) / f.pitch
        let xb := (g - f.base) % f.pitch
        match classifyRead (s.scans.look h) (s.heads.look h).shown id line with
        | .frameStart => (s.frameStart h id xb data).sendDecision
        | .scanRead => s.scanRead h id line xb data
        | .strayRead => s.count .strayReads

/-- OBSERVED_READ (R24 to R26): of the read bursts that still owe a record, the one the command names completes, be it
the oldest or, after a MODE SET that lowered the read latency, a later one (R7); its beats are re-ordered into
ascending columns and delivered to the Scan Follower. At a place without a burst nothing completes (log 6). -/
def execObservedRead (v : ReadCompletion) (s : State) : Host.Outcome State Fault Refusal :=
  match s.channel.readBursts[v.burst]? with
  | none => .next s
  | some b =>
    let s' := { s with channel := { s.channel with readBursts := s.channel.readBursts.eraseIdx v.burst } }
    if s.channel.following = .following then
      .next (s'.takeRead b.address (reorderedBytes s.straps.beatBytes b v.beats))
    else .next s'

/-- The stall of a SHOWING head (R80). -/
def State.stallHead (h : Fin 4) (s : State) : State :=
  let s := s.abandonWhere fun r => r.head == h
  let s := s.updScan h fun c => { c.toSeek with lastStart := none, stall := none }
  let s := s.updHead h fun d => { d with state := .stalled }
  ((s.offerHead h).raise .headStalled).sendDecision

/-- STALL_TIMER_EXPIRY (R80): a WAITING head restarts its timer, a SHOWING head becomes STALLED; a stopped
timer does not expire (log 2). -/
def execStallTimerExpiry (h : Fin 4) (s : State) : Host.Outcome State Fault Refusal :=
  match (s.scans.look h).stall with
  | none => .next s
  | some t =>
    let s := s.reachTime t
    match (s.heads.look h).state with
    | .waiting => .next (s.restartStall h)
    | .showing => .next (s.stallHead h)
    | _ => .next s

end Sys2Proof.Machine
end

