-- ==== Sys2Proof/Machine/Announce.lean ====
section
/-! DEFINITION. The Announcement Decoder (R27 to R32), the descriptors (R35 to R45, R167, TABLE 44), the mapping of
an observed write onto a tile (R46 to R48) and the meaning of OBSERVED_WRITE. -/

namespace Sys2Proof.Machine

/-! ### Descriptor slots (R28 to R30) -/

/-- An observed write assembled into a slot: `off` is the write's offset within the slot (R28). -/
def DescriptorSlot.assemble (d : DescriptorSlot) (off : Nat) (bytes : List (Nat × Byte)) :
    DescriptorSlot :=
  { d with
    bytes := Buffer.writeAll d.bytes (bytes.map fun b => (off + b.1, b.2))
    seen := bytes.foldl (fun v b => v ||| (1#64 <<< (off + b.1))) d.seen }

/-- A descriptor byte. -/
def DescriptorSlot.byte (d : DescriptorSlot) (n : Nat) : Byte := Buffer.read d.bytes n

/-- A little-endian descriptor field of `n` bytes from byte `a` (R167). -/
def DescriptorSlot.field (d : DescriptorSlot) (a n : Nat) : Nat := Buffer.field d.bytes a n

/-- The required bytes, by the assembled byte 0 and for HEAD byte 5 (R30, TABLE 11). -/
def DescriptorSlot.required (d : DescriptorSlot) : List Nat :=
  match (d.byte 0).toNat with
  | 1 => [0, 1] ++ (List.range 20).map (· + 4)
  | 2 =>
    let n := (d.byte 5).toNat
    [0, 1, 4, 5] ++ (if 1 ≤ n ∧ n ≤ 3 then (List.range n).map (· + 6) else [])
  | 3 => [0, 1, 4]
  | 4 => [0, 1, 4]
  | _ => [0, 1]

/-- Whether the commit is complete (R30). -/
def DescriptorSlot.complete (d : DescriptorSlot) : Bool :=
  decide (d.byte 1 = d.byte 56) && decide (d.byte 1 ≠ 0) && d.required.all fun n => d.seen.getLsbD n

/-! ### SURFACE descriptors (R35 to R40) -/

/-- The fields of a SURFACE descriptor (TABLE 44). -/
structure SurfaceFields where
  id : Nat
  format : Nat
  width : Nat
  height : Nat
  pitch : Nat
  base : Nat
  deriving DecidableEq, Repr

/-- A SURFACE descriptor's fields as read (R167, TABLE 44). -/
def DescriptorSlot.surfaceFields (d : DescriptorSlot) : SurfaceFields :=
  { id := (d.byte 4).toNat, format := (d.byte 5).toNat, width := d.field 6 2, height := d.field 8 2,
    pitch := d.field 12 4, base := d.field 16 8 }

/-- The format code of a SURFACE descriptor (R35 check 3). -/
def formatOf (code : Nat) : Option PixelFormat :=
  match code with
  | 1 => some .f32
  | 2 => some .f16
  | _ => none

/-- The entry a SURFACE descriptor asks for, when R35's checks pass; every failure is BAD_VALUE (R35). -/
def SurfaceFields.checked (f : SurfaceFields) (p : Straps) : Option (Fin 16 × Surface) :=
  if hid : f.id < 16 then
    if 64 ≤ f.width ∧ f.width ≤ 4096 ∧ 32 ≤ f.height ∧ f.height ≤ 2304 then
      match formatOf f.format with
      | none => none
      | some fmt =>
        if f.width * fmt.bytesPerPixel ≤ f.pitch ∧ f.pitch % 64 = 0 ∧ f.pitch ≤ 65536 then
          if f.base % 256 = 0 ∧ f.base + f.pitch * f.height ≤ p.channelSize then
            some (⟨f.id, hid⟩,
              { base := f.base, pitch := f.pitch,
                geometry := { width := f.width, height := f.height, format := fmt },
                owner := none, stale := [] })
          else none
        else none
    else none
  else none

/-- Whether two ranges of channel addresses share a byte. -/
def rangesMeet (lo hi lo' hi' : Nat) : Bool := decide (lo < hi') && decide (lo' < hi)

/-- R36: a byte of the range lies in another declared surface or in the announcement area. -/
def State.overlaps (id : Fin 16) (f : Surface) (s : State) : Bool :=
  rangesMeet f.base f.limit s.straps.areaBase (s.straps.areaBase + areaSize) ||
    (List.finRange 16).any fun j =>
      match s.surfaces.look j with
      | some g => decide (j ≠ id) && rangesMeet f.base f.limit g.base g.limit
      | none => false

/-- R37: the tiles of all DECLARED entries as they would stand after the take. -/
def State.tilesAfter (id : Fin 16) (f : Surface) (s : State) : Nat :=
  f.geometry.tileCount +
    (((List.finRange 16).filter (· ≠ id)).map fun j =>
      match s.surfaces.look j with
      | some g => g.geometry.tileCount
      | none => 0).sum

/-- R38: the id is DECLARED, belongs to a flip set of more than one surface, and its geometry differs from
that of another surface of that flip set. -/
def State.mismatches (id : Fin 16) (f : Surface) (s : State) : Bool :=
  match s.surfaces.look id with
  | none => false
  | some old =>
    match old.owner with
    | none => false
    | some h =>
      ((s.heads.look h).flipSet.filter (· ≠ id)).any fun j =>
        match s.surfaces.look j with
        | some g => decide (g.geometry ≠ f.geometry)
        | none => false

/-- The first check that a SURFACE descriptor fails, in the order of R35 to R38. -/
def State.checkSurface (d : DescriptorSlot) (s : State) : CommitOutcome :=
  match d.surfaceFields.checked s.straps with
  | none => .badValue
  | some (id, f) =>
    if s.overlaps id f then .overlap
    else if 98304 < s.tilesAfter id f then .capacity
    else if s.mismatches id f then .mismatch
    else .taken

/-- R40 step 4: the shown surface of head `h` was redeclared. -/
def State.loseShown (h : Fin 4) (s : State) : State :=
  let s := s.updHead h fun d => { d with state := .waiting, shown := none }
  let s := s.updScan h fun c => { c.toSeek with lastStart := none }
  (s.restartStall h).offerHead h

/-- R40 step 5: the geometry of head `h` takes the new values; the quality map is made again and the rover
is 0 (R87). `queued` says that step 4 has queued a HEAD frame. -/
def State.regrow (h : Fin 4) (g : Geometry) (queued : Bool) (s : State) : State :=
  let s := s.updHead h fun d => { d with geometry := some g }.allExact
  let s := { s with rovers := s.rovers.put h 0 }
  if queued then s else s.offerHead h

/-- A taken SURFACE descriptor whose id is EMPTY (R39). -/
def State.declare (id : Fin 16) (f : Surface) (s : State) : State :=
  { s with surfaces := s.surfaces.put id (some f.markWhole) }

/-- A taken SURFACE descriptor whose id is DECLARED, in the order of R40. -/
def State.redeclare (id : Fin 16) (old f : Surface) (s : State) : State :=
  let s := s.withdrawSurface id
  let s := s.declare id { f with owner := old.owner }
  match old.owner with
  | none => s
  | some h =>
    let shown := decide ((s.heads.look h).shown = some id)
    let s := if shown then s.loseShown h else s
    if f.geometry ≠ old.geometry then s.regrow h f.geometry shown else s

/-- A taken SURFACE descriptor (R39, R40). -/
def State.takeSurface (d : DescriptorSlot) (s : State) : State :=
  match d.surfaceFields.checked s.straps with
  | none => s
  | some (id, f) =>
    match s.surfaces.look id with
    | none => s.declare id f
    | some old => s.redeclare id old f

/-! ### HEAD descriptors (R42, R43) -/

/-- The head, and the ids 1 to n, that a HEAD descriptor names, when each is in range (R42 check 1). -/
def DescriptorSlot.headFields (d : DescriptorSlot) : Option (Fin 4 × List (Fin 16)) :=
  let n := (d.byte 5).toNat
  match headOf (d.byte 4) with
  | none => none
  | some h =>
    if 1 ≤ n ∧ n ≤ 3 then
      let ids := (List.range n).filterMap fun k =>
        if hk : (d.byte (6 + k)).toNat < 16 then some (⟨(d.byte (6 + k)).toNat, hk⟩ : Fin 16) else none
      if ids.length = n then some (h, ids) else none
    else none

/-- The declared surfaces of a list of ids. -/
def State.entriesOf (ids : List (Fin 16)) (s : State) : List Surface :=
  ids.filterMap fun id => s.surfaces.look id

/-- The first check that a HEAD descriptor fails, in the order of R42. -/
def State.checkHead (d : DescriptorSlot) (s : State) : CommitOutcome :=
  match d.headFields with
  | none => .badValue
  | some (h, ids) =>
    let es := s.entriesOf ids
    if es.length ≠ ids.length then .noSurface
    else if ¬ ids.Nodup then .badValue
    else if es.any (fun e => es.any fun e' => decide (e.geometry ≠ e'.geometry)) then .mismatch
    else if es.any (fun e => decide (e.owner ≠ none ∧ e.owner ≠ some h)) then .inUse
    else .taken

/-- Every surface of a list gets an owning head, or none (R43, R45). -/
def State.setOwners (ids : List (Fin 16)) (o : Option (Fin 4)) (s : State) : State :=
  ids.foldl (fun s id => s.updSurface id fun f => { f with owner := o }) s

/-- The follower after a taken HEAD descriptor (TABLE 19). -/
def Scan.defined (c : Scan) : Scan :=
  { c with mode := .seek, cursor := 0, lastStart := none, period := 0, frameCount := 0 }

/-- A taken HEAD descriptor for head `h`, in the order of R43 (with R68, R79, R87, R122 to R124, R129). -/
def State.defineHead (h : Fin 4) (ids : List (Fin 16)) (s : State) : State :=
  let old := (s.heads.look h).flipSet
  let wasOff := decide ((s.heads.look h).state = .off)
  let s := s.withdrawFlipSet old
  let s := (s.setOwners old none).setOwners ids (some h)
  let g := ((s.entriesOf ids).head?).map (·.geometry)
  let s := s.updHead h fun d => { d with flipSet := ids, geometry := g }
  let s := s.updHead h fun d => { d with state := .waiting, shown := none }
  let s := (s.updScan h Scan.defined).restartStall h
  let s := { s with rovers := s.rovers.put h 0 }
  let s := s.markEach ids
  let s := s.updHead h Head.allExact
  let s := s.offerHead h
  let s := if wasOff then (s.updBudget h HeadBudget.cleared).recomputeShares else s
  s.requestRecompute

/-- A taken HEAD descriptor (R43). -/
def State.takeHead (d : DescriptorSlot) (s : State) : State :=
  match d.headFields with
  | none => s
  | some (h, ids) => s.defineHead h ids

/-! ### Withdrawals (R44, R45) -/

/-- The id a WITHDRAW SURFACE descriptor names, when it is in range (R44 check 1). -/
def DescriptorSlot.surfaceId (d : DescriptorSlot) : Option (Fin 16) :=
  if h : (d.byte 4).toNat < 16 then some ⟨(d.byte 4).toNat, h⟩ else none

/-- The first check that a WITHDRAW SURFACE descriptor fails (R44). -/
def State.checkWithdrawSurface (d : DescriptorSlot) (s : State) : CommitOutcome :=
  match d.surfaceId with
  | none => .badValue
  | some id =>
    match s.surfaces.look id with
    | none => .noSurface
    | some f => if f.owner ≠ none then .inUse else .taken

/-- A taken WITHDRAW SURFACE descriptor: the entry becomes EMPTY and its stale map is discarded (R44). -/
def State.takeWithdrawSurface (d : DescriptorSlot) (s : State) : State :=
  match d.surfaceId with
  | none => s
  | some id => { s with surfaces := s.surfaces.put id none }

/-- A WITHDRAW HEAD descriptor is refused only for a head outside 0 to 3 (R45). -/
def checkWithdrawHead (d : DescriptorSlot) : CommitOutcome :=
  match headOf (d.byte 4) with
  | none => .badValue
  | some _ => .taken

/-- The follower of a withdrawn head: none, its timer stopped, the frame count kept (R68). -/
def Scan.removed (c : Scan) : Scan :=
  { c with mode := .none, cursor := 0, lastStart := none, period := 0, stall := none }

/-- A taken WITHDRAW HEAD descriptor for a head that is not OFF (R45, R68, R122 to R124, R129). -/
def State.removeHead (h : Fin 4) (s : State) : State :=
  let old := (s.heads.look h).flipSet
  let s := s.withdrawFlipSet old
  let s := s.setOwners old none
  let s := s.updHead h fun _ => Head.reset
  let s := s.updScan h Scan.removed
  let s := s.offerHead h
  let s := (s.updBudget h HeadBudget.cleared).recomputeShares
  s.requestRecompute

/-- A taken WITHDRAW HEAD descriptor (R45): when the head is OFF it changes nothing. -/
def State.takeWithdrawHead (d : DescriptorSlot) (s : State) : State :=
  match headOf (d.byte 4) with
  | none => s
  | some h => if s.isOn h then s.removeHead h else s

/-! ### Commit (R29 to R32) -/

/-- The outcome of a commit whose byte 56 differs from the last taken generation (R30, R31). -/
def State.checkCommit (d : DescriptorSlot) (s : State) : CommitOutcome :=
  if !d.complete then .incomplete
  else
    match (d.byte 0).toNat with
    | 1 => s.checkSurface d
    | 2 => s.checkHead d
    | 3 => s.checkWithdrawSurface d
    | 4 => checkWithdrawHead d
    | _ => .badKind

/-- A TAKEN descriptor applied to the tables (R31). -/
def State.applyDescriptor (d : DescriptorSlot) (s : State) : State :=
  match (d.byte 0).toNat with
  | 1 => s.takeSurface d
  | 2 => s.takeHead d
  | 3 => s.takeWithdrawSurface d
  | 4 => s.takeWithdrawHead d
  | _ => s

/-- A commit that is not ignored, concluded as R32 gives. -/
def State.conclude (i : Fin 16) (d : DescriptorSlot) (s : State) : State :=
  let o := s.checkCommit d
  let s := if o = .taken then s.applyDescriptor d else s
  let s := { s with descriptors := s.descriptors.put i { d with seen := 0, generation := d.byte 56 } }
  let s := s.offerNotice (.outcome i (d.byte 56) o)
  if o = .taken then s else s.raise .announceRefused

/-- An observed write into descriptor slot `i` at offset `off` (R28, R29). -/
def State.writeSlot (i : Fin 16) (off : Nat) (bytes : List (Nat × Byte)) (s : State) : State :=
  let d := (s.descriptors.look i).assemble off bytes
  let s := { s with descriptors := s.descriptors.put i d }
  if bytes.any (fun b => off + b.1 == 56) && decide (d.byte 56 ≠ d.generation) then
    (s.conclude i d).sendDecision
  else s

/-! ### Mapping an observed write (R46 to R48) -/

/-- The surface and tile a byte at channel address `a` maps to; padding and addresses outside every declared
surface map to none (R46). -/
def State.tileOfByte (a : Nat) (s : State) : Option (Fin 16 × Nat × Nat) :=
  match s.surfaceAt a with
  | none => none
  | some id =>
    match s.surfaces.look id with
    | none => none
    | some f =>
      let line := (a - f.base) / f.pitch
      let xb := (a - f.base) % f.pitch
      if f.geometry.lineBytes ≤ xb then none
      else some (id, xb / f.geometry.format.bytesPerPixel / 32, line / 32)

/-- A surface write (R47): the tile is marked, a CAPTURING record of it torn, and one write counted. -/
def State.surfaceWrite (id : Fin 16) (column row : Nat) (s : State) : State :=
  ((s.markStale id column row).tear id column row).count .surfaceWrites

/-- An observed write outside the announcement area (R46 to R48). -/
def State.trackWrite (g : Nat) (bytes : List (Nat × Byte)) (s : State) : State :=
  match bytes.findSome? fun b => s.tileOfByte (g + b.1) with
  | some (id, column, row) => s.surfaceWrite id column row
  | none => s

/-- An observed write goes to the Announcement Decoder or to the Change Tracker (R26, R27). -/
def State.takeWrite (g : Nat) (bytes : List (Nat × Byte)) (s : State) : State :=
  if s.straps.inArea g then
    let at0 := g - s.straps.areaBase
    s.writeSlot (Fin.ofNat 16 (at0 / 64)) (at0 % 64) bytes
  else s.trackWrite g bytes

/-- OBSERVED_WRITE (R23, R25, R26): of the write bursts that still owe a record, the one the command names completes,
be it the oldest or, after a MODE SET that lowered the write latency, a later one (R7). With no byte enabled it
produces no observed write; at a place without a burst nothing completes (log 6). -/
def execObservedWrite (w : WriteCompletion) (s : State) : Host.Outcome State Fault Refusal :=
  match s.channel.writeBursts[w.burst]? with
  | none => .next s
  | some b =>
    let s' := { s with channel := { s.channel with writeBursts := s.channel.writeBursts.eraseIdx w.burst } }
    let bytes := enabledBytes s.straps.beatBytes b.columns w.beats
    if s.channel.following = .following ∧ bytes ≠ [] then .next (s'.takeWrite b.address bytes)
    else .next s'

end Sys2Proof.Machine
end

