-- ==== Sys2Proof/Machine/BudgetCommands.lean ====
section
/-! DEFINITION. The meanings of TICK, EPOCH_END, DEFERRAL_ABANDONED and OVERRIDE_HOLD_EXPIRY (chapter 7), and what
an apply brings into force (R61, R86, R119, R150). -/

namespace Sys2Proof.Machine

/-! ### Apply (R119, R150) -/

/-- A quota lowered until the four sum to at most 64: `others` is the sum of the quotas not yet lowered and of
those already lowered (R86). -/
def lowered (quota others : Nat) : Nat := min quota (64 - others)

/-- The quotas in force: head 3's is lowered first, then head 2's, head 1's and head 0's (R86). -/
def Settings.reduceQuotas (t : Settings) : Settings :=
  let q := fun h : Fin 4 => (t.heads.look h).quota
  let q3 := lowered (q 3) (q 0 + q 1 + q 2)
  let q2 := lowered (q 2) (q 0 + q 1 + q3)
  let q1 := lowered (q 1) (q 0 + q2 + q3)
  let q0 := lowered (q 0) (q1 + q2 + q3)
  { t with heads := Table.tab fun h =>
      { t.heads.look h with quota := match h with
          | 0 => q0
          | 1 => q1
          | 2 => q2
          | 3 => q3 } }

/-- The tiles of a head's quality map that are REDUCED (R61). -/
def Head.reducedTiles (d : Head) : List (Nat × Nat) :=
  match d.geometry with
  | none => []
  | some g =>
    ((List.range g.tileRows).flatMap fun r => (List.range g.tileColumns).map fun c => (c, r)).filter
      fun t => d.qualityOf t.1 t.2 = some .reduced

/-- R61: a head that becomes exact-only has its REDUCED tiles marked in every surface of its flip set. -/
def State.markReduced (h : Fin 4) (s : State) : State :=
  let d := s.heads.look h
  d.reducedTiles.foldl (fun s t => d.flipSet.foldl (fun s id => s.markStale id t.1 t.2) s) s

/-- Whether the apply changes a head that is not OFF from not exact-only to exact-only (R61). -/
def State.becomesExactOnly (h : Fin 4) (s : State) : Bool :=
  s.isOn h && !(s.link.current.heads.look h).exactOnly && (s.link.staged.heads.look h).exactOnly

/-- Every pending setting is brought into force (R119, R150): the quotas reduced (R86), the REDUCED tiles of
heads that become exact-only marked (R61), and the STATUS pending flag set when a latched event becomes
unmasked (R150). -/
def State.applySettings (s : State) : State :=
  let becoming := allHeads.filter fun h => s.becomesExactOnly h
  let unmasked := s.link.latches &&& s.link.current.mask &&& ~~~s.link.staged.mask
  let s := { s with link := { s.link with
    current := s.link.staged.reduceQuotas
    applyRequest := false
    statusPending := s.link.statusPending || decide (unmasked ≠ 0) } }
  becoming.foldl (fun s h => s.markReduced h) s

/-! ### The tick (R117, R118, R153) -/

/-- Steps 1 to 4 of R118: apply, demand, shares, refill. -/
def State.tickBudget (s : State) : State :=
  let applied := s.link.applyRequest
  let s := if applied then s.applySettings else s
  let ends := decide (16 ≤ s.budget.epochTicks)
  let s := if ends then s.formDemands else s
  let s := if ends || applied || s.budget.recompute then s.recomputeShares else s
  let s := { s with budget := { s.budget with recompute := false } }
  s.refill

/-- A tick: the timer is set 1,000 µs on, the epoch's tick count increases (R117), then the steps of R118 in
order, the heads re-evaluated in order of their numbers (log 11), and the STATUS test of R153 (log 12) with the
send decision that a STATUS frame offered to an empty FIFO calls for (R145). -/
def State.takeTick (s : State) : State :=
  let s := s.reachTime s.budget.tickAt
  let s := { s with budget := { s.budget with
    tickAt := s.budget.tickAt + 1000
    epochTicks := s.budget.epochTicks + 1 } }
  let s := s.tickBudget
  let s := s.forHeads fun h s => s.reevaluate h
  s.statusTest.sendDecision

/-- TICK (R118). -/
def execTick (s : State) : Host.Outcome State Fault Refusal := .next s.takeTick

/-- EPOCH_END standing alone: the count returns to 0, the demands are formed and the shares recomputed, and
the recompute request is cleared (R117, R118 steps 2 and 3, R123, R124; log 3). TICK does the same inside
itself when its epoch ends. -/
def execEpochEnd (s : State) : Host.Outcome State Fault Refusal :=
  let s := s.formDemands.recomputeShares
  .next { s with budget := { s.budget with recompute := false } }

/-- DEFERRAL_ABANDONED standing alone: the DEFERRED record in the slot is abandoned (R134; log 4). TICK does
the same inside itself for each record whose age reaches 32. -/
def execDeferralAbandoned (slot : Fin 64) (s : State) : Host.Outcome State Fault Refusal :=
  match s.slots.look slot with
  | some r => if r.state = .deferred then .next (s.abandonDeferral slot r) else .next s
  | none => .next s

/-- OVERRIDE_HOLD_EXPIRY: the override becomes inactive and its timer stops (R136); a stopped timer does not
expire (log 2). -/
def execOverrideHoldExpiry (s : State) : Host.Outcome State Fault Refusal :=
  match s.budget.hold with
  | none => .next s
  | some t =>
    let s := s.reachTime t
    .next { s with budget := { s.budget with overrideActive := false, hold := none } }

end Sys2Proof.Machine
end

