-- ==== Sys2Proof/Machine/LinkCommands.lean ====
section
/-! DEFINITION. The Desk Link's commands (chapter 8): link states (R139 to R141), FRAME_END with send completion
(R53, R54, R146), settings (R149, R150, R169), READ (R151), CLEAR (R153), RESYNC (R59) and bad frames (R147). -/

namespace Sys2Proof.Machine

/-! ### Link states (R139 to R141) -/

/-- Link UP marking (R60). -/
def State.linkUpMarking (s : State) : State :=
  s.forHeads fun h s =>
    if s.isOn h then (s.markEach (s.heads.look h).flipSet).updHead h Head.allExact else s

/-- The link enters UP, in the order of R141. -/
def State.enterUp (s : State) : State :=
  let s := { s with link := { s.link with state := .up, aligningAt := none, helloAt := none } }
  let s := { s with link := { s.link with control := s.link.control.filter fun f => !f.isHello } }
  let s := s.linkUpMarking
  let s := s.forHeads fun h s => s.offerHead h
  let s := if s.link.reportable ≠ 0 then s.offerStatus else s
  let s := { s with link := { s.link with statusPending := false } }
  let s := s.offerLamp s.relay.lamps
  let s := s.offerNotice (.link true)
  s.sendDecision

/-- The number of ANSWER frames queued or on the wire (R140 step 2). -/
def Link.answersHeld (l : Link) : Nat :=
  l.control.countP ControlFrame.isAnswer
    + match l.wire with
      | .control f => if f.isAnswer then 1 else 0
      | _ => 0

/-- The link leaves UP for DOWN, in the order of R140. -/
def State.leaveUp (s : State) : State :=
  let s := s.withdrawAtLinkLoss
  let s := s.countBy .answersDropped s.link.answersHeld
  let s := { s with link := { s.link with state := .down, control := [], wire := .idle } }
  s.releaseHeld

/-- ALIGNING is left for DOWN: both timers stop, the control FIFO is emptied and the wire is idle (R139). -/
def State.leaveAligning (s : State) : State :=
  { s with link := { s.link with
      state := .down, aligningAt := none, helloAt := none, control := [], wire := .idle } }

/-- LANES_ALIGNED (R139): every lane has acquired alignment; from DOWN the link enters ALIGNING, a HELLO is
queued and both timers start; in ALIGNING and UP every lane is aligned already (log 21). -/
def execLanesAligned (s : State) : Host.Outcome State Fault Refusal :=
  match s.link.state with
  | .down =>
    let s := { s with link := { s.link with
      state := .aligning
      aligned := Table.tab fun l => decide (l.1 < s.straps.laneCount)
      helloAt := some (s.after 10000)
      aligningAt := some (s.after 500000) } }
    .next s.offerHello.sendDecision
  | _ => .next s

/-- LANE_ALIGNMENT_LOST (R139, R140): a lane the straps do not have loses nothing. -/
def execLaneAlignmentLost (lane : Fin 2) (s : State) : Host.Outcome State Fault Refusal :=
  if lane.1 < s.straps.laneCount then
    let s := { s with link := { s.link with aligned := s.link.aligned.put lane false } }
    match s.link.state with
    | .down => .next s
    | .aligning => .next s.leaveAligning
    | .up => .next s.leaveUp
  else .next s

/-- HELLO_REPEAT_TIMER_EXPIRY (R139): in ALIGNING a HELLO is queued unless one waits, and the timer restarts. -/
def execHelloRepeatTimerExpiry (s : State) : Host.Outcome State Fault Refusal :=
  match s.link.state, s.link.helloAt with
  | .aligning, some t =>
    let s := s.reachTime t
    let s := s.offerHello
    .next ({ s with link := { s.link with helloAt := some (s.after 10000) } }).sendDecision
  | _, _ => .next s

/-- ALIGNING_TIMER_EXPIRY (R139): the link goes DOWN and every lane gives up its alignment and begins acquisition
again. -/
def execAligningTimerExpiry (s : State) : Host.Outcome State Fault Refusal :=
  match s.link.state, s.link.aligningAt with
  | .aligning, some t =>
    let s := (s.reachTime t).leaveAligning
    .next { s with link := { s.link with
      acquired := Table.const false
      arriving := none
      aligned := Table.const false } }
  | _, _ => .next s

/-- HELLO (R139): discarded in DOWN; in ALIGNING version 1 brings the link UP and any other version is
counted; no effect in UP. -/
def execHello (version : Byte) (s : State) : Host.Outcome State Fault Refusal :=
  match s.link.state with
  | .down => .next s
  | .aligning => if version = 1 then .next s.enterUp else .next (s.count .upstreamDiscarded)
  | .up => .next s

/-! ### The end of a frame (R53, R54, R146) -/

/-- Send completion of the record in a slot (R53, R54), with the tables as they stand (R66). -/
def State.sendCompletion (i : Fin 64) (r : Record) (c : Code) (s : State) : State :=
  let s := s.updHead r.head fun d => d.withQuality r.column r.row c
  let set := (s.heads.look r.head).flipSet
  let s :=
    if set.contains r.surface then
      let s := (set.filter (· ≠ r.surface)).foldl (fun s id => s.markStale id r.column r.row) s
      if c = .reduced ∧ s.exactOnly r.head then s.markStale r.surface r.column r.row else s
    else s
  s.freeSlot i

/-- The counters of a tile frame that reaches its end (R146). -/
def State.countTile (d : Decision) (s : State) : State :=
  (s.count (match d.code with
    | .exact => .tilesExact
    | .reduced => .tilesReduced)).countBy .tileBytes d.frameSize

/-- What the end of the frame on the wire does, by its kind (R146). -/
def State.endFrame (s : State) : State :=
  match s.link.wire with
  | .tile i =>
    match s.slots.look i with
    | some r =>
      match r.decision with
      | some d => (s.sendCompletion i r d.code).countTile d
      | none => s
    | none => s
  | _ => s

/-- FRAME_END (R145, R146): the frame ends, the wire is idle and the next send decision is taken; an idle wire
ends no frame (log 21). -/
def execFrameEnd (s : State) : Host.Outcome State Fault Refusal :=
  match s.link.wire with
  | .idle => .next s
  | _ =>
    let s := s.endFrame
    .next ({ s with link := { s.link with wire := .idle } }).sendDecision

/-! ### Settings (R149, R150, R169) -/

/-- A number limited to a range (TABLE 37). -/
def clampTo (lo hi v : Nat) : Nat := max lo (min hi v)

/-- A class code (TABLE 48). -/
def classOf (v : Nat) : Option HeadClass :=
  match v with
  | 0 => some .critical
  | 1 => some .high
  | 2 => some .normal
  | _ => none

/-- An on or off code (TABLE 48). -/
def onOff (v : Nat) : Option Bool :=
  match v with
  | 0 => some false
  | 1 => some true
  | _ => none

/-- Coordinate number `k` of a SET rectangle, clamped to 32,767 (R169, TABLE 48). -/
def rectangleCoordinate (v : BitVec 64) (k : Nat) : Nat := min 32767 (v.extractLsb' (16 * k) 16).toNat

/-- A SET rectangle; x0 ≥ x1 or y0 ≥ y1 is stored as none (R149, R169). -/
def rectangleOf (v : BitVec 64) : Option Desktop :=
  let d : Desktop :=
    { x0 := rectangleCoordinate v 0, y0 := rectangleCoordinate v 1, x1 := rectangleCoordinate v 2,
      y1 := rectangleCoordinate v 3 }
  if d.x0 < d.x1 ∧ d.y0 < d.y1 then some d else none

/-- A per-head setting written with a value; none when the value is refused (TABLE 37, TABLE 48). -/
def HeadSettings.written (t : HeadSettings) (id : Nat) (value : BitVec 64) : Option HeadSettings :=
  match id with
  | 0x03 => (classOf value.toNat).map fun c => { t with cls := c }
  | 0x04 => some { t with weight := clampTo 1 15 value.toNat }
  | 0x05 => some { t with quota := min 64 value.toNat }
  | 0x06 => (onOff value.toNat).map fun b => { t with exactOnly := b }
  | 0x07 => (onOff value.toNat).map fun b => { t with refine := b }
  | 0x08 => some { t with desktop := rectangleOf value }
  | _ => none

/-- A pending setting written by a SET; none when the SET is refused (R149, R169). `capacity` is the upper
end of the link budget's range (R120). -/
def Settings.written (t : Settings) (capacity : Nat) (setting head : Byte) (value : BitVec 64) :
    Option Settings :=
  match setting.toNat with
  | 0x01 => some { t with budget := clampTo 10000 capacity value.toNat }
  | 0x02 =>
    match value.toNat with
    | 0 => some { t with mode := .static }
    | 1 => some { t with mode := .dynamic }
    | _ => none
  | 0x09 => some { t with holdMs := clampTo 10 2000 value.toNat }
  | 0x0A => some { t with
      keyEnable := value.getLsbD 0, motionEnable := value.getLsbD 1, buttonEnable := value.getLsbD 2 }
  | 0x0B => some { t with mask := value.extractLsb' 0 10 }
  | id =>
    match headOf head with
    | none => none
    | some h => ((t.heads.look h).written id value).map fun d => { t with heads := t.heads.put h d }

/-- A frame that counts on upstream frames discarded and raises UPSTREAM_CHECK (R147, R149). -/
def State.discardUpstream (s : State) : State := (s.count .upstreamDiscarded).raise .upstreamCheck

/-- SET (R149); while the link is not UP the frame is discarded without a count (R147). -/
def execSet (setting head : Byte) (value : BitVec 64) (s : State) : Host.Outcome State Fault Refusal :=
  match s.link.state with
  | .up =>
    match s.link.staged.written s.straps.capacity setting head value with
    | some t => .next { s with link := { s.link with staged := t } }
    | none => .next s.discardUpstream
  | _ => .next s

/-- APPLY (R150): the apply request is set; discarded while the link is not UP (R147). -/
def execApply (s : State) : Host.Outcome State Fault Refusal :=
  match s.link.state with
  | .up => .next { s with link := { s.link with applyRequest := true } }
  | _ => .next s

/-! ### READ (R151, R169, R170) -/

/-- The value of a rectangle: four coordinates, zero when there is none (R170, TABLE 48). -/
def rectangleValue (d : Option Desktop) : Nat :=
  match d with
  | some d => d.x0 + 65536 * d.y0 + 4294967296 * d.x1 + 281474976710656 * d.y1
  | none => 0

/-- The value of a per-head setting (TABLE 48). -/
def HeadSettings.value (t : HeadSettings) (id : Nat) : Option Nat :=
  match id with
  | 0x03 => some (match t.cls with
      | .critical => 0
      | .high => 1
      | .normal => 2)
  | 0x04 => some t.weight
  | 0x05 => some t.quota
  | 0x06 => some t.exactOnly.toNat
  | 0x07 => some t.refine.toNat
  | 0x08 => some (rectangleValue t.desktop)
  | _ => none

/-- The value of a setting (TABLE 48); none when the item is no setting or the head is above 3. -/
def Settings.value (t : Settings) (item : Nat) (head : Byte) : Option Nat :=
  match item with
  | 0x01 => some t.budget
  | 0x02 => some (match t.mode with
      | .static => 0
      | .dynamic => 1)
  | 0x09 => some t.holdMs
  | 0x0A => some (t.keyEnable.toNat + 2 * t.motionEnable.toNat + 4 * t.buttonEnable.toNat)
  | 0x0B => some t.mask.toNat
  | id =>
    match headOf head with
    | none => none
    | some h => (t.heads.look h).value id

/-- The value of a READ item (R151, TABLE 48); `fromPending` selects a setting's pending value. -/
def State.itemValue (item head : Byte) (fromPending : Bool) (s : State) : Option Nat :=
  if item.toNat < 0x20 then (if fromPending then s.link.staged else s.link.current).value item.toNat head
  else if item.toNat = 0x30 then (headOf head).map fun h => (s.scans.look h).frameCount.toNat
  else if item.toNat = 0x40 then some s.link.latches.toNat
  else (Counter.ofIndex (item.toNat - 0x20)).map fun k => (s.counters.value k).toNat

/-- The clear option: a counter or a frame count is set to 0; other items are left (R78, R151). -/
def State.clearItem (item head : Byte) (s : State) : State :=
  if item.toNat = 0x30 then
    match headOf head with
    | some h => s.updScan h fun c => { c with frameCount := 0 }
    | none => s
  else if 0x20 ≤ item.toNat then
    match Counter.ofIndex (item.toNat - 0x20) with
    | some k => { s with counters := s.counters.store k 0 }
    | none => s
  else s

/-- READ (R151): the value is taken and the clear done, and the ANSWER offered; an unknown item answers
UNKNOWN with value 0; discarded while the link is not UP (R147). A READ that clears the ANSWERs dropped counter
and whose own ANSWER is dropped clears first and then counts the drop (DESIGN CHOICE, log 29). -/
def execReadRequest (id : BitVec 16) (item head flags : Byte) (s : State) :
    Host.Outcome State Fault Refusal :=
  match s.link.state with
  | .up =>
    let v := s.itemValue item head (flags.getLsbD 0)
    let s := if flags.getLsbD 1 then s.clearItem item head else s
    .next (s.offerAnswer id v.isSome (BitVec.ofNat 64 (v.getD 0))).sendDecision
  | _ => .next s

/-! ### CLEAR, RESYNC and bad frames -/

/-- CLEAR (R153): the named latches are cleared, and nothing else; discarded while the link is not UP (R147). -/
def execClear (events : BitVec 16) (s : State) : Host.Outcome State Fault Refusal :=
  match s.link.state with
  | .up => .next { s with link := { s.link with latches := s.link.latches &&& ~~~(eventSet events) } }
  | _ => .next s

/-- RESYNC (R59): a head that is not OFF has every surface of its flip set marked whole and its quality map
EXACT; an OFF head or a number above 3 changes no map; discarded while the link is not UP (R147). -/
def execResync (head : Byte) (s : State) : Host.Outcome State Fault Refusal :=
  match s.link.state, headOf head with
  | .up, some h =>
    if s.isOn h then .next ((s.markEach (s.heads.look h).flipSet).updHead h Head.allExact) else .next s
  | _, _ => .next s

/-- BAD_UPSTREAM_FRAME (R147): discarded, counted, and UPSTREAM_CHECK raised, in every link state. -/
def execBadUpstreamFrame (_defect : FrameDefect) (s : State) : Host.Outcome State Fault Refusal :=
  .next s.discardUpstream

end Sys2Proof.Machine
end

