-- ==== Sys2Proof/Machine/RelayCommands.lean ====
section
/-! DEFINITION. The Input Relay's commands (chapter 9): KEYS and POINTER reports (R158 to R161), the ready level and
the end of an input-line frame (R156), LAMP (R166) and bad inbound frames (R165). -/

namespace Sys2Proof.Machine

/-- KEYS (R158, R160, R161): the key change is formed, the held-key state replaced, the report offered;
discarded while the link is not UP (R147). -/
def execKeys (modifiers : Byte) (codes : Table 6 Byte) (s : State) : Host.Outcome State Fault Refusal :=
  match s.link.state with
  | .up =>
    let keys := keySet codes
    let changed := decide (s.relay.heldModifiers ≠ modifiers ∨ s.relay.heldKeys ≠ keys)
    let s := if changed then s.interact .keyChange else s
    let s := s.updRelay fun r => { r with heldModifiers := modifiers, heldKeys := keys }
    .next (s.offerKeyboard modifiers keys)
  | _ => .next s

/-- POINTER (R158, R159, R161): motion and button change are formed, the pointer state replaced, the report
offered; discarded while the link is not UP (R147). -/
def execPointer (x y : BitVec 16) (buttons wheel : Byte) (s : State) : Host.Outcome State Fault Refusal :=
  match s.link.state with
  | .up =>
    let px := pointerCoordinate x
    let py := pointerCoordinate y
    let b := pointerButtons buttons
    let moved := decide (s.relay.position ≠ some (px, py))
    let pressed := decide (s.relay.buttons ≠ b)
    let s := if moved then s.interact .motion else s
    let s := if pressed then s.interact .buttonChange else s
    let s := s.updRelay fun r => { r with position := some (px, py), buttons := b }
    .next (s.offerPointer px py b (pointerWheel wheel))
  | _ => .next s

/-- READY_LEVEL_RISE (R156): an IDLE transmitter with a non-empty queue begins a frame. -/
def execReadyLevelRise (s : State) : Host.Outcome State Fault Refusal :=
  .next (s.updRelay fun r => { r with ready := true }.tryBegin)

/-- READY_LEVEL_FALL (R156): a frame being sent completes; no further frame begins until the level is high. -/
def execReadyLevelFall (s : State) : Host.Outcome State Fault Refusal :=
  .next (s.updRelay fun r => { r with ready := false })

/-- INPUT_FRAME_END (R156): the next frame begins, or the transmitter becomes IDLE; an IDLE transmitter ends
no frame (log 21). -/
def execInputFrameEnd (s : State) : Host.Outcome State Fault Refusal :=
  match s.relay.sending with
  | none => .next s
  | some _ => .next (s.updRelay fun r => { r with sending := none }.tryBegin)

/-- LAMP (R165, R166): LAMP_OVERRUN when a lamp set still waited; the record takes the new set, and while the
link is UP a LAMP frame is offered. -/
def execLamp (set : Byte) (s : State) : Host.Outcome State Fault Refusal :=
  let s := if s.relay.lampPending then s.raise .lampOverrun else s
  let s := s.updRelay fun r => { r with lamps := set, lampPending := true }
  match s.link.state with
  | .up => .next (s.offerLamp set).sendDecision
  | _ => .next s

/-- INPUT_LINE_BAD_FRAME (R165): counted, and INPUT_LINE_ERROR raised. The receiver hunts again from the byte that
discarded the frame (Receiver.take), and may have begun another frame since. -/
def execInputLineBadFrame (_defect : LineDefect) (s : State) : Host.Outcome State Fault Refusal :=
  .next ((s.count .inputLineErrors).raise .inputLineError)

end Sys2Proof.Machine
end

