-- ==== Sys2Proof/Machine/ChannelCommands.lean ====
section
/-! DEFINITION. The Channel Follower (chapter 1): anomalies (R10 to R12, R18), the following states (R13 to R21),
and the meanings of the channel commands and of the memory reset line. -/

namespace Sys2Proof.Machine

/-! ### Tables (R3, R4, R5, R13) -/

/-- A change to one rank. -/
def State.updRank (r : Fin 2) (f : Rank → Rank) (s : State) : State :=
  { s with channel := { s.channel with ranks := s.channel.ranks.upd r f } }

/-- A change to both ranks. -/
def State.updRanks (f : Rank → Rank) (s : State) : State :=
  { s with channel := { s.channel with ranks := Table.tab fun r => f (s.channel.ranks.look r) } }

/-- A rank's bank with its entry replaced. -/
def Rank.setBank (k : Rank) (b : Fin 8) (row : Option Nat) : Rank := { k with banks := k.banks.put b row }

/-- A rank with every bank CLOSED. -/
def Rank.closeAll (k : Rank) : Rank := { k with banks := Table.const none }

/-- Whether any bank of a rank is OPEN. -/
def Rank.anyOpen (k : Rank) : Bool := (List.finRange 8).any fun b => (k.banks.look b).isSome

/-- The ranks that exist on the channel (R2). -/
def State.ranks (s : State) : List (Fin 2) :=
  (List.finRange 2).filter fun r => r.1 < s.straps.rankCount

/-- The rank a command carries, when the command is taken: not while the memory reset line is asserted (R15),
and not for a rank the straps do not have (R2). -/
def State.takenRank (rank : Nat) (s : State) : Option (Fin 2) :=
  if s.memoryResetLine then none
  else if rank < s.straps.rankCount then some (Fin.ofNat 2 rank) else none

/-! ### Anomalies (R10) -/

/-- The anomaly conditions a command meets: the ranks for which one of conditions 1 to 4 holds, condition 5,
and conditions 6 and 7 (R10). -/
structure Anomaly where
  ranks : List (Fin 2)
  bankOpen : Bool
  mode : Bool
  deriving DecidableEq, Repr

/-- A command that meets more than one condition is one anomaly (R10). -/
def Anomaly.any (a : Anomaly) : Bool := !a.ranks.isEmpty || a.bankOpen || a.mode

/-- Condition 4 for a command other than an exit: the rank is in POWER_DOWN or SELF_REFRESH (R10). -/
def Rank.asleep (k : Rank) : Bool := decide (k.power ≠ .active)

/-- A rank anomaly of one rank, or none. -/
def rankAnomaly (r : Fin 2) (c : Bool) : Anomaly :=
  { ranks := if c then [r] else [], bankOpen := false, mode := false }

/-- Whether an anomaly is counted in RESYNC: a rank anomaly against a known-closed rank, condition 5 when
every rank is known-closed, conditions 6 and 7 always (R18). -/
def State.judged (a : Anomaly) (s : State) : Bool :=
  a.ranks.any (fun r => (s.channel.ranks.look r).knownClosed)
    || (a.bankOpen && s.ranks.all fun r => (s.channel.ranks.look r).knownClosed)
    || a.mode

/-! ### Following states (R13 to R21) -/

/-- What every entry into WAIT_MODES or RESYNC does elsewhere (R20, R25, R82): CAPTURING records are abandoned,
the followers go to SEEK, and no burst owes a record any more. -/
def State.loseChannel (s : State) : State :=
  let s := { s with channel := { s.channel with writeBursts := [], readBursts := [] } }
  (s.abandonWhere fun _ => true).allToSeek

/-- FOLLOWING is left for RESYNC (R17). -/
def State.leaveFollowing (s : State) : State :=
  let s := s.count .anomalies
  let s := { s with channel := { s.channel with following := .resync } }
  let s := s.updRanks fun k => { k with knownClosed := false }
  s.loseChannel.raise .followLost

/-- FOLLOWING is entered from a blind interval: blind marking and BLIND_REFRESH (R21, R58). -/
def State.enterFollowing (s : State) : State :=
  ({ s with channel := { s.channel with following := .following } }.blindMarking).raise .blindRefresh

/-- The test that can end a blind interval (R19). -/
def State.testFollowing (s : State) : State :=
  if s.channel.following ≠ .following ∧ (s.ranks.all fun r => (s.channel.ranks.look r).knownClosed)
      ∧ s.channel.shadowSupported then
    s.enterFollowing
  else s

/-- A rank anomaly in a blind interval clears the flags of the ranks it is about (R12, R13, R18). -/
def State.clearKnown (a : Anomaly) (s : State) : State :=
  a.ranks.foldl (fun s r => s.updRank r fun k => { k with knownClosed := false }) s

/-- What a command can bring about beyond its effect: PRECHARGE ALL, REFRESH and SELF-REFRESH EXIT make a
rank known-closed in a blind interval (R13); MODE SET can make the shadow supported or not (R17, R19). -/
inductive Beyond where
  | nothing
  | closes (rank : Fin 2)
  | modeSet
  deriving DecidableEq, Repr

/-- The rank's flag is set in a blind interval (R13). -/
def State.setKnown (y : Beyond) (s : State) : State :=
  match y with
  | .closes r => s.updRank r fun k => { k with knownClosed := true }
  | _ => s

/-- A command taken in a blind interval: its effect, the count when `counted`, the known-closed flags, and
R19's test after the commands that call for it (R13, R16, R18, R19). -/
def State.takeBlind (a : Anomaly) (effect : State → State) (y : Beyond) (counted : Bool) (s : State) :
    State :=
  let s := effect s
  let s := if counted then s.count .anomalies else s
  let s := (s.clearKnown a).setKnown y
  if y = .nothing then s else s.testFollowing

/-- A command taken by the follower: `a` its anomaly conditions in the state before it, `effect` its effect
under R3 to R5 and R12 (R16, R17, R18). -/
def State.takeCommand (a : Anomaly) (effect : State → State) (y : Beyond) (s : State) : State :=
  match s.channel.following with
  | .following =>
    let s' := effect s
    if a.any || (decide (y = .modeSet) && !s'.channel.shadowSupported) then s'.leaveFollowing else s'
  | .waitModes => s.takeBlind a effect y a.any
  | .resync => s.takeBlind a effect y (s.judged a)

/-- A command to one rank, when it is taken (R2, R15). -/
def State.onRank (rank : Nat) (f : Fin 2 → State → State) (s : State) : State :=
  match s.takenRank rank with
  | some r => f r s
  | none => s

/-- A command to a rank first makes the rank ACTIVE: a sleeping rank is woken by an anomaly (R12), an ACTIVE
one stays so. -/
def Rank.awake (k : Rank) : Rank := { k with power := .active }

/-! ### ACTIVATE, PRECHARGE, PRECHARGE ALL -/

/-- ACTIVATE: the bank becomes OPEN with the row (R3); an anomaly when it is OPEN (R10 condition 1). -/
def execActivate (rank : Nat) (bank : Fin 8) (row : BitVec 16) (s : State) :
    Host.Outcome State Fault Refusal :=
  .next (s.onRank rank fun r s =>
    let k := s.channel.ranks.look r
    s.takeCommand (rankAnomaly r (k.asleep || (k.banks.look bank).isSome))
      (fun s => s.updRank r fun k => k.awake.setBank bank (some (s.straps.rowOf row))) .nothing)

/-- PRECHARGE: the bank becomes CLOSED; a CLOSED bank is no anomaly (R3, R10). -/
def execPrecharge (rank : Nat) (bank : Fin 8) (s : State) : Host.Outcome State Fault Refusal :=
  .next (s.onRank rank fun r s =>
    s.takeCommand (rankAnomaly r (s.channel.ranks.look r).asleep)
      (fun s => s.updRank r fun k => k.awake.setBank bank none) .nothing)

/-- PRECHARGE ALL: every bank of the rank becomes CLOSED (R3); in a blind interval the rank becomes
known-closed (R13), and R19's test follows. -/
def execPrechargeAll (rank : Nat) (s : State) : Host.Outcome State Fault Refusal :=
  .next (s.onRank rank fun r s =>
    s.takeCommand (rankAnomaly r (s.channel.ranks.look r).asleep)
      (fun s => s.updRank r fun k => k.awake.closeAll) (.closes r))

/-! ### WRITE and READ -/

/-- The burst of a command to a bank's open row, as R7, R22, R23 and R24 fix it at the command. -/
def State.burstAt (r : Fin 2) (bank : Fin 8) (row : Nat) (column : BitVec 11) (chop : Bool) (latency : Nat)
    (s : State) : Burst :=
  let c := s.straps.columnOf column
  let n := s.channel.burstColumns chop
  { address := s.straps.address r.1 bank.1 row (groupBase c n), columns := n, start := c % n,
    exchange := s.channel.exchangeOrder, latency := latency }

/-- The anomaly conditions of a READ or WRITE: condition 2, condition 4, and condition 6 or 7 as `mode` (R10). -/
def State.accessAnomaly (r : Fin 2) (bank : Fin 8) (mode : Bool) (s : State) : Anomaly :=
  let k := s.channel.ranks.look r
  { ranks := if k.asleep || (k.banks.look bank).isNone then [r] else [], bankOpen := false, mode := mode }

/-- A WRITE (R23): its bank effects, and in FOLLOWING, with write training off and no anomaly, a write burst
to the open row that owes an observed write (R9, R12, R25). `close` is auto-precharge (R3). -/
def State.takeWriteCommand (r : Fin 2) (bank : Fin 8) (column : BitVec 11) (chop close : Bool)
    (s : State) : State :=
  let a := s.accessAnomaly r bank s.channel.diversion
  s.takeCommand a
    (fun s =>
      let s' := s.updRank r fun k => if close then k.awake.setBank bank none else k.awake
      match (s.channel.ranks.look r).banks.look bank with
      | some row =>
        if s.channel.following = .following ∧ !a.any ∧ !s.channel.writeTraining then
          { s' with channel := { s'.channel with
              writeBursts := s'.channel.writeBursts
                ++ [s.burstAt r bank row column chop s.channel.writeLatency] } }
        else s'
      | none => s')
    .nothing

/-- A READ (R24): its bank effects, and in FOLLOWING, with diversion off and no anomaly, a read burst from
the open row that owes an observed read (R9, R12, R25). -/
def State.takeReadCommand (r : Fin 2) (bank : Fin 8) (column : BitVec 11) (chop close : Bool)
    (s : State) : State :=
  let a := s.accessAnomaly r bank s.channel.writeTraining
  s.takeCommand a
    (fun s =>
      let s' := s.updRank r fun k => if close then k.awake.setBank bank none else k.awake
      match (s.channel.ranks.look r).banks.look bank with
      | some row =>
        if s.channel.following = .following ∧ !a.any ∧ !s.channel.diversion then
          { s' with channel := { s'.channel with
              readBursts := s'.channel.readBursts
                ++ [s.burstAt r bank row column chop s.channel.readLatency] } }
        else s'
      | none => s')
    .nothing

/-- WRITE (R23). -/
def execWrite (rank : Nat) (bank : Fin 8) (column : BitVec 11) (chop : Bool) (s : State) :
    Host.Outcome State Fault Refusal :=
  .next (s.onRank rank fun r s => s.takeWriteCommand r bank column chop false)

/-- WRITE with auto-precharge: as WRITE; the bank then becomes CLOSED (R3). -/
def execWriteAutoPrecharge (rank : Nat) (bank : Fin 8) (column : BitVec 11) (chop : Bool) (s : State) :
    Host.Outcome State Fault Refusal :=
  .next (s.onRank rank fun r s => s.takeWriteCommand r bank column chop true)

/-- READ (R24). -/
def execRead (rank : Nat) (bank : Fin 8) (column : BitVec 11) (chop : Bool) (s : State) :
    Host.Outcome State Fault Refusal :=
  .next (s.onRank rank fun r s => s.takeReadCommand r bank column chop false)

/-- READ with auto-precharge: as READ; the bank then becomes CLOSED (R3). -/
def execReadAutoPrecharge (rank : Nat) (bank : Fin 8) (column : BitVec 11) (chop : Bool) (s : State) :
    Host.Outcome State Fault Refusal :=
  .next (s.onRank rank fun r s => s.takeReadCommand r bank column chop true)

/-! ### REFRESH, MODE SET, CALIBRATE, NO-OP -/

/-- REFRESH: the banks are unchanged (R3); an anomaly with any bank OPEN (R10 condition 3); in a blind interval
the rank becomes known-closed, after an anomaly too (R13), and R19's test follows. -/
def execRefresh (rank : Nat) (s : State) : Host.Outcome State Fault Refusal :=
  .next (s.onRank rank fun r s =>
    let k := s.channel.ranks.look r
    s.takeCommand (rankAnomaly r (k.asleep || k.anyOpen)) (fun s => s.updRank r Rank.awake) (.closes r))

/-- The anomaly conditions of MODE SET: condition 4 for every rank that sleeps (a command to every rank), and
condition 5 (R10). -/
def State.modeSetAnomaly (s : State) : Anomaly :=
  { ranks := s.ranks.filter fun r => (s.channel.ranks.look r).asleep
    bankOpen := s.ranks.any fun r => (s.channel.ranks.look r).anyOpen
    mode := false }

/-- MODE SET: the shadow register takes the value and becomes valid (R5); in FOLLOWING an anomaly or an
unsupported shadow is taken under R17, in a blind interval R19's test follows. -/
def execModeSet (register : Fin 4) (value : BitVec 16) (s : State) : Host.Outcome State Fault Refusal :=
  if s.memoryResetLine then .next s
  else
    .next (s.takeCommand s.modeSetAnomaly
      (fun s =>
        let s := s.updRanks Rank.awake
        { s with channel := { s.channel with
            shadow := s.channel.shadow.put register { value := value, valid := true } } })
      .modeSet)

/-- CALIBRATE is ignored and is never an anomaly (TABLE 4, R10). -/
def execCalibrate (_rank : Nat) (s : State) : Host.Outcome State Fault Refusal := .next s

/-- NO-OP changes nothing (TABLE 4). -/
def execNoOp (s : State) : Host.Outcome State Fault Refusal := .next s

/-! ### Power commands (R4) -/

/-- POWER-DOWN ENTRY: the rank becomes POWER_DOWN, its bank entries kept (R4); to a sleeping rank an anomaly,
after which it is taken as to an ACTIVE one (R12). -/
def execPowerDownEntry (rank : Nat) (s : State) : Host.Outcome State Fault Refusal :=
  .next (s.onRank rank fun r s =>
    s.takeCommand (rankAnomaly r (s.channel.ranks.look r).asleep)
      (fun s => s.updRank r fun k => { k with power := .powerDown }) .nothing)

/-- POWER-DOWN EXIT: the rank becomes or stays ACTIVE; an anomaly only to a rank in SELF_REFRESH (R4, R10). -/
def execPowerDownExit (rank : Nat) (s : State) : Host.Outcome State Fault Refusal :=
  .next (s.onRank rank fun r s =>
    s.takeCommand (rankAnomaly r (decide ((s.channel.ranks.look r).power = .selfRefresh)))
      (fun s => s.updRank r Rank.awake) .nothing)

/-- SELF-REFRESH ENTRY: the rank becomes SELF_REFRESH (R4); an anomaly with any bank OPEN, banks unchanged
(R10 condition 3, R12). -/
def execSelfRefreshEntry (rank : Nat) (s : State) : Host.Outcome State Fault Refusal :=
  .next (s.onRank rank fun r s =>
    let k := s.channel.ranks.look r
    s.takeCommand (rankAnomaly r (k.asleep || k.anyOpen))
      (fun s => s.updRank r fun k => { k with power := .selfRefresh }) .nothing)

/-- SELF-REFRESH EXIT: the rank becomes or stays ACTIVE (R4); an anomaly only to a rank in POWER_DOWN (R10); in
a blind interval the rank becomes known-closed (R13), and R19's test follows. -/
def execSelfRefreshExit (rank : Nat) (s : State) : Host.Outcome State Fault Refusal :=
  .next (s.onRank rank fun r s =>
    s.takeCommand (rankAnomaly r (decide ((s.channel.ranks.look r).power = .powerDown)))
      (fun s => s.updRank r Rank.awake) (.closes r))

/-! ### The memory reset line (R15) -/

/-- Assertion of the memory reset line (R15, R20). -/
def State.assertMemoryReset (s : State) : State :=
  let s := { s with
    memoryResetLine := true
    channel := { s.channel with
      following := .waitModes
      shadow := Table.tab fun n => { s.channel.shadow.look n with valid := false } } }
  let s := s.updRanks fun k => { k.closeAll with power := .active, knownClosed := true }
  s.loseChannel.raise .memoryReset

/-- MEMORY_RESET (R15). -/
def execMemoryReset (s : State) : Host.Outcome State Fault Refusal := .next s.assertMemoryReset

/-- Release of the memory reset line changes no state; commands are taken from then on (R15). -/
def execMemoryResetRelease (s : State) : Host.Outcome State Fault Refusal :=
  .next { s with memoryResetLine := false }

end Sys2Proof.Machine
end

