-- ==== Sys2Proof/Machine/Reset.lean ====
section
/-! DEFINITION. The meaning of PART_RESET (R1, R14, R156): the straps are latched and every block returns to its
reset state. -/

namespace Sys2Proof.Machine

/-- PART_RESET: release of the part reset input, with the straps, the memory reset line and the ready level as
they stand then. An asserted memory reset line is the follower's first event (R14); with the ready level
high the RESTART notice begins at once (R156). The queue of commands is kept. -/
def execPartReset (straps : Straps) (memoryReset ready : Bool) (s : State) :
    Host.Outcome State Fault Refusal :=
  let t := { State.initial straps memoryReset ready with pending := s.pending }
  let t := if memoryReset then t.assertMemoryReset else t
  .next (t.updRelay Relay.tryBegin)

end Sys2Proof.Machine
end

