-- ==== Sys2Proof/Machine/Dispatch.lean ====
section
/-! DEFINITION. exec: one arm per command, each one call of its meaning. -/

namespace Sys2Proof.Machine

def exec (i : Instr) (s : State) : Host.Outcome State Fault Refusal :=
  match i with
  | .partReset straps memoryReset ready => Sys2Proof.Machine.execPartReset straps memoryReset ready s
  | .activate rank bank row => Sys2Proof.Machine.execActivate rank bank row s
  | .precharge rank bank => Sys2Proof.Machine.execPrecharge rank bank s
  | .prechargeAll rank => Sys2Proof.Machine.execPrechargeAll rank s
  | .write rank bank column chop => Sys2Proof.Machine.execWrite rank bank column chop s
  | .writeAutoPrecharge rank bank column chop => Sys2Proof.Machine.execWriteAutoPrecharge rank bank column chop s
  | .read rank bank column chop => Sys2Proof.Machine.execRead rank bank column chop s
  | .readAutoPrecharge rank bank column chop => Sys2Proof.Machine.execReadAutoPrecharge rank bank column chop s
  | .refresh rank => Sys2Proof.Machine.execRefresh rank s
  | .modeSet register value => Sys2Proof.Machine.execModeSet register value s
  | .calibrate rank => Sys2Proof.Machine.execCalibrate rank s
  | .powerDownEntry rank => Sys2Proof.Machine.execPowerDownEntry rank s
  | .powerDownExit rank => Sys2Proof.Machine.execPowerDownExit rank s
  | .selfRefreshEntry rank => Sys2Proof.Machine.execSelfRefreshEntry rank s
  | .selfRefreshExit rank => Sys2Proof.Machine.execSelfRefreshExit rank s
  | .noOp => Sys2Proof.Machine.execNoOp s
  | .memoryReset => Sys2Proof.Machine.execMemoryReset s
  | .memoryResetRelease => Sys2Proof.Machine.execMemoryResetRelease s
  | .observedWrite completed => Sys2Proof.Machine.execObservedWrite completed s
  | .observedRead completed => Sys2Proof.Machine.execObservedRead completed s
  | .encodeCompletion => Sys2Proof.Machine.execEncodeCompletion s
  | .stallTimerExpiry head => Sys2Proof.Machine.execStallTimerExpiry head s
  | .tick => Sys2Proof.Machine.execTick s
  | .epochEnd => Sys2Proof.Machine.execEpochEnd s
  | .deferralAbandoned slot => Sys2Proof.Machine.execDeferralAbandoned slot s
  | .overrideHoldExpiry => Sys2Proof.Machine.execOverrideHoldExpiry s
  | .lanesAligned => Sys2Proof.Machine.execLanesAligned s
  | .laneAlignmentLost lane => Sys2Proof.Machine.execLaneAlignmentLost lane s
  | .helloRepeatTimerExpiry => Sys2Proof.Machine.execHelloRepeatTimerExpiry s
  | .aligningTimerExpiry => Sys2Proof.Machine.execAligningTimerExpiry s
  | .frameEnd => Sys2Proof.Machine.execFrameEnd s
  | .hello version => Sys2Proof.Machine.execHello version s
  | .keys modifiers codes => Sys2Proof.Machine.execKeys modifiers codes s
  | .pointer x y buttons wheel => Sys2Proof.Machine.execPointer x y buttons wheel s
  | .set setting head value => Sys2Proof.Machine.execSet setting head value s
  | .apply => Sys2Proof.Machine.execApply s
  | .readRequest id item head flags => Sys2Proof.Machine.execReadRequest id item head flags s
  | .clear events => Sys2Proof.Machine.execClear events s
  | .resync head => Sys2Proof.Machine.execResync head s
  | .badUpstreamFrame defect => Sys2Proof.Machine.execBadUpstreamFrame defect s
  | .readyLevelRise => Sys2Proof.Machine.execReadyLevelRise s
  | .readyLevelFall => Sys2Proof.Machine.execReadyLevelFall s
  | .inputFrameEnd => Sys2Proof.Machine.execInputFrameEnd s
  | .lamp set => Sys2Proof.Machine.execLamp set s
  | .inputLineBadFrame defect => Sys2Proof.Machine.execInputLineBadFrame defect s

end Sys2Proof.Machine
end

