-- ==== Sys2Proof/Machine/Step.lean ====
section
/-! DEFINITION. One step: the command at the front of the queue, or a microsecond when none waits. -/

namespace Sys2Proof.Machine

/-- One step. The front command is executed on the state with the queue's rest; on an empty queue the part
takes no command and one microsecond of the time base passes (log 1). -/
def step (s : State) : Host.Outcome State Fault Refusal :=
  match s.pending with
  | [] => .next s.passMicrosecond
  | c :: rest => exec c { s with pending := rest }

/-- The state with the command a table word spells put at the front of the queue; no word spells one. -/
def State.withFetchWord (s : State) (nbits w : Nat) : State :=
  match decodeTableWord nbits w with
  | some c => { s with pending := c :: s.pending }
  | none => s

end Sys2Proof.Machine
end

