-- ==== Sys2Proof/Machine/Frames.lean ====
section
/-! DEFINITION. The byte layouts of chapter 10: downstream frames with their check (R142, R168, R170, TABLE 46) and
input-line frames (R155, R171, TABLE 49), and what stands on the lanes and on the line. -/

namespace Sys2Proof.Machine

/-! ### The check (R168) -/

/-- One bit step of the check register, which holds bit 0 as the next to leave (least significant bit
first); the generator 0x04C11DB7 then reads 0xEDB88320 (PRESUMED, log 17). -/
def crcBit (c : BitVec 32) : BitVec 32 :=
  if c.getLsbD 0 then (c >>> 1) ^^^ 0xEDB88320#32 else c >>> 1

/-- One byte taken into the check register. -/
def crcByte (c : BitVec 32) (b : Byte) : BitVec 32 :=
  (List.range 8).foldl (fun c _ => crcBit c) (c ^^^ b.setWidth 32)

/-- The check over bytes: from 0xFFFFFFFF, inverted at the end (R168). -/
def crc32 (bytes : List Byte) : BitVec 32 := ~~~(bytes.foldl crcByte 0xFFFFFFFF#32)

/-- A number as `n` little-endian bytes (00_scope.md "Numbers"). -/
def littleEndian (n v : Nat) : List Byte := (List.range n).map fun k => BitVec.ofNat 8 (v / 256 ^ k)

/-- A frame's bytes with its 4-byte check, least significant byte first (R168). -/
def withCheck (bytes : List Byte) : List Byte := bytes ++ littleEndian 4 (crc32 bytes).toNat

/-! ### Downstream frames (TABLE 46, R170) -/

/-- Head state codes (10 section 10.4). -/
def HeadState.code (t : HeadState) : Nat :=
  match t with
  | .off => 0
  | .waiting => 1
  | .showing => 2
  | .stalled => 3

/-- Format codes: 1 F32, 2 F16 (TABLE 46). -/
def PixelFormat.code (f : PixelFormat) : Nat :=
  match f with
  | .f32 => 1
  | .f16 => 2

/-- The id places of a HEAD frame: the flip set in descriptor order, unused places 0xFF (R170). -/
def idPlaces (ids : List (Fin 16)) : List Byte :=
  ((ids.map fun i : Fin 16 => BitVec.ofNat 8 i.1) ++ [0xFF, 0xFF, 0xFF]).take 3

/-- The geometry fields of a HEAD frame; zero for an OFF head (R170). -/
def geometryBytes (g : Option Geometry) : List Byte :=
  match g with
  | some g =>
    littleEndian 2 g.width ++ littleEndian 2 g.height ++ littleEndian 1 g.format.code
      ++ littleEndian 1 g.tileColumns ++ littleEndian 1 g.tileRows
  | none => List.replicate 7 0

/-- A HEAD frame's bytes, check included. -/
def HeadFrame.bytes (f : HeadFrame) : List Byte :=
  withCheck ([0x03, BitVec.ofNat 8 f.head.1, BitVec.ofNat 8 f.state.code,
      BitVec.ofNat 8 f.flipSet.length]
    ++ idPlaces f.flipSet ++ geometryBytes f.geometry ++ littleEndian 4 f.period)

/-- A STATUS frame's bytes: bits 10 to 15 of the event set are 0 (R170). -/
def statusBytes (events : BitVec 10) : List Byte := withCheck ([0x05] ++ littleEndian 2 events.toNat)

/-- A control frame's bytes, check included; a STATUS frame has contents only once it has begun. -/
def ControlFrame.bytes (f : ControlFrame) : List Byte :=
  match f with
  | .hello lanes => withCheck ([0x01, 1] ++ littleEndian 2 742 ++ littleEndian 1 lanes)
  | .head d => d.bytes
  | .lamp set => withCheck [0x04, set]
  | .status => statusBytes 0
  | .answer id valid value =>
    withCheck ([0x06] ++ littleEndian 2 id.toNat ++ [if valid then 0 else 1] ++ littleEndian 8 value.toNat)

/-- The code number of a TILE frame (TABLE 46). -/
def Code.number (c : Code) : Byte :=
  match c with
  | .exact => 0
  | .reduced => 1

/-- The payload of the coded form of a code (R111). -/
def CodedForms.payload (f : CodedForms) (c : Code) : List Byte :=
  match c with
  | .exact => f.exact
  | .reduced => f.reduced

/-- A TILE frame's bytes, check included: head, column, row, code and format from the record, payload from
the coded form of its code (R111, R142, TABLE 46). -/
def Record.tileFrame (r : Record) : List Byte :=
  match r.coded, r.decision with
  | some f, some d =>
    let p := f.payload d.code
    withCheck ([0x02, BitVec.ofNat 8 r.head.1, BitVec.ofNat 8 r.column, BitVec.ofNat 8 r.row,
      d.code.number, BitVec.ofNat 8 r.format.code] ++ littleEndian 2 p.length ++ p)
  | _, _ => []

/-- The bytes of the frame on the wire; none when the wire is idle. -/
def State.wireBytes (s : State) : List Byte :=
  match s.link.wire with
  | .idle => []
  | .control f => f.bytes
  | .status e => statusBytes e
  | .tile i =>
    match s.slots.look i with
    | some r => r.tileFrame
    | none => []

/-- The bytes a lane carries of a frame: with two lanes, the bytes in turn (R138); lane 0 takes the first
(DESIGN CHOICE, log 18). -/
def laneBytes (lanes lane : Nat) (bytes : List Byte) : List Byte :=
  (bytes.zipIdx.filter fun b => b.2 % lanes == lane).map (·.1)

/-! ### Input-line frames (R155, R171, TABLE 49) -/

/-- Outcome codes (TABLE 45). -/
def CommitOutcome.code (o : CommitOutcome) : Byte :=
  match o with
  | .taken => 0
  | .incomplete => 1
  | .badKind => 2
  | .badValue => 3
  | .overlap => 4
  | .capacity => 5
  | .mismatch => 6
  | .noSurface => 7
  | .inUse => 8

/-- A NOTICE payload: type with the lost-notice flag in bit 7, slot, generation, outcome or link state (R171). -/
def Notice.payload (n : Notice) (lost : Bool) : List Byte :=
  let flag : Byte := if lost then 0x80 else 0
  match n with
  | .restart => [0x01 ||| flag, 0, 0, 0]
  | .outcome slot generation o => [0x02 ||| flag, BitVec.ofNat 8 slot.1, generation, o.code]
  | .link up => [0x03 ||| flag, 0, 0, if up then 1 else 0]

/-- Kind and payload of an outbound frame (TABLE 49, R171). -/
def InputFrame.payload (f : InputFrame) : Byte × List Byte :=
  match f.entry with
  | .keyboard m keys => (0x01, ([m, 0] ++ keys ++ List.replicate 6 0).take 8)
  | .pointer x y b w =>
    (0x02, littleEndian 2 x.toNat ++ littleEndian 2 y.toNat ++ [b.setWidth 8, BitVec.ofInt 8 w])
  | .notice n => (0x03, n.payload f.lost)

/-- An input-line frame: start mark, kind, length, payload and XOR check (R155). -/
def lineFrame (kind : Byte) (payload : List Byte) : List Byte :=
  let body := kind :: BitVec.ofNat 8 payload.length :: payload
  0xA5 :: (body ++ [body.foldl (· ^^^ ·) 0])

/-- An outbound frame's bytes. -/
def InputFrame.bytes (f : InputFrame) : List Byte := lineFrame f.payload.1 f.payload.2

/-- The bytes of the frame the transmitter sends; none when it is IDLE. -/
def State.lineBytes (s : State) : List Byte :=
  match s.relay.sending with
  | some f => f.bytes
  | none => []

/-- A byte on the input line: a start bit, 8 data bits least significant first, and a stop bit (R155). -/
def lineBits (b : Byte) : List Bool := [false] ++ (List.range 8).map b.getLsbD ++ [true]

end Sys2Proof.Machine
end

