-- ==== Sys2Proof/Machine/Upstream.lean ====
section
/-! DEFINITION. The front ends: how the lanes acquire and lose alignment (R138), how the bytes the desk and the input
controller send become commands (R138, R147, R168, TABLE 47; R165), and their appending to the queue (log 20). -/

namespace Sys2Proof.Machine

/-! ### The lanes (R138) -/

/-- Whether every lane of the straps has acquired alignment. -/
def State.everyLaneAcquired (s : State) : Bool :=
  (List.finRange 2).all fun l => decide (s.straps.laneCount ≤ l.1) || s.link.acquired.look l

/-- A lane acquires alignment on its own (R138); when every lane then has it, LANES_ALIGNED joins the queue
(TABLE 34). A lane the straps do not have acquires nothing. -/
def State.acquireLane (lane : Fin 2) (s : State) : State :=
  if lane.1 < s.straps.laneCount then
    let s := { s with link := { s.link with acquired := s.link.acquired.put lane true } }
    if s.everyLaneAcquired then { s with pending := s.pending ++ [.lanesAligned] } else s
  else s

/-- A lane loses alignment (R138): LANE_ALIGNMENT_LOST joins the queue, and a frame whose bytes the loss cuts off is
not taken at all (R147). A lane that has none loses nothing. -/
def State.loseLane (lane : Fin 2) (s : State) : State :=
  if s.link.acquired.look lane then
    { s with
      link := { s.link with acquired := s.link.acquired.put lane false, arriving := none }
      pending := s.pending ++ [.laneAlignmentLost lane] }
  else s

/-- Two lanes' bytes rejoined in turn, the first list's byte first (R138). -/
def interleave (a b : List Byte) : List Byte :=
  match a, b with
  | x :: a, y :: b => x :: y :: interleave a b
  | [], b => b
  | a, [] => a

/-- The bytes of an upstream frame from what its lanes carried (R138); lane 0 carries the first (DESIGN CHOICE,
log 18). -/
def rejoinLanes (lanes : Nat) (bytes : Table 2 (List Byte)) : List Byte :=
  if lanes = 1 then bytes.look 0 else interleave (bytes.look 0) (bytes.look 1)

/-! ### Upstream frames (TABLE 47) -/

/-- The length of an upstream frame by its kind byte, check included (TABLE 47). -/
def upstreamLength (kind : Byte) : Option Nat :=
  match kind.toNat with
  | 0x10 => some 6
  | 0x11 => some 12
  | 0x12 => some 11
  | 0x13 => some 15
  | 0x14 => some 5
  | 0x15 => some 10
  | 0x16 => some 7
  | 0x17 => some 6
  | _ => none

/-- Byte `n` of a frame. -/
def frameByte (f : List Byte) (n : Nat) : Byte := f.getD n 0

/-- A little-endian field of `n` bytes from byte `a` of a frame. -/
def frameField (f : List Byte) (a n : Nat) : Nat :=
  match n with
  | 0 => 0
  | n + 1 => (frameByte f a).toNat + 256 * frameField f (a + 1) n

/-- Whether the last four bytes are the check of those before them (R168). -/
def checkMatches (f : List Byte) : Bool :=
  let body := f.take (f.length - 4)
  f.drop (f.length - 4) == littleEndian 4 (crc32 body).toNat

/-- The command a well-formed frame's bytes spell, by kind (TABLE 47, TABLE 36). -/
def commandOf (f : List Byte) : Instr :=
  match (frameByte f 0).toNat with
  | 0x10 => .hello (frameByte f 1)
  | 0x11 => .keys (frameByte f 1) (Table.tab fun k => frameByte f (2 + k.1))
  | 0x12 => .pointer (BitVec.ofNat 16 (frameField f 1 2)) (BitVec.ofNat 16 (frameField f 3 2))
      (frameByte f 5) (frameByte f 6)
  | 0x13 => .set (frameByte f 1) (frameByte f 2) (BitVec.ofNat 64 (frameField f 3 8))
  | 0x14 => .apply
  | 0x15 => .readRequest (BitVec.ofNat 16 (frameField f 1 2)) (frameByte f 3) (frameByte f 4) (frameByte f 5)
  | 0x16 => .clear (BitVec.ofNat 16 (frameField f 1 2))
  | 0x17 => .resync (frameByte f 1)
  | _ => .badUpstreamFrame .unknownKind

/-- The command that the bytes received between two lane marks spell (R147, R168): a frame whose check fails,
whose length disagrees with its kind, or whose kind is none of TABLE 36 is a bad frame. -/
def receiveFrame (f : List Byte) : Instr :=
  if f.length < 5 then .badUpstreamFrame .wrongLength
  else if !checkMatches f then .badUpstreamFrame .badCheck
  else
    match upstreamLength (frameByte f 0) with
    | none => .badUpstreamFrame .unknownKind
    | some n => if f.length = n then commandOf f else .badUpstreamFrame .wrongLength

/-- The bytes of one upstream frame have arrived: the command they spell joins the queue. -/
def State.receiveFrame (f : List Byte) (s : State) : State :=
  { s with pending := s.pending ++ [Machine.receiveFrame f] }

/-- Whether a lane of the straps is aligned, so that its bytes are received (R138, R147). -/
def State.laneReceives (lane : Fin 2) (s : State) : Bool :=
  decide (lane.1 < s.straps.laneCount) && s.link.acquired.look lane

/-- Whether any lane is aligned (R147). -/
def State.anyLaneReceives (s : State) : Bool := (List.finRange 2).any fun l => s.laneReceives l

/-- The lanes mark the end of a frame (R168): its bytes, rejoined, are taken as a frame (R147). An end without a
beginning, as after a loss of alignment, takes nothing. -/
def State.endUpstreamFrame (s : State) : State :=
  match s.link.arriving with
  | some bytes =>
    ({ s with link := { s.link with arriving := none } } : State).receiveFrame
      (rejoinLanes s.straps.laneCount bytes)
  | none => s

/-- The lanes mark the beginning of a frame (R168). A frame that has not ended is taken first with the bytes received
before this one began (R147). With no lane aligned nothing is received (log 31). -/
def State.beginUpstreamFrame (s : State) : State :=
  if s.anyLaneReceives then
    let s := s.endUpstreamFrame
    { s with link := { s.link with arriving := some (Table.const []) } }
  else s

/-- Bytes on a lane: an aligned lane's are received within a frame; all others are not (R138, R147; log 31). -/
def State.receiveLaneBytes (lane : Fin 2) (l : List Byte) (s : State) : State :=
  match s.link.arriving with
  | some bytes =>
    if s.laneReceives lane then
      { s with link := { s.link with arriving := some (bytes.upd lane (· ++ l)) } }
    else s
  | none => s

/-- One whole upstream frame, from mark to mark, as the lanes carry it (R138, R147, R168). -/
def State.receiveLanes (bytes : Table 2 (List Byte)) (s : State) : State :=
  ((s.beginUpstreamFrame.receiveLaneBytes 0 (bytes.look 0)).receiveLaneBytes 1 (bytes.look 1)).endUpstreamFrame

/-! ### The input-line receiver (R165) -/

/-- A byte received on the input line, with its stop bit. -/
structure LineByte where
  value : Byte
  stopOk : Bool
  deriving DecidableEq, Repr

/-- One byte taken by the receiver: its next state, and the command of a frame it has finished or discarded
(R165). While hunting, 0xA5 begins a frame whatever its stop bit; after it a byte with a bad stop bit discards the
frame. A frame of another kind or length is discarded once both bytes are taken, so the byte after a wrong kind
begins no frame (DEDUCED, log 30). -/
def Receiver.take (r : Receiver) (b : LineByte) : Receiver × Option Instr :=
  match r with
  | .hunting => if b.value = 0xA5 then (.kind, none) else (.hunting, none)
  | .kind =>
    if !b.stopOk then (.hunting, some (.inputLineBadFrame .badStop)) else (Receiver.length b.value, none)
  | .length k =>
    if !b.stopOk then (.hunting, some (.inputLineBadFrame .badStop))
    else if k ≠ 0x81 then (.hunting, some (.inputLineBadFrame .wrongKind))
    else if b.value = 1 then (.payload, none)
    else (.hunting, some (.inputLineBadFrame .wrongLength))
  | .payload =>
    if !b.stopOk then (.hunting, some (.inputLineBadFrame .badStop)) else (.check b.value, none)
  | .check set =>
    if !b.stopOk then (.hunting, some (.inputLineBadFrame .badStop))
    else if b.value = 0x81 ^^^ 0x01 ^^^ set then (.hunting, some (.lamp set))
    else (.hunting, some (.inputLineBadFrame .badCheck))

/-- One byte arrives on the input line: the receiver takes it, and a command it gives joins the queue. -/
def State.receiveLineByte (b : LineByte) (s : State) : State :=
  let t := s.relay.receiver.take b
  { s with
    relay := { s.relay with receiver := t.1 }
    pending := s.pending ++ t.2.toList }

end Sys2Proof.Machine
end

