-- ==== Sys2Proof/Safety.lean ====
section
/-! DEFINITION. What holds of every state the part can reach: the sentences of the rules that say "never", "at
most" or "always", as properties of a state, each decidable, so a test can evaluate it; and the words the statements
share: what a withdrawal, an abandonment, a trial, a run and an entry's joining the input queue are, and what a channel
command does to a rank. -/

namespace Sys2Proof.Machine

/-- The wheel value of a POINTER entry. -/
def InputEntry.wheel? (e : InputEntry) : Option Int :=
  match e with
  | .pointer _ _ _ w => some w
  | _ => none

/-- The input queue never holds more than 32 entries, and every queued pointer entry's wheel lies within
-127 to +127 (R157). -/
abbrev State.inputQueueBounded (s : State) : Prop :=
  s.relay.queue.length ≤ 32 ∧
    ∀ e ∈ s.relay.queue, ∀ w ∈ e.wheel?, -127 ≤ w ∧ w ≤ 127

/-- Every head's credit lies between 0 and that head's cap, and the cap is max(4 * share, 8,192)
(R127, R128). -/
abbrev State.creditsWithinCaps (s : State) : Prop :=
  ∀ h : Fin 4, (s.budget.heads.look h).credit ≤ (s.budget.heads.look h).cap ∧
    (s.budget.heads.look h).cap = max (4 * (s.budget.heads.look h).share) 8192

/-- Every OFF head's share is 0, and with a head ON the shares sum to the link budget in force (R124). -/
abbrev State.sharesSpendTheBudget (s : State) : Prop :=
  (∀ h : Fin 4, s.isOn h = false → (s.budget.heads.look h).share = 0) ∧
    ((∃ h : Fin 4, s.isOn h = true) →
      (allHeads.map fun h => (s.budget.heads.look h).share).sum = s.link.current.budget)

/-- Every byte buffer is in its canonical form (log 16). -/
abbrev State.buffersCanonical (s : State) : Prop :=
  (∀ i : Fin 16, (s.descriptors.look i).bytes.wf) ∧
    ∀ i : Fin 64, ∀ r ∈ s.slots.look i, r.pixels.wf

/-- Every OPEN bank's row lies in 0 to R - 1 (R3). -/
abbrev State.openRowsInRange (s : State) : Prop :=
  ∀ r : Fin 2, ∀ b : Fin 8, ∀ w ∈ (s.channel.ranks.look r).banks.look b, w < s.straps.rowCount

/-- A declared surface's fields are in their ranges (R33, R35) and its stale map has one mark for each tile
(R49). -/
abbrev Surface.sound (p : Straps) (f : Surface) : Prop :=
  f.base % 256 = 0 ∧ f.pitch % 64 = 0 ∧ f.geometry.lineBytes ≤ f.pitch ∧ f.pitch ≤ 65536 ∧
    64 ≤ f.geometry.width ∧ f.geometry.width ≤ 4096 ∧ 32 ≤ f.geometry.height ∧ f.geometry.height ≤ 2304 ∧
    f.limit ≤ p.channelSize ∧ f.stale.length = f.geometry.tileCount

/-- The surface table: every declared surface is sound, none meets another or the announcement area (R36), and
together they have at most 98,304 tiles (R37). -/
abbrev State.surfacesSound (s : State) : Prop :=
  (∀ i : Fin 16, ∀ f ∈ s.surfaces.look i, f.sound s.straps ∧
      rangesMeet f.base f.limit s.straps.areaBase (s.straps.areaBase + areaSize) = false ∧
      ∀ j : Fin 16, j ≠ i → ∀ g ∈ s.surfaces.look j, rangesMeet f.base f.limit g.base g.limit = false) ∧
    ((List.finRange 16).map fun i => match s.surfaces.look i with
      | some f => f.geometry.tileCount
      | none => 0).sum ≤ 98304

/-- The entry of an OFF head (R34): no flip set, no shown surface, no geometry and no quality map. -/
abbrev Head.offSound (d : Head) : Prop :=
  d.flipSet = [] ∧ d.shown = none ∧ d.geometry = none ∧ d.quality = []

/-- The entry of a head `h` that is not OFF: 1 to 3 distinct surfaces, every one DECLARED, owned by `h` and of
the head's geometry (R41), and one quality entry for each tile (R52). -/
abbrev State.onSound (h : Fin 4) (s : State) : Prop :=
  (s.heads.look h).flipSet ≠ [] ∧ (s.heads.look h).flipSet.length ≤ 3 ∧ (s.heads.look h).flipSet.Nodup ∧
    (s.heads.look h).geometry ≠ none ∧
    ∀ g ∈ (s.heads.look h).geometry, (s.heads.look h).quality.length = g.tileCount ∧
      ∀ id ∈ (s.heads.look h).flipSet, s.surfaces.look id ≠ none ∧
        ∀ f ∈ s.surfaces.look id, f.owner = some h ∧ f.geometry = g

/-- The shown surface: none in OFF and WAITING, one of the flip set in SHOWING and STALLED (R67). -/
abbrev Head.shownSound (d : Head) : Prop :=
  (d.state = .off ∨ d.state = .waiting → d.shown = none) ∧
    (d.state = .showing ∨ d.state = .stalled → d.shown ≠ none ∧ ∀ id ∈ d.shown, id ∈ d.flipSet)

/-- The head table agrees with the surface table (R34, R41, R52, R67), and a surface with an owning head belongs
to that head's flip set. -/
abbrev State.headsSound (s : State) : Prop :=
  (∀ h : Fin 4, ((s.heads.look h).state = .off → (s.heads.look h).offSound) ∧
      ((s.heads.look h).state ≠ .off → s.onSound h) ∧ (s.heads.look h).shownSound) ∧
    ∀ i : Fin 16, ∀ f ∈ s.surfaces.look i, ∀ h ∈ f.owner, i ∈ (s.heads.look h).flipSet

/-- A head in TRACK is always SHOWING (R76). -/
abbrev State.trackingIsShowing (s : State) : Prop :=
  ∀ h : Fin 4, (s.scans.look h).mode = .track → (s.heads.look h).state = .showing

/-- At most one live record exists for any pair of surface and tile (R91). -/
abbrev State.recordsUnique (s : State) : Prop :=
  ∀ i j : Fin 64, ∀ r ∈ s.slots.look i, ∀ q ∈ s.slots.look j,
    r.surface = q.surface → r.column = q.column → r.row = q.row → i = j

/-- While the link is not UP no tile frame is on the wire (R140). -/
abbrev State.tilesOnlyWhileUp (s : State) : Prop :=
  s.link.state ≠ .up → ∀ i : Fin 64, s.link.wire ≠ .tile i

/-- The control FIFO (R143): DOWN it is empty, ALIGNING it holds at most one HELLO, and UP it holds at most 16
frames, no HELLO, at most one HEAD frame for each head, one LAMP and one STATUS. -/
abbrev State.controlFifoBounded (s : State) : Prop :=
  (s.link.state = .down → s.link.control = []) ∧
    (s.link.state = .aligning →
      s.link.control.length ≤ 1 ∧ ∀ f ∈ s.link.control, f.isHello = true) ∧
    (s.link.state = .up →
      s.link.control.length ≤ 16 ∧ s.link.control.countP ControlFrame.isHello = 0 ∧
        (∀ h : Fin 4, s.link.control.countP (ControlFrame.isHead h) ≤ 1) ∧
        s.link.control.countP ControlFrame.isLamp ≤ 1 ∧ s.link.control.count .status ≤ 1)

/-- Where the record of a slot must stand, by its state (R84, R112, R113, R132, R144, R146): in the encode queue,
in the encoder, in its head's deferral list or send FIFO, or on the wire; and what it must carry by then. -/
abbrev State.recordInPlace (i : Fin 64) (r : Record) (s : State) : Prop :=
  (i ∈ s.encodeQueue ↔ r.state = .captured) ∧
    (s.encoder = some i ↔ r.state = .encoding) ∧
    (∀ h : Fin 4, i ∈ (s.budget.heads.look h).deferred ↔ r.state = .deferred ∧ h = r.head) ∧
    (∀ h : Fin 4, i ∈ s.link.send.look h ↔ r.state = .queued ∧ h = r.head) ∧
    (s.link.wire = .tile i ↔ r.state = .sending) ∧
    (r.state = .deferred ∨ r.state = .queued ∨ r.state = .sending → r.coded ≠ none) ∧
    (r.state = .queued ∨ r.state = .sending → r.decision ≠ none)

/-- A FREE slot stands nowhere. -/
abbrev State.freeSlotNowhere (i : Fin 64) (s : State) : Prop :=
  i ∉ s.encodeQueue ∧ s.encoder ≠ some i ∧ (∀ h : Fin 4, i ∉ (s.budget.heads.look h).deferred) ∧
    (∀ h : Fin 4, i ∉ s.link.send.look h) ∧ s.link.wire ≠ .tile i

/-- Every slot stands where its record's state says, and no list names a slot twice (R112, R132, R144). -/
abbrev State.slotsInPlace (s : State) : Prop :=
  (∀ i : Fin 64, (∀ r ∈ s.slots.look i, s.recordInPlace i r) ∧
      (s.slots.look i = none → s.freeSlotNowhere i)) ∧
    s.encodeQueue.Nodup ∧ (∀ h : Fin 4, (s.budget.heads.look h).deferred.Nodup) ∧
    ∀ h : Fin 4, (s.link.send.look h).Nodup

/-! ### What the rules say of releases, trials and allocations, apart from the model's own operations -/

/-- Whether a slot holds a record in the state `t` that `p` names. -/
def State.holds (t : RecordState) (p : Record → Bool) (i : Fin 64) (s : State) : Bool :=
  match s.slots.look i with
  | some r => decide (r.state = t) && p r
  | none => false

/-- Whether a withdrawal releases a record at once: not one that is ENCODING or SENDING (R63 to R65). -/
def Record.releasedAtOnce (r : Record) : Bool := decide (r.state ≠ .encoding ∧ r.state ≠ .sending)

/-- What a withdrawal for a cause other than link loss leaves of a record that `p` names (R63 to R65); a record
it does not name stays. -/
def Record.afterWithdrawal (p : Record → Bool) (r : Record) : Option Record :=
  if p r then
    match r.state with
    | .encoding => some { r with withdrawn := true }
    | .sending => some r
    | _ => none
  else some r

/-- From `s` to `t` every live record that `p` names is withdrawn and no other slot changes: each leaves the list
it stands in, the others keeping their order, and every CAPTURING one is counted as abandoned (R62 to R65). -/
def State.withdraws (p : Record → Bool) (s t : State) : Prop :=
  (∀ i, t.slots.look i = (s.slots.look i).bind (Record.afterWithdrawal p)) ∧
    t.encodeQueue = s.encodeQueue.filter (fun i => !(s.holds .captured p i)) ∧
    (∀ h, (t.budget.heads.look h).deferred = (s.budget.heads.look h).deferred.filter fun i =>
      !(s.holds .deferred (fun r => p r && r.head == h) i)) ∧
    (∀ h, t.link.send.look h = (s.link.send.look h).filter fun i =>
      !(s.holds .queued (fun r => p r && r.head == h) i)) ∧
    t.counters.capturesAbandoned =
      saturatingAdd s.counters.capturesAbandoned (allSlots.countP fun i => s.holds .capturing p i)

/-- From `s` to `t` every CAPTURING record that `p` names is abandoned and counted, and no other slot changes
(R98). -/
def State.abandons (p : Record → Bool) (s t : State) : Prop :=
  (∀ i, t.slots.look i = (s.slots.look i).filter fun r => !(decide (r.state = .capturing) && p r)) ∧
    t.counters.capturesAbandoned =
      saturatingAdd s.counters.capturesAbandoned (allSlots.countP fun i => s.holds .capturing p i)

/-- From `s` to `t` the map of surface `id` keeps its marks and gains those of the records that `p` names, a tile
outside the grid taking none (R49, R62, R98). -/
def State.marksOf (p : Record → Prop) (id : Fin 16) (s t : State) : Prop :=
  ∀ f, s.surfaces.look id = some f → f.stale.length = f.geometry.tileCount →
    ∀ c w, f.geometry.hasTile c w = true →
      (t.isStale id c w = true ↔ s.isStale id c w = true ∨
        ∃ i r, s.slots.look i = some r ∧ p r ∧ r.surface = id ∧ r.column = c ∧ r.row = w)

/-- A surface with every mark of its stale map cleared: what a marking cannot change. -/
def Surface.unmarked (f : Surface) : Surface := { f with stale := f.stale.map fun _ => false }

/-- From `s` to `t` the surface table changes in marks alone (R33, R49). -/
def State.onlyMarks (s t : State) : Prop :=
  ∀ id, (t.surfaces.look id).map Surface.unmarked = (s.surfaces.look id).map Surface.unmarked

/-- A HEAD frame for head `h` waits in the control FIFO, and every one that waits for it is that frame (R143). -/
def State.headFrameWaits (h : Fin 4) (d : HeadFrame) (s : State) : Prop :=
  ControlFrame.head d ∈ s.link.control ∧ ∀ g ∈ s.link.control, g.isHead h = true → g = .head d

/-- The test of R130, cases 2 to 4, with R131 for a REFINE record: what a record is charged at a credit. -/
def Record.test (exactOnly : Bool) (credit : Nat) (r : Record) : Option Decision :=
  match r.coded with
  | none => none
  | some f =>
    if f.exact.length + 12 ≤ credit then some { code := .exact, frameSize := f.exact.length + 12 }
    else if r.kind = .new ∧ exactOnly = false ∧ f.reduced.length + 12 ≤ credit then
      some { code := .reduced, frameSize := f.reduced.length + 12 }
    else none

/-- The largest n, up to a limit, for which every position from `i` to i + n - 1 meets `ok` (R107). -/
def runOf (limit : Nat) (ok : Nat → Bool) (i : Nat) : Nat :=
  ((List.range limit).takeWhile fun k => ok (i + k)).length

/-- An entry joins the tail of the input queue. With the transmitter IDLE and the ready level high the entry then at
the head of the queue is sent at once; a NOTICE takes the lost-notice flag and clears it (R156, R163). -/
def Relay.joined (r : Relay) (e : InputEntry) : Relay :=
  match r.sending, r.ready, r.queue ++ [e] with
  | none, true, x :: rest =>
    { r with queue := rest, sending := some { entry := x, lost := x.isNotice && r.lost },
             lost := !x.isNotice && r.lost }
  | _, _, queue => { r with queue := queue }

/-- The input relay after a report that replaced another entry or shed one, or was dropped: the report counts one and
INPUT_OVERFLOW is raised (R159, R160, R162). -/
def State.overflowed (r : Relay) (s : State) : State :=
  { s with
    relay := r
    counters := s.counters.store .inputDropped (saturatingAdd s.counters.inputDropped 1)
    link := s.link.raise .inputOverflow }

/-- The place of a tile column in the rover's order: from the rover up, then from 0 up to it (R89). -/
def roverPlace (rover columns column : Nat) : Nat := if rover ≤ column then column else columns + column

/-- The record a band start writes for a candidate (R84, R91). -/
def freshRecord (h : Fin 4) (id : Fin 16) (f : Surface) (band : Nat) (c : Candidate) : Record :=
  { head := h, surface := id, column := c.column, row := band, kind := c.kind, state := .capturing,
    withdrawn := false, received := 0, pixels := [], coded := none, decision := none, age := 0,
    format := f.geometry.format, tw := f.geometry.tileWidth c.column, th := f.geometry.tileHeight band }

end Sys2Proof.Machine

namespace Sys2Proof

open Machine

/-! ### What the rules say of a channel command, apart from the model's own meanings -/

/-- The rank anomalies of R10 (conditions 1 to 4), against the rank the command addresses. -/
def Instr.rankAnomalous (c : Instr) (k : Rank) : Bool :=
  match c with
  | .activate _ b _ => decide (k.power ≠ .active) || (k.banks.look b).isSome
  | .write _ b _ _ | .writeAutoPrecharge _ b _ _ | .read _ b _ _ | .readAutoPrecharge _ b _ _ =>
    decide (k.power ≠ .active) || (k.banks.look b).isNone
  | .refresh _ | .selfRefreshEntry _ =>
    decide (k.power ≠ .active) || decide (∃ b : Fin 8, (k.banks.look b).isSome = true)
  | .precharge _ _ | .prechargeAll _ | .powerDownEntry _ => decide (k.power ≠ .active)
  | .powerDownExit _ => decide (k.power = .selfRefresh)
  | .selfRefreshExit _ => decide (k.power = .powerDown)
  | _ => false

/-- Conditions 6 and 7 of R10. -/
def Instr.modeAnomalous (c : Instr) (ch : Channel) : Bool :=
  match c with
  | .write _ _ _ _ | .writeAutoPrecharge _ _ _ _ => ch.diversion
  | .read _ _ _ _ | .readAutoPrecharge _ _ _ _ => ch.writeTraining
  | _ => false

/-- What a command to a rank does to the rank's bank entries and power state, anomalous or not (R3, R4, R12). The row
is the low row bits of the operand (log 7). -/
def Instr.rankEffect (p : Straps) (c : Instr) (k : Rank) : Rank :=
  match c with
  | .activate _ b row =>
    { k with power := .active, banks := k.banks.put b (some (row.toNat % p.rowCount)) }
  | .precharge _ b | .writeAutoPrecharge _ b _ _ | .readAutoPrecharge _ b _ _ =>
    { k with power := .active, banks := k.banks.put b none }
  | .prechargeAll _ => { k with power := .active, banks := Table.const none }
  | .write _ _ _ _ | .read _ _ _ _ | .refresh _ | .powerDownExit _ | .selfRefreshExit _ =>
    { k with power := .active }
  | .powerDownEntry _ => { k with power := .powerDown }
  | .selfRefreshEntry _ => { k with power := .selfRefresh }
  | _ => k

/-- The commands that make their rank known-closed in a blind interval (R13). -/
def Instr.closesRank (c : Instr) : Bool :=
  match c with
  | .prechargeAll _ | .refresh _ | .selfRefreshExit _ => true
  | _ => false

/-- The commands that carry a rank and are taken: all of them but CALIBRATE (TABLE 4). -/
def Instr.takenBy (c : Instr) (r : Fin 2) (s : State) : Prop :=
  c.rank? = some r.1 ∧ c ≠ .calibrate r.1 ∧ r.1 < s.straps.rankCount ∧ s.memoryResetLine = false

/-- The place of a class in the order critical, high, normal (R121). -/
def Machine.HeadClass.place (c : HeadClass) : Nat :=
  match c with
  | .critical => 0
  | .high => 1
  | .normal => 2

end Sys2Proof
end

