-- ==== Sys2Proof/Certificates/Slice0/Obligations.lean ====
section
/-! DEFINITION. The statements for the provers. A statement says in its docstring which rules of spec/ it follows,
and where it rests on a choice of the model it names the log entry. -/

open Sys2Proof Sys2Proof.Machine

/-! ### The machine -/

/-- A step takes the command at the front of the queue: it is exec of that command on the state with the queue's
rest. -/
def Obligations.StepRunsTheFrontCommand : Prop :=
  ∀ (c : Instr) (rest : List Instr) (s : State), s.pending = c :: rest →
    step s = exec c { s with pending := rest }

/-- On an empty queue one microsecond of the time base passes (R116), and the timers it has reached queue their
expiry commands, each once (log 1). -/
def Obligations.EmptyQueuePassesAMicrosecond : Prop :=
  ∀ s : State, s.pending = [] →
    ∃ t, step s = .next t ∧
      t = { s with budget := { s.budget with now := s.budget.now + 1 }, pending := t.pending } ∧
      t.pending.Nodup ∧
      ∀ c, c ∈ t.pending ↔
        (c = .tick ∧ timeReached (s.budget.now + 1) s.budget.tickAt) ∨
        (∃ h e, c = .stallTimerExpiry h ∧ (s.scans.look h).stall = some e ∧
          timeReached (s.budget.now + 1) e) ∨
        (∃ e, c = .overrideHoldExpiry ∧ s.budget.hold = some e ∧ timeReached (s.budget.now + 1) e) ∨
        (∃ e, c = .helloRepeatTimerExpiry ∧ s.link.helloAt = some e ∧ timeReached (s.budget.now + 1) e) ∨
        (∃ e, c = .aligningTimerExpiry ∧ s.link.aligningAt = some e ∧ timeReached (s.budget.now + 1) e)

/-- Every command, in every state, answers a next state: the part never stops. -/
def Obligations.EveryCommandAnswersNext : Prop :=
  ∀ (c : Instr) (s : State), ∃ t, exec c s = .next t

/-! ### Part reset -/

/-- Part reset and the Channel Follower (R8, R14): RESYNC, every bank CLOSED, every rank ACTIVE, every flag clear,
the shadow loaded from TABLE 6 and valid, no anomaly, no event; with the memory reset line asserted, that
assertion is then the first event. Every start profile is supported, with write training and diversion off. -/
def Obligations.PartResetFollower : Prop :=
  (∀ (p : Straps) (line ready : Bool) (s : State), ∃ t, exec (.partReset p line ready) s = .next t ∧
    t.straps = p ∧ t.memoryResetLine = line ∧
    (∀ r : Fin 2, (∀ b : Fin 8, (t.channel.ranks.look r).banks.look b = none) ∧
      (t.channel.ranks.look r).power = .active ∧ (t.channel.ranks.look r).knownClosed = line) ∧
    (∀ n : Fin 4, (t.channel.shadow.look n).valid = !line) ∧
    (t.channel.shadow.look 0).value = [0x0006#16, 0x0808#16, 0x1009#16, 0x180B#16].getD p.startProfile.1 0 ∧
    (t.channel.shadow.look 1).value = 0x0000#16 ∧
    (t.channel.shadow.look 2).value = [0x0400#16, 0x0500#16, 0x0600#16, 0x0800#16].getD p.startProfile.1 0 ∧
    (t.channel.shadow.look 3).value = 0x0000#16 ∧
    t.channel.burstMode = [BurstMode.fixed8, .fixed8, .perCommandChop, .perCommandChop].getD p.startProfile.1 .fixed8 ∧
    t.channel.exchangeOrder = [false, true, false, true].getD p.startProfile.1 false ∧
    t.channel.readLatency = [11, 13, 14, 16].getD p.startProfile.1 0 ∧
    t.channel.writeLatency = [8, 9, 10, 12].getD p.startProfile.1 0 ∧
    t.channel.writeTraining = false ∧ t.channel.diversion = false ∧
    t.channel.shadowSupported = !line ∧
    t.counters.anomalies = 0 ∧
    (line = false → t.channel.following = .resync ∧ t.link.latches = 0) ∧
    (line = true → t.channel.following = .waitModes ∧ t.link.latches = Event.memoryReset.bit))

/-- Part reset and every other block: the reset values of R28, R33, R34, R68, R84, R87, R112, R113, R116, R117,
R121 to R124, R127, R129, R132, R136, R139, R143 to R145, R149, R150, R152, R154, R156, R157, R161, R163, R165
and R166. The cursor, the last frame start and the period of a head without a follower are the model's choice
(log 15), as are the empty lists of bursts (log 6) and the queue of commands, which is kept (log 22). -/
def Obligations.PartResetEveryOtherBlock : Prop :=
  ∀ (p : Straps) (line ready : Bool) (s : State), ∃ t, exec (.partReset p line ready) s = .next t ∧
    t.pending = s.pending ∧ t.channel.writeBursts = [] ∧ t.channel.readBursts = [] ∧
    (∀ i : Fin 16, t.descriptors.look i = { bytes := [], seen := 0, generation := 0 } ∧
      t.surfaces.look i = none) ∧
    (∀ h : Fin 4,
      t.heads.look h = { state := .off, flipSet := [], shown := none, geometry := none, quality := [] } ∧
      t.scans.look h =
        { mode := .none, cursor := 0, lastStart := none, period := 0, frameCount := 0, stall := none } ∧
      t.rovers.look h = 0 ∧ t.held h = 0 ∧ t.link.send.look h = [] ∧
      t.budget.heads.look h =
        { share := 0, cap := 8192, credit := 0, accumulator := 0, demand := 0, deferred := [] } ∧
      t.link.current.heads.look h =
        { cls := if h = 0 then .critical else .normal, weight := 4, quota := 16, exactOnly := false,
          refine := true, desktop := none }) ∧
    (∀ i : Fin 64, t.slots.look i = none) ∧ t.encodeQueue = [] ∧ t.encoder = none ∧
    t.budget.now = 0 ∧ t.budget.tickAt = 1000 ∧ t.budget.epochTicks = 0 ∧ t.budget.recompute = false ∧
    t.budget.overrideActive = false ∧ t.budget.hold = none ∧
    t.link.state = .down ∧ (∀ l : Fin 2, t.link.acquired.look l = false ∧ t.link.aligned.look l = false) ∧
    t.link.arriving = none ∧
    t.link.aligningAt = none ∧
    t.link.helloAt = none ∧ t.link.control = [] ∧ t.link.wire = .idle ∧
    t.link.lastServed = { critical := 3, high := 3, normal := 3 } ∧
    t.link.staged = t.link.current ∧ t.link.current.budget = p.capacity * 15 / 16 ∧
    t.link.current.mode = .dynamic ∧ t.link.current.holdMs = 200 ∧ t.link.current.keyEnable = true ∧
    t.link.current.motionEnable = true ∧ t.link.current.buttonEnable = true ∧ t.link.current.mask = 0 ∧
    t.link.applyRequest = false ∧ t.link.statusPending = line ∧
    (∀ k : Counter, t.counters.value k = 0) ∧
    t.relay =
      { queue := if ready then [] else [.notice .restart]
        sending := if ready then some { entry := .notice .restart, lost := false } else none
        ready := ready, lost := false, heldModifiers := 0, heldKeys := [], position := none, buttons := 0,
        lamps := 0, lampPending := false, receiver := .hunting }

/-- Everything the rules say of every state holds of the state after reset. -/
def Obligations.ResetStateIsSafe : Prop :=
  State.reset.inputQueueBounded ∧ State.reset.creditsWithinCaps ∧ State.reset.sharesSpendTheBudget ∧
    State.reset.buffersCanonical ∧ State.reset.openRowsInRange ∧ State.reset.surfacesSound ∧
    State.reset.headsSound ∧ State.reset.trackingIsShowing ∧ State.reset.recordsUnique ∧
    State.reset.tilesOnlyWhileUp ∧ State.reset.controlFifoBounded ∧ State.reset.slotsInPlace

/-! ### The Channel Follower -/

/-- A command to a rank the straps do not have changes nothing (R2); NO-OP and CALIBRATE change nothing and are
never anomalies (R10, TABLE 4). -/
def Obligations.CommandsWithoutEffect : Prop :=
  (∀ (c : Instr) (rank : Nat) (s : State), c.rank? = some rank → s.straps.rankCount ≤ rank →
    exec c s = .next s) ∧
  (∀ s : State, exec .noOp s = .next s) ∧
  (∀ (rank : Nat) (s : State), exec (.calibrate rank) s = .next s)

/-- The commands of a rank that move no data, and MODE SET, in FOLLOWING without an anomaly. ACTIVATE, PRECHARGE and
PRECHARGE ALL to an ACTIVE rank change the bank entries as R3 says, the row being the low row bits of the operand
(log 7); REFRESH and the power commands change the power state as R4 says and leave the bank entries (R3); MODE SET
with every rank ACTIVE, every bank CLOSED and the shadow supported after it gives its register the value and makes
it valid (R5), and the follower stays in FOLLOWING (R17). Nothing else changes. -/
def Obligations.CommandsInFollowing : Prop :=
  (∀ (s : State) (r : Fin 2) (bank : Fin 8) (row : BitVec 16),
     s.channel.following = .following → s.memoryResetLine = false → r.1 < s.straps.rankCount →
     (s.channel.ranks.look r).power = .active →
     ((s.channel.ranks.look r).banks.look bank = none →
       exec (.activate r.1 bank row) s = .next { s with channel := { s.channel with
         ranks := s.channel.ranks.put r { s.channel.ranks.look r with
           banks := (s.channel.ranks.look r).banks.put bank (some (row.toNat % s.straps.rowCount)) } } }) ∧
     exec (.precharge r.1 bank) s = .next { s with channel := { s.channel with
       ranks := s.channel.ranks.put r { s.channel.ranks.look r with
         banks := (s.channel.ranks.look r).banks.put bank none } } } ∧
     exec (.prechargeAll r.1) s = .next { s with channel := { s.channel with
       ranks := s.channel.ranks.put r { s.channel.ranks.look r with banks := Table.const none } } }) ∧
  (∀ (s : State) (r : Fin 2),
     s.channel.following = .following → s.memoryResetLine = false → r.1 < s.straps.rankCount →
     let k := s.channel.ranks.look r
     let withPower := fun p : PowerState => ({ s with channel := { s.channel with
       ranks := s.channel.ranks.put r { k with power := p } } } : State)
     (k.power = .active → (∀ b, k.banks.look b = none) → exec (.refresh r.1) s = .next s) ∧
     (k.power = .active → exec (.powerDownEntry r.1) s = .next (withPower .powerDown)) ∧
     (k.power = .active → (∀ b, k.banks.look b = none) →
       exec (.selfRefreshEntry r.1) s = .next (withPower .selfRefresh)) ∧
     (k.power = .powerDown ∨ k.power = .active →
       exec (.powerDownExit r.1) s = .next (withPower .active)) ∧
     (k.power = .selfRefresh ∨ k.power = .active →
       exec (.selfRefreshExit r.1) s = .next (withPower .active))) ∧
  (∀ (s : State) (n : Fin 4) (v : BitVec 16),
     s.channel.following = .following → s.memoryResetLine = false →
     (∀ r : Fin 2, (s.channel.ranks.look r).power = .active ∧
       ∀ b, (s.channel.ranks.look r).banks.look b = none) →
     let after : Channel := { s.channel with shadow := s.channel.shadow.put n { value := v, valid := true } }
     after.shadowSupported = true →
     exec (.modeSet n v) s = .next { s with channel := after })

/-- WRITE and READ, either variant, to an OPEN bank of an ACTIVE rank in FOLLOWING, without an anomaly: the burst
owes a record with the group base, length and order that R7 and R22 to R24 give at the command, unless write
training (for a WRITE) or diversion (for a READ) is on (R9); the auto-precharge variant closes the bank (R3);
nothing else changes. The column is the low column bits of the operand (log 7); the list of bursts is log 6. -/
def Obligations.BurstCommandsInFollowing : Prop :=
  ∀ (s : State) (r : Fin 2) (bank : Fin 8) (row : Nat) (column : BitVec 11) (chop : Bool) (n c : Nat),
    s.channel.following = .following → s.memoryResetLine = false → r.1 < s.straps.rankCount →
    (s.channel.ranks.look r).power = .active → (s.channel.ranks.look r).banks.look bank = some row →
    ((s.channel.burstMode = .fixed8 ∧ n = 8) ∨
      (s.channel.burstMode = .perCommandChop ∧ n = if chop then 4 else 8) ∨
      (s.channel.burstMode = .fixedChop ∧ n = 4)) →
    c = column.toNat % s.straps.columnCount →
    let burst := fun latency : Nat => ({
      address := s.straps.address r.1 bank.1 row (c - c % n), columns := n, start := c % n,
      exchange := s.channel.exchangeOrder, latency := latency } : Burst)
    let closed := s.channel.ranks.put r { s.channel.ranks.look r with
      banks := (s.channel.ranks.look r).banks.put bank none }
    let writes := if s.channel.writeTraining then s.channel.writeBursts
      else s.channel.writeBursts ++ [burst s.channel.writeLatency]
    let reads := if s.channel.diversion then s.channel.readBursts
      else s.channel.readBursts ++ [burst s.channel.readLatency]
    (s.channel.diversion = false →
      exec (.write r.1 bank column chop) s =
        .next { s with channel := { s.channel with writeBursts := writes } } ∧
      exec (.writeAutoPrecharge r.1 bank column chop) s =
        .next { s with channel := { s.channel with ranks := closed, writeBursts := writes } }) ∧
    (s.channel.writeTraining = false →
      exec (.read r.1 bank column chop) s =
        .next { s with channel := { s.channel with readBursts := reads } } ∧
      exec (.readAutoPrecharge r.1 bank column chop) s =
        .next { s with channel := { s.channel with ranks := closed, readBursts := reads } })

/-- In FOLLOWING, a command that is an anomaly (R10), and a MODE SET after which the shadow is not supported, take
the follower to RESYNC (R17): its effect is applied (R12, R5), one anomaly is counted, every known-closed flag
is cleared and FOLLOW_LOST is raised; every CAPTURING record is abandoned, counted and its tile marked, every other
record stays, every follower goes to SEEK at line 0 with the head states kept, and no burst owes a record any more
(R20, R25, R98). Any other command leaves the follower in FOLLOWING with its effect, and counts, raises and abandons
nothing. A MODE SET makes every rank ACTIVE, and with a rank in POWER_DOWN or SELF_REFRESH it is an anomaly: that
reading of conditions 4 and of R12 for a command to every rank is the model's (log 8). The effect of ACTIVATE takes
the low row bits of the row operand, which is the model's choice (log 7). -/
def Obligations.FollowingIsLeftAtAnAnomaly : Prop :=
  let left := fun s t : State =>
    t.channel.following = .resync ∧ t.channel.writeBursts = [] ∧ t.channel.readBursts = [] ∧
      t.counters.anomalies = saturatingAdd s.counters.anomalies 1 ∧ t.link = s.link.raise .followLost ∧
      s.abandons (fun _ => true) t ∧ (∀ id, s.marksOf (fun r => r.state = .capturing) id t) ∧
      (∀ h, t.scans.look h =
        if s.isOn h then { s.scans.look h with mode := .seek, cursor := 0 } else s.scans.look h) ∧
      t.heads = s.heads ∧ t.budget = s.budget ∧ t.encodeQueue = s.encodeQueue ∧ t.encoder = s.encoder
  (∀ (c : Instr) (r : Fin 2) (s : State), c.takenBy r s → s.channel.following = .following →
    let k := s.channel.ranks.look r
    let after := s.channel.ranks.put r (c.rankEffect s.straps k)
    ∃ t, exec c s = .next t ∧ t.channel.shadow = s.channel.shadow ∧
      ((c.rankAnomalous k || c.modeAnomalous s.channel) = true →
        left s t ∧ ∀ q, t.channel.ranks.look q = { after.look q with knownClosed := false }) ∧
      ((c.rankAnomalous k || c.modeAnomalous s.channel) = false →
        t.channel.following = .following ∧ t.channel.ranks = after ∧ t = { s with channel := t.channel })) ∧
  (∀ (n : Fin 4) (v : BitVec 16) (s : State), s.memoryResetLine = false →
    s.channel.following = .following →
    let after : Channel := { s.channel with shadow := s.channel.shadow.put n { value := v, valid := true } }
    let anomaly := ∃ r : Fin 2, r.1 < s.straps.rankCount ∧
      ((s.channel.ranks.look r).power ≠ .active ∨ ∃ b, (s.channel.ranks.look r).banks.look b ≠ none)
    ∃ t, exec (.modeSet n v) s = .next t ∧ t.channel.shadow = after.shadow ∧
      (∀ r : Fin 2, (t.channel.ranks.look r).banks = (s.channel.ranks.look r).banks ∧
        (t.channel.ranks.look r).power = .active) ∧
      (anomaly ∨ after.shadowSupported = false →
        left s t ∧ ∀ r, (t.channel.ranks.look r).knownClosed = false) ∧
      (¬ anomaly ∧ after.shadowSupported = true →
        t.channel.following = .following ∧ t = { s with channel := t.channel }))

/-- A command to a rank, and MODE SET, in a blind interval (R5, R12, R13, R16, R18, R19, R21, R58). Its effect is
applied. The rank's flag is cleared by a rank anomaly and set by PRECHARGE ALL, REFRESH and SELF-REFRESH EXIT, which
clear and then set it when they are anomalies, as R13 says of REFRESH (log 9). An anomaly is counted in WAIT_MODES
always, whatever the flag (log 10), and in RESYNC only against a known-closed rank, or with a bank OPEN at a MODE
SET when every rank is known-closed, or as condition 6 or 7, read from the shadow's contents whatever their valid
flags (log 28). A MODE SET to sleeping ranks wakes them, clears their flags and is an anomaly for each (log 8). And
FOLLOWING is entered when every flag is set and the shadow is supported after one of the three commands or a MODE
SET: BLIND_REFRESH is raised, every declared surface is wholly stale, and every CAPTURED, DEFERRED or QUEUED record
is released and every ENCODING one flagged, a SENDING one staying (R58, R63, R64). Else nothing but the channel and
the anomaly count changes. The effect of ACTIVATE takes the low row bits of the row operand, which is the model's
choice (log 7). -/
def Obligations.CommandsInABlindInterval : Prop :=
  let concluded := fun (enters counted : Prop) (s t : State) =>
    t.channel.writeBursts = s.channel.writeBursts ∧ t.channel.readBursts = s.channel.readBursts ∧
      (counted → t.counters.anomalies = saturatingAdd s.counters.anomalies 1) ∧
      (¬ counted → t.counters.anomalies = s.counters.anomalies) ∧
      (enters → t.channel.following = .following ∧ t.link.latches = (s.link.raise .blindRefresh).latches ∧
        s.withdraws (fun r => decide (r.state ≠ .capturing)) t ∧
        (∀ id, t.surfaces.look id = (s.surfaces.look id).map fun f =>
          { f with stale := List.replicate f.geometry.tileCount true }) ∧
        t.heads = s.heads ∧ t.scans = s.scans ∧ t.encoder = s.encoder ∧ t.link.wire = s.link.wire) ∧
      (¬ enters → t.channel.following = s.channel.following ∧
        t = { s with channel := t.channel, counters := { s.counters with anomalies := t.counters.anomalies } })
  (∀ (c : Instr) (r : Fin 2) (s : State), c.takenBy r s → s.channel.following ≠ .following →
    let k := s.channel.ranks.look r
    let flag := if c.closesRank then true else if c.rankAnomalous k then false else k.knownClosed
    let after := s.channel.ranks.put r { c.rankEffect s.straps k with knownClosed := flag }
    let enters := c.closesRank = true ∧ s.channel.shadowSupported = true ∧
      ∀ q : Fin 2, q.1 < s.straps.rankCount → (after.look q).knownClosed = true
    let counted := c.modeAnomalous s.channel = true ∨
      (c.rankAnomalous k = true ∧ (s.channel.following = .waitModes ∨ k.knownClosed = true))
    ∃ t, exec c s = .next t ∧ t.channel.shadow = s.channel.shadow ∧ t.channel.ranks = after ∧
      concluded enters counted s t) ∧
  (∀ (n : Fin 4) (v : BitVec 16) (s : State), s.memoryResetLine = false →
    s.channel.following ≠ .following →
    let after : Channel := { s.channel with shadow := s.channel.shadow.put n { value := v, valid := true } }
    let asleep := fun r : Fin 2 => r.1 < s.straps.rankCount ∧ (s.channel.ranks.look r).power ≠ .active
    let known := fun r : Fin 2 => (s.channel.ranks.look r).knownClosed = true
    let everyKnown := ∀ r : Fin 2, r.1 < s.straps.rankCount → known r
    let opened := ∃ r : Fin 2, r.1 < s.straps.rankCount ∧
      ∃ b, (s.channel.ranks.look r).banks.look b ≠ none
    let counted := (∃ r, asleep r ∧ (s.channel.following = .waitModes ∨ known r)) ∨
      (opened ∧ (s.channel.following = .waitModes ∨ everyKnown))
    let enters := everyKnown ∧ (∀ r, ¬ asleep r) ∧ after.shadowSupported = true
    ∃ t, exec (.modeSet n v) s = .next t ∧ t.channel.shadow = after.shadow ∧
      (∀ r, (t.channel.ranks.look r).banks = (s.channel.ranks.look r).banks ∧
        (t.channel.ranks.look r).power = .active ∧
        ((t.channel.ranks.look r).knownClosed = true ↔ known r ∧ ¬ asleep r)) ∧
      concluded enters counted s t)

/-- The memory reset line (R15): asserted, it takes the follower to WAIT_MODES from every state, closes every bank,
makes every rank ACTIVE and every known-closed flag set, takes the shadow's valid flags and keeps its contents,
and raises MEMORY_RESET and no other event; every CAPTURING record is abandoned, counted and its tile marked, every
other record stays, and every follower is in SEEK after it (R20).
While it stays asserted commands change nothing. Its release changes no other state. -/
def Obligations.MemoryResetLine : Prop :=
  (∀ s : State, ∃ t, exec .memoryReset s = .next t ∧ t.memoryResetLine = true ∧
    t.channel.following = .waitModes ∧
    (∀ r : Fin 2, (∀ b, (t.channel.ranks.look r).banks.look b = none) ∧
      (t.channel.ranks.look r).power = .active ∧ (t.channel.ranks.look r).knownClosed = true) ∧
    (∀ n : Fin 4, t.channel.shadow.look n = { s.channel.shadow.look n with valid := false }) ∧
    t.link = s.link.raise .memoryReset ∧ t.counters.anomalies = s.counters.anomalies ∧
    (∀ i r, t.slots.look i = some r → r.state ≠ .capturing) ∧
    s.abandons (fun _ => true) t ∧ (∀ id, s.marksOf (fun r => r.state = .capturing) id t) ∧
    (∀ h, t.isOn h = true → (t.scans.look h).mode = .seek ∧ (t.scans.look h).cursor = 0) ∧
    t.heads = s.heads) ∧
  (∀ (c : Instr) (s : State), s.memoryResetLine = true →
    c.rank? ≠ none ∨ c = .noOp ∨ (∃ n v, c = .modeSet n v) → exec c s = .next s) ∧
  (∀ s : State, exec .memoryResetRelease s = .next { s with memoryResetLine := false })

/-- The channel address (R22): its formula in both orders; every channel address from 0 to the channel size - 1
belongs to exactly one byte of one column of one row, bank and rank; and an aligned group of 8 columns covers 8W
contiguous bytes aligned to 8W, a half 4W aligned to 4W. -/
def Obligations.ChannelAddressIsABijection : Prop :=
  ∀ p : Straps,
    (∀ r b w c, p.order = .rrbc →
      p.address r b w c = ((((r * p.rowCount) + w) * 8 + b) * p.columnCount + c) * p.beatBytes) ∧
    (∀ r b w c, p.order = .rbrc →
      p.address r b w c = ((((r * 8) + b) * p.rowCount + w) * p.columnCount + c) * p.beatBytes) ∧
    (∀ a, a < p.channelSize ↔
      ∃ r b w c j, r < p.rankCount ∧ b < 8 ∧ w < p.rowCount ∧ c < p.columnCount ∧ j < p.beatBytes ∧
        a = p.address r b w c + j) ∧
    (∀ r b w c j r' b' w' c' j', r < p.rankCount → b < 8 → w < p.rowCount → c < p.columnCount →
      j < p.beatBytes → r' < p.rankCount → b' < 8 → w' < p.rowCount → c' < p.columnCount →
      j' < p.beatBytes → p.address r b w c + j = p.address r' b' w' c' + j' →
      r = r' ∧ b = b' ∧ w = w' ∧ c = c' ∧ j = j') ∧
    (∀ r b w c k, p.address r b w (c + k) = p.address r b w c + k * p.beatBytes) ∧
    (∀ r b w c, c % 8 = 0 → p.address r b w c % (8 * p.beatBytes) = 0) ∧
    (∀ r b w c, c % 4 = 0 → p.address r b w c % (4 * p.beatBytes) = 0)

/-- The data of a read burst, re-ordered (R24): beat k carries column group base + ((s + k) mod n) in linear order
and group base + (s XOR k) in exchange order, every column of the group is carried by exactly one beat, and the
delivered data holds the beats' bytes in ascending address order. -/
def Obligations.ReadBeatsAreReordered : Prop :=
  ∀ (W : Nat) (b : Burst) (beats : Table 8 (BitVec 32)), W = 2 ∨ W = 4 →
    b.columns = 8 ∨ b.columns = 4 → b.start < b.columns →
    let column := fun k : Nat => if b.exchange then b.start ^^^ k else (b.start + k) % b.columns
    (reorderedBytes W b beats).length = b.columns * W ∧
    (∀ k, k < b.columns → column k < b.columns) ∧
    (∀ c, c < b.columns → ∃ k, k < b.columns ∧ column k = c ∧ ∀ k', k' < b.columns → column k' = c → k' = k) ∧
    (∀ (k : Fin 8) (j : Nat), k.1 < b.columns → j < W →
      (reorderedBytes W b beats)[column k.1 * W + j]? = some ((beats.look k).extractLsb' (8 * j) 8))

/-! ### Announcements and the surface table -/

/-- An observed write into descriptor slot `i` at offset `off`, in FOLLOWING (R26 to R29): each enabled byte is
copied at its offset and its seen flag set, the other bytes and flags stay. When byte 56 is not enabled, or equals
the slot's last taken generation, nothing else changes. A write outside FOLLOWING, and one without an enabled
byte, is no observed write (R23, R25). Which of the bursts completes the command says, so that a later command's burst
may complete before an earlier one's (R7, R26); with no burst at the place named nothing happens (log 6). -/
def Obligations.DescriptorBytesAssemble : Prop :=
  (∀ (s : State) (o : WriteCompletion), s.channel.writeBursts[o.burst]? = none →
    exec (.observedWrite o) s = .next s) ∧
  ∀ (s : State) (o : WriteCompletion) (b : Burst) (i : Fin 16) (off : Nat),
    s.channel.writeBursts[o.burst]? = some b →
    let bytes := enabledBytes s.straps.beatBytes b.columns o.beats
    let taken : State := { s with channel := { s.channel with
      writeBursts := s.channel.writeBursts.eraseIdx o.burst } }
    (s.channel.following ≠ .following ∨ bytes = [] → exec (.observedWrite o) s = .next taken) ∧
    (s.channel.following = .following → bytes ≠ [] → off < 64 →
      b.address = s.straps.areaBase + 64 * i.1 + off → (∀ x ∈ bytes, off + x.1 < 64) →
      (s.descriptors.look i).bytes.wf →
      let d := s.descriptors.look i
      let e := d.assemble off bytes
      (∀ n, n < 64 → (e.seen.getLsbD n = true ↔ d.seen.getLsbD n = true ∨ ∃ x ∈ bytes, off + x.1 = n)) ∧
      (∀ n v, (n, v) ∈ bytes → e.byte (off + n) = v) ∧
      (∀ n, (∀ x ∈ bytes, off + x.1 ≠ n) → e.byte n = d.byte n) ∧
      e.generation = d.generation ∧
      ((∀ x ∈ bytes, off + x.1 ≠ 56) ∨ e.byte 56 = d.generation →
        exec (.observedWrite o) s = .next { taken with descriptors := s.descriptors.put i e }) ∧
      ((∃ x ∈ bytes, off + x.1 = 56) → e.byte 56 ≠ d.generation →
        exec (.observedWrite o) s =
          .next (State.conclude i e { taken with descriptors := s.descriptors.put i e }).sendDecision))

/-- A commit that is not ignored: its outcome and its conclusion (R30 to R32). It is INCOMPLETE when byte 1 differs
from byte 56 or is 0, or a byte of TABLE 11's required set is not seen; else BAD_KIND when byte 0 is outside 1 to 4;
else the first check of its kind that fails gives the outcome, and TAKEN when none does. A TAKEN descriptor is
applied to the tables as its kind's, a refusal changes no table; every seen flag of the slot is cleared and the
bytes keep their values; the slot's generation becomes byte 56; an OUTCOME notice with the slot, byte 56 and the
outcome is offered to the Input Relay; and every outcome but TAKEN raises ANNOUNCE_REFUSED. -/
def Obligations.CommitIsConcluded : Prop :=
  ∀ (s : State) (i : Fin 16) (d : DescriptorSlot),
    let o := s.checkCommit d
    let kind := (d.byte 0).toNat
    let n := (d.byte 5).toNat
    let required := fun b : Nat =>
      b = 0 ∨ b = 1 ∨ (kind = 1 ∧ 4 ≤ b ∧ b ≤ 23) ∨
        (kind = 2 ∧ (b = 4 ∨ b = 5 ∨ (1 ≤ n ∧ n ≤ 3 ∧ 6 ≤ b ∧ b ≤ 5 + n))) ∨
        ((kind = 3 ∨ kind = 4) ∧ b = 4)
    let complete := d.byte 1 = d.byte 56 ∧ d.byte 1 ≠ 0 ∧ ∀ b, required b → d.seen.getLsbD b = true
    let slots := s.descriptors.put i { bytes := d.bytes, seen := 0, generation := d.byte 56 }
    let notice := Notice.outcome i (d.byte 56) o
    (¬ complete → o = .incomplete) ∧
    (complete →
      (kind = 0 ∨ 5 ≤ kind → o = .badKind) ∧
      (kind = 1 → o = s.checkSurface d ∧ s.applyDescriptor d = s.takeSurface d) ∧
      (kind = 2 → o = s.checkHead d ∧ s.applyDescriptor d = s.takeHead d) ∧
      (kind = 3 → o = s.checkWithdrawSurface d ∧ s.applyDescriptor d = s.takeWithdrawSurface d) ∧
      (kind = 4 → o = checkWithdrawHead d ∧ s.applyDescriptor d = s.takeWithdrawHead d)) ∧
    (o = .taken →
      State.conclude i d s =
        ({ s.applyDescriptor d with descriptors := slots } : State).offerNotice notice) ∧
    (o ≠ .taken →
      State.conclude i d s = (({ s with descriptors := slots } : State).offerNotice notice).raise .announceRefused)

/-- The field checks of a SURFACE descriptor (R35): exactly the descriptors whose id, width, height, format, pitch
and base are in range pass them, every other one is refused with BAD_VALUE whatever the tables hold, and the entry
that passes has the descriptor's values. The fields are the slot's bytes 4, 5, 6 and 7, 8 and 9, 12 to 15, and 16 to
23, each an unsigned number with its least significant byte first; no other byte takes part (R167, TABLE 44). -/
def Obligations.SurfaceFieldChecks : Prop :=
  ∀ (d : DescriptorSlot) (s : State),
    let f := d.surfaceFields
    let bpp := if f.format = 1 then 4 else 2
    let good := f.id ≤ 15 ∧ (64 ≤ f.width ∧ f.width ≤ 4096 ∧ 32 ≤ f.height ∧ f.height ≤ 2304) ∧
      (f.format = 1 ∨ f.format = 2) ∧
      (f.width * bpp ≤ f.pitch ∧ 64 ∣ f.pitch ∧ f.pitch ≤ 65536) ∧
      (256 ∣ f.base ∧ f.base + f.pitch * f.height ≤ s.straps.channelSize)
    let number := fun a n : Nat => ((List.range n).map fun k => (d.byte (a + k)).toNat * 256 ^ k).sum
    f = { id := number 4 1, format := number 5 1, width := number 6 2, height := number 8 2,
          pitch := number 12 4, base := number 16 8 } ∧
    (¬ good ↔ s.checkSurface d = .badValue) ∧
    (good → ∃ id g, f.checked s.straps = some (id, g) ∧ id.1 = f.id ∧ g.base = f.base ∧
      g.pitch = f.pitch ∧ g.geometry.width = f.width ∧ g.geometry.height = f.height ∧
      (g.geometry.format = .f32 ↔ f.format = 1))

/-- The table checks of a SURFACE descriptor that passes R35, with the surface table sound: OVERLAP when any byte
of its range lies in another declared surface or in the announcement area (R36); else CAPACITY when the tiles of
all declared surfaces, this one standing in place of its old entry, exceed 98,304 (R37); else MISMATCH when its
id is in a flip set with another surface of another width, height or format (R38); else TAKEN (R31). -/
def Obligations.SurfaceTableChecks : Prop :=
  ∀ (d : DescriptorSlot) (s : State) (id : Fin 16) (f : Surface), s.surfacesSound →
    d.surfaceFields.checked s.straps = some (id, f) →
    let overlap := ∃ a, f.base ≤ a ∧ a < f.base + f.pitch * f.geometry.height ∧
      ((s.straps.areaBase ≤ a ∧ a < s.straps.areaBase + 1024) ∨
        ∃ j g, j ≠ id ∧ s.surfaces.look j = some g ∧ g.base ≤ a ∧ a < g.base + g.pitch * g.geometry.height)
    let tiles := ((List.finRange 16).map fun j =>
      if j = id then f.geometry.tileCount
      else match s.surfaces.look j with
        | some g => g.geometry.tileCount
        | none => 0).sum
    let mismatch := ∃ old h j g, s.surfaces.look id = some old ∧ old.owner = some h ∧ j ≠ id ∧
      j ∈ (s.heads.look h).flipSet ∧ s.surfaces.look j = some g ∧ g.geometry ≠ f.geometry
    (overlap → s.checkSurface d = .overlap) ∧
    (¬ overlap → 98304 < tiles → s.checkSurface d = .capacity) ∧
    (¬ overlap → tiles ≤ 98304 → mismatch → s.checkSurface d = .mismatch) ∧
    (¬ overlap → tiles ≤ 98304 → ¬ mismatch → s.checkSurface d = .taken)

/-- A taken SURFACE descriptor that has passed R35, with the head table sound. An EMPTY id becomes DECLARED with the
descriptor's values, no owning head and every tile stale, and nothing else changes (R39). A DECLARED one is replaced
in the steps of R40: its records are withdrawn; the entry takes the values, its owner kept, and is wholly stale; the
head that shows it goes to WAITING with no shown surface and its follower to SEEK with the stall timer restarted
(R68, R79); with another width, height or format the head's geometry follows, its quality map is EXACT and its rover
0 (R87); and after either, one HEAD frame for the head waits while the link is UP, its contents those of the moment
it was queued, so that after a lost shown surface it carries the geometry of before (R142, log 13). No other surface
and no other head changes. -/
def Obligations.SurfaceDescriptorTaken : Prop :=
  ∀ (d : DescriptorSlot) (s : State) (id : Fin 16) (f : Surface), s.headsSound →
    d.surfaceFields.checked s.straps = some (id, f) →
    let t := s.takeSurface d
    let entry := fun o : Option (Fin 4) =>
      ({ f with owner := o, stale := List.replicate f.geometry.tileCount true } : Surface)
    (s.surfaces.look id = none → t = { s with surfaces := s.surfaces.put id (some (entry none)) }) ∧
    (∀ old, s.surfaces.look id = some old →
      t.surfaces = s.surfaces.put id (some (entry old.owner)) ∧ s.withdraws (fun r => r.surface == id) t ∧
      (old.owner = none → t.heads = s.heads ∧ t.scans = s.scans ∧ t.rovers = s.rovers ∧
        t.link.control = s.link.control) ∧
      (∀ h, old.owner = some h →
        let k := s.heads.look h
        let c := s.scans.look h
        let shown := k.shown = some id
        let other := f.geometry ≠ old.geometry
        let state := if shown then .waiting else k.state
        t.heads = s.heads.put h { k with
          state := state
          shown := if shown then none else k.shown
          geometry := if other then some f.geometry else k.geometry
          quality := if other then List.replicate f.geometry.tileCount .exact else k.quality } ∧
        t.scans = (if shown then s.scans.put h { c with
            mode := .seek, cursor := 0, lastStart := none
            stall := some (s.budget.now +
              BitVec.ofNat 32 (if c.period = 0 then 200000 else max (4 * c.period) 50000)) }
          else s.scans) ∧
        t.rovers = (if other then s.rovers.put h 0 else s.rovers) ∧
        (s.link.state = .up → shown ∨ other → t.headFrameWaits h
          { head := h, state := state, flipSet := k.flipSet
            geometry := if shown then k.geometry else some f.geometry, period := c.period }) ∧
        (s.link.state ≠ .up ∨ ¬ (shown ∨ other) → t.link.control = s.link.control)))

/-- The checks of a HEAD descriptor, in their order, with the head table sound (R42): BAD_VALUE for a head, a count or
an id out of range; NO_SURFACE for an id that names no declared surface; BAD_VALUE for ids that are not distinct;
MISMATCH for surfaces of unlike width, height or format; IN_USE for an id in another head's flip set; else TAKEN. -/
def Obligations.HeadDescriptorChecks : Prop :=
  ∀ (d : DescriptorSlot) (s : State), s.headsSound →
    let n := (d.byte 5).toNat
    let named := fun k : Nat => (d.byte (6 + k)).toNat
    let inRange := (d.byte 4).toNat ≤ 3 ∧ 1 ≤ n ∧ n ≤ 3 ∧ ∀ k, k < n → named k ≤ 15
    (¬ inRange → s.checkHead d = .badValue) ∧
    (inRange → ∃ h ids, d.headFields = some (h, ids) ∧ h.1 = (d.byte 4).toNat ∧
      ids.map (·.1) = (List.range n).map named ∧
      let declared := ∀ id ∈ ids, s.surfaces.look id ≠ none
      let alike := ∀ id ∈ ids, ∀ id' ∈ ids, ∀ f g, s.surfaces.look id = some f → s.surfaces.look id' = some g →
        f.geometry = g.geometry
      let inUse := ∃ id ∈ ids, ∃ q, q ≠ h ∧ id ∈ (s.heads.look q).flipSet
      (¬ declared → s.checkHead d = .noSurface) ∧
      (declared → ¬ ids.Nodup → s.checkHead d = .badValue) ∧
      (declared → ids.Nodup → ¬ alike → s.checkHead d = .mismatch) ∧
      (declared → ids.Nodup → alike → inUse → s.checkHead d = .inUse) ∧
      (declared → ids.Nodup → alike → ¬ inUse → s.checkHead d = .taken))

/-- A taken HEAD descriptor for head `h` (R43, R68, R79, R87, R122 to R124, R129), with the tables sound: the records
of the old flip set are withdrawn; the flip set is the descriptor's ids in order, the geometry theirs; the head is
WAITING with no shown surface and its follower in SEEK with its stall timer restarted for 200,000 µs; every surface
of the set is owned by `h` and wholly stale, every other surface of the old set has no owner and keeps its marks;
the quality map is EXACT; the rover is 0; a HEAD frame with all of that waits while the link is UP; the recompute
request is set; and a head that was OFF starts with credit, demand and accumulator 0 and the shares recomputed. -/
def Obligations.HeadDescriptorTaken : Prop :=
  ∀ (d : DescriptorSlot) (s : State) (h : Fin 4) (ids : List (Fin 16)), s.headsSound →
    d.headFields = some (h, ids) → s.checkHead d = .taken →
    let t := s.takeHead d
    let old := (s.heads.look h).flipSet
    (∃ g, (t.heads.look h) =
        { state := .waiting, flipSet := ids, shown := none, geometry := some g,
          quality := List.replicate g.tileCount .exact } ∧
      (∀ id ∈ ids, ∃ f, s.surfaces.look id = some f ∧ f.geometry = g ∧
        t.surfaces.look id = some { f with owner := some h, stale := List.replicate g.tileCount true }) ∧
      (s.link.state = .up → t.headFrameWaits h
        { head := h, state := .waiting, flipSet := ids, geometry := some g, period := 0 })) ∧
    s.withdraws (fun r => old.contains r.surface) t ∧
    (∀ q, q ≠ h → t.heads.look q = s.heads.look q ∧ t.scans.look q = s.scans.look q) ∧
    (∀ id f, id ∉ ids → id ∈ old → s.surfaces.look id = some f →
      (∃ l, t.surfaces.look id = some { f with owner := none, stale := l }) ∧
      s.marksOf (fun r => r.releasedAtOnce = true) id t) ∧
    (∀ id, id ∉ ids → id ∉ old → t.surfaces.look id = s.surfaces.look id) ∧
    t.scans.look h =
      { mode := .seek, cursor := 0, lastStart := none, period := 0, frameCount := 0,
        stall := some (s.budget.now + 200000) } ∧
    t.rovers.look h = 0 ∧ t.budget.recompute = true ∧
    ((s.heads.look h).state = .off → (t.budget.heads.look h).credit = 0 ∧
      (t.budget.heads.look h).demand = 0 ∧ (t.budget.heads.look h).accumulator = 0 ∧ t.sharesSpendTheBudget)

/-- The two withdrawals (R44, R45): WITHDRAW SURFACE is refused for an id out of range, an EMPTY entry and an owned
surface, and otherwise only empties the entry; WITHDRAW HEAD is refused for a head out of range, changes nothing
for an OFF head, and takes any other head OFF, the records of its flip set withdrawn, its surfaces still DECLARED with
their base, pitch and geometry but without an owner and with no change of marks but the withdrawn records', every
other surface as it was, its follower and stall timer stopped, a HEAD frame for the OFF head waiting while the link is UP, its credit and
share 0, the shares recomputed and the recompute request set (R68, R124, R170). -/
def Obligations.WithdrawalsTaken : Prop :=
  (∀ (d : DescriptorSlot) (s : State),
    (16 ≤ (d.byte 4).toNat → s.checkWithdrawSurface d = .badValue) ∧
    (∀ id : Fin 16, (d.byte 4).toNat = id.1 →
      (s.surfaces.look id = none → s.checkWithdrawSurface d = .noSurface) ∧
      (∀ f, s.surfaces.look id = some f →
        (f.owner ≠ none → s.checkWithdrawSurface d = .inUse) ∧
        (f.owner = none → s.checkWithdrawSurface d = .taken)) ∧
      s.takeWithdrawSurface d = { s with surfaces := s.surfaces.put id none })) ∧
  (∀ (d : DescriptorSlot) (s : State),
    (4 ≤ (d.byte 4).toNat → checkWithdrawHead d = .badValue) ∧
    (∀ h : Fin 4, (d.byte 4).toNat = h.1 → checkWithdrawHead d = .taken ∧
      ((s.heads.look h).state = .off → s.takeWithdrawHead d = s) ∧
      ((s.heads.look h).state ≠ .off →
        let t := s.takeWithdrawHead d
        let set := (s.heads.look h).flipSet
        t.heads = s.heads.put h
          { state := .off, flipSet := [], shown := none, geometry := none, quality := [] } ∧
        s.withdraws (fun r => set.contains r.surface) t ∧
        (∀ id ∈ set, ∀ f, t.surfaces.look id = some f → f.owner = none) ∧
        (∀ id ∈ set, (t.surfaces.look id).map Surface.unmarked =
          (s.surfaces.look id).map fun f => { f.unmarked with owner := none }) ∧
        (∀ id, id ∉ set → t.surfaces.look id = s.surfaces.look id) ∧
        (∀ id, s.marksOf (fun r => set.contains r.surface = true ∧ r.releasedAtOnce = true) id t) ∧
        (t.scans.look h).mode = .none ∧ (t.scans.look h).stall = none ∧
        (t.scans.look h).frameCount = (s.scans.look h).frameCount ∧
        (s.link.state = .up → t.headFrameWaits h
          { head := h, state := .off, flipSet := [], geometry := none, period := 0 }) ∧
        (t.budget.heads.look h).credit = 0 ∧ (t.budget.heads.look h).share = 0 ∧
        t.sharesSpendTheBudget ∧ t.budget.recompute = true)))

/-- The withdrawal of records (R62 to R65), for any set of live records and any cause but link loss, and its causes
that are no descriptor: a CAPTURING record is abandoned and counted; a CAPTURED, DEFERRED or QUEUED one leaves its
list, the others keeping their order; each is released, its slot FREE and its tile marked, subject to R49; an
ENCODING one stays with its withdrawn flag set; a SENDING one stays as it is; no charge is refunded, no accumulator
changes, the surface table changes in those marks alone, and nothing else changes. A flip withdraws the records of the surface left (R73), and blind marking those that
are not CAPTURING, beside the whole marking of every declared surface (R58). -/
def Obligations.WithdrawalOfRecords : Prop :=
  (∀ (s : State) (p : Record → Bool),
    let t := s.withdrawWhere p
    s.withdraws p t ∧ (∀ id, s.marksOf (fun r => p r = true ∧ r.releasedAtOnce = true) id t) ∧ s.onlyMarks t ∧
    (∀ h, t.budget.heads.look h =
      { s.budget.heads.look h with deferred := (t.budget.heads.look h).deferred }) ∧
    t = { s with
      slots := t.slots
      surfaces := t.surfaces
      encodeQueue := t.encodeQueue
      budget := { s.budget with heads := t.budget.heads }
      link := { s.link with send := t.link.send }
      counters := { s.counters with capturesAbandoned := t.counters.capturesAbandoned } }) ∧
  (∀ (s : State) (h : Fin 4) (id old : Fin 16), (s.heads.look h).shown = some old →
    let shows := fun t : State =>
      ({ t with heads := t.heads.put h { t.heads.look h with state := .showing, shown := some id } } : State)
    (old ≠ id → s.frameStartHead h id = shows (s.withdrawWhere fun r => r.surface == old)) ∧
    (old = id → s.frameStartHead h id = shows s)) ∧
  (∀ s : State,
    s.withdraws (fun r => decide (r.state ≠ .capturing)) s.blindMarking ∧
    ∀ id, s.blindMarking.surfaces.look id = (s.surfaces.look id).map fun f =>
      { f with stale := List.replicate f.geometry.tileCount true })

/-- An observed write outside the announcement area, with the surface table sound (R46 to R48). A byte maps to the
tile of the visible pixel it lies in, and to none in padding or outside every declared surface. With no enabled
byte mapped the write changes nothing. With one mapped the tile is marked and no other mark changes, a CAPTURING
record of the tile is torn and counted, no other record changes, and one surface write is counted. -/
def Obligations.SurfaceWriteMarksItsTile : Prop :=
  ∀ (s : State) (o : WriteCompletion) (b : Burst),
    s.surfacesSound → s.recordsUnique → s.channel.following = .following →
    s.channel.writeBursts[o.burst]? = some b → s.straps.inArea b.address = false →
    let bytes := enabledBytes s.straps.beatBytes b.columns o.beats
    let taken : State := { s with channel := { s.channel with
      writeBursts := s.channel.writeBursts.eraseIdx o.burst } }
    (∀ a id c r, s.tileOfByte a = some (id, c, r) ↔
      ∃ f, s.surfaces.look id = some f ∧ f.base ≤ a ∧ a - f.base < f.pitch * f.geometry.height ∧
        (a - f.base) % f.pitch < f.geometry.lineBytes ∧
        c = (a - f.base) % f.pitch / f.geometry.format.bytesPerPixel / 32 ∧
        r = (a - f.base) / f.pitch / 32) ∧
    ((∀ x ∈ bytes, s.tileOfByte (b.address + x.1) = none) → exec (.observedWrite o) s = .next taken) ∧
    (∀ id c r, bytes.findSome? (fun x => s.tileOfByte (b.address + x.1)) = some (id, c, r) →
      ∃ t, exec (.observedWrite o) s = .next t ∧
        t = { taken with surfaces := t.surfaces, slots := t.slots, counters := t.counters } ∧
        t.isStale id c r = true ∧
        (∀ id' c' r', (id', c', r') ≠ (id, c, r) → t.isStale id' c' r' = s.isStale id' c' r') ∧
        (∀ i q, s.slots.look i = some q → q.surface = id → q.column = c → q.row = r → q.state = .capturing →
          t.slots = s.slots.put i none ∧
          t.counters.capturesTorn = saturatingAdd s.counters.capturesTorn 1) ∧
        ((∀ i q, s.slots.look i = some q → q.surface = id → q.column = c → q.row = r →
            q.state ≠ .capturing) →
          t.slots = s.slots ∧ t.counters.capturesTorn = s.counters.capturesTorn) ∧
        t.counters.surfaceWrites = saturatingAdd s.counters.surfaceWrites 1)

/-! ### The Scan Follower -/

/-- A frame start (R71 to R74, R79): a read of line 0 of a surface of head `h`'s flip set, when the follower is in
SEEK, or in TRACK past line 0. In the order of R72: the frame period is measured; the head's CAPTURING records are
abandoned, counted and their tiles marked (R98), which gives `a`; at a flip the records of the surface left are
withdrawn and their tiles marked (R62 to R65), which gives `u`; the head is SHOWING the surface, the follower in TRACK
at line 0 with one more frame counted, and when the head was not SHOWING, or the period became known or unknown, a
HEAD frame with the new period waits while the link is UP, which gives `v`; then come the band start of band 0, the
fill of the read, the restart of the stall timer and the send decision. So a slot freed is FREE or holds a record of
that band start, an ENCODING record of the surface left is flagged, a SENDING one stays, both kinds of release of a
CAPTURING record are counted, and every other record past CAPTURING keeps its slot. No other head and no other
follower changes. -/
def Obligations.FrameStartOnARead : Prop :=
  ∀ (s : State) (o : ReadCompletion) (b : Burst) (id : Fin 16) (f : Surface) (h : Fin 4),
    s.channel.following = .following → s.channel.readBursts[o.burst]? = some b →
    s.surfaceAt b.address = some id → s.surfaces.look id = some f → f.owner = some h →
    b.address - f.base < f.pitch →
    (s.scans.look h).mode = .seek ∨ ((s.scans.look h).mode = .track ∧ 1 ≤ (s.scans.look h).cursor) →
    let c := s.scans.look h
    let d := s.heads.look h
    let now := s.budget.now
    let period := match c.lastStart with
      | none => c.period
      | some e => if 1000 ≤ (now - e).toNat ∧ (now - e).toNat ≤ 100000 then (now - e).toNat else 0
    let leaves := fun r : Record => decide (d.shown = some r.surface ∧ r.surface ≠ id)
    let frame : HeadFrame :=
      { head := h, state := .showing, flipSet := d.flipSet, geometry := d.geometry, period := period }
    let announced := d.state ≠ .showing ∨ ¬ (c.period = 0 ↔ period = 0)
    let started : Scan :=
      { mode := .track, cursor := 0, lastStart := some now, period := period,
        frameCount := saturatingAdd c.frameCount 1, stall := c.stall }
    let restarted : Scan := { started with
      stall := some (now + BitVec.ofNat 32 (if period = 0 then 200000 else max (4 * period) 50000)) }
    ∃ a u v t : State, exec (.observedRead o) s = .next t ∧
      a = { s with
        channel := { s.channel with readBursts := s.channel.readBursts.eraseIdx o.burst }
        slots := a.slots
        surfaces := a.surfaces
        counters := { s.counters with capturesAbandoned := a.counters.capturesAbandoned } } ∧
      s.abandons (fun r => r.head == h) a ∧
      (∀ k, s.marksOf (fun r => r.state = .capturing ∧ r.head = h) k a) ∧ s.onlyMarks a ∧
      u = (match d.shown with
        | some old => if old = id then a else a.withdrawWhere fun r => r.surface == old
        | none => a) ∧
      (∀ k, a.marksOf (fun r => leaves r = true ∧ r.releasedAtOnce = true) k u) ∧
      v = { u with
        heads := s.heads.put h { d with state := .showing, shown := some id }
        scans := s.scans.put h started
        link := { u.link with control := v.link.control }
        counters := { u.counters with answersDropped := v.counters.answersDropped } } ∧
      (s.link.state = .up → announced → v.headFrameWaits h frame) ∧
      (s.link.state ≠ .up ∨ ¬ announced →
        v.link.control = s.link.control ∧ v.counters.answersDropped = s.counters.answersDropped) ∧
      (let w := (v.bandStart h 0).fillRead id 0 (b.address - f.base)
         (reorderedBytes s.straps.beatBytes b o.beats)
       t = ({ w with scans := s.scans.put h restarted } : State).sendDecision) ∧
      t.heads = s.heads.put h { d with state := .showing, shown := some id } ∧
      t.scans = s.scans.put h restarted ∧
      t.counters.strayReads = s.counters.strayReads ∧
      t.counters.capturesAbandoned = saturatingAdd s.counters.capturesAbandoned
        (allSlots.countP fun i => s.holds .capturing (fun r => r.head == h || leaves r) i) ∧
      (s.slotsInPlace → ∀ i r, s.slots.look i = some r →
        ((r.state = .capturing ∧ r.head = h) ∨
            (leaves r = true ∧ r.state ≠ .encoding ∧ r.state ≠ .sending) →
          ∀ q, t.slots.look i = some q → q.head = h ∧ q.surface = id ∧ q.row = 0) ∧
        (leaves r = true → r.state = .encoding → t.slots.look i = some { r with withdrawn := true }) ∧
        (leaves r = true → r.state = .sending → t.slots.look i = some r) ∧
        (leaves r = false → r.state ≠ .capturing → ∃ st, t.slots.look i = some { r with state := st })) ∧
      (s.link.state = .up → announced →
        ControlFrame.head frame ∈ t.link.control ∨ t.link.wire = .control (.head frame))

/-- Reads that start no frame (R69, R75, R77, R25). In TRACK a read of the shown surface at or past the cursor is a
scan read: the cursor becomes its line. A read of the shown surface below the cursor, of another surface of the
set, and any other than line 0 in SEEK is stray: it is counted and changes nothing else. A read in no declared
surface, or of one without an owner, and a read that completes outside FOLLOWING, changes nothing. Which of
the bursts completes the command says (R7, R26); with no burst at the place named nothing happens (log 6). -/
def Obligations.ReadsInsideAFrame : Prop :=
  (∀ (s : State) (o : ReadCompletion), s.channel.readBursts[o.burst]? = none →
    exec (.observedRead o) s = .next s) ∧
  (∀ (s : State) (o : ReadCompletion) (b : Burst),
    s.channel.readBursts[o.burst]? = some b →
    let taken : State := { s with channel := { s.channel with
      readBursts := s.channel.readBursts.eraseIdx o.burst } }
    (s.channel.following ≠ .following ∨ s.surfaceAt b.address = none ∨
        (∃ id f, s.surfaceAt b.address = some id ∧ s.surfaces.look id = some f ∧ f.owner = none) →
      exec (.observedRead o) s = .next taken) ∧
    (∀ id f h, s.channel.following = .following → s.surfaceAt b.address = some id →
      s.surfaces.look id = some f → f.owner = some h →
      let line := (b.address - f.base) / f.pitch
      let c := s.scans.look h
      let shown := (s.heads.look h).shown
      (c.mode = .track → shown = some id → c.cursor ≤ line →
        ∃ t, exec (.observedRead o) s = .next t ∧ t.scans = s.scans.put h { c with cursor := line } ∧
          t.heads = s.heads ∧ t.link = s.link ∧ t.budget = s.budget ∧
          t.counters.strayReads = s.counters.strayReads) ∧
      ((c.mode = .track ∧ shown = some id ∧ line < c.cursor ∧ line ≠ 0) ∨
          (c.mode = .track ∧ shown ≠ some id ∧ ¬ (line = 0 ∧ 1 ≤ c.cursor)) ∨
          (c.mode = .seek ∧ line ≠ 0) →
        exec (.observedRead o) s = .next { taken with
          counters := s.counters.store .strayReads (saturatingAdd s.counters.strayReads 1) })))

/-- The stall timer's expiry (R80), taken at the time base as it stands once that has reached it, be it late: the
model's choice (log 2). A WAITING head's timer is restarted under R79 and nothing else changes. A SHOWING head
becomes STALLED: its CAPTURING records are abandoned and counted and their tiles marked, and nothing else of the
surface table changes (R98), every other record stays, its follower is in SEEK at line 0 with no last frame start and the period kept, its timer is stopped, a HEAD frame with state STALLED and the
kept period waits or is on the wire while the link is UP, and HEAD_STALLED is latched. A stopped timer does not
expire: the model's choice (log 2). -/
def Obligations.StallTimerExpiry : Prop :=
  ∀ (s : State) (h : Fin 4),
    let c := s.scans.look h
    let d := s.heads.look h
    (c.stall = none → exec (.stallTimerExpiry h) s = .next s) ∧
    (∀ e, c.stall = some e → timeReached s.budget.now e = true →
      (d.state = .waiting →
        exec (.stallTimerExpiry h) s = .next { s with
          scans := s.scans.put h { c with stall := some (s.budget.now +
            BitVec.ofNat 32 (if c.period = 0 then 200000 else max (4 * c.period) 50000)) } }) ∧
      (d.state = .showing →
        let frame : HeadFrame :=
          { head := h, state := .stalled, flipSet := d.flipSet, geometry := d.geometry, period := c.period }
        ∃ t, exec (.stallTimerExpiry h) s = .next t ∧
          t.heads = s.heads.put h { d with state := .stalled } ∧
          t.scans = s.scans.put h { c with mode := .seek, cursor := 0, lastStart := none, stall := none } ∧
          (∀ i r, t.slots.look i = some r → ¬ (r.head = h ∧ r.state = .capturing)) ∧
          (∀ i r, s.slots.look i = some r → ¬ (r.head = h ∧ r.state = .capturing) →
            t.slots.look i = some r) ∧
          s.abandons (fun r => r.head == h) t ∧
          (∀ id, s.marksOf (fun r => r.state = .capturing ∧ r.head = h) id t) ∧ s.onlyMarks t ∧
          t.latched .headStalled = true ∧
          (s.link.state = .up →
            ControlFrame.head frame ∈ t.link.control ∨ t.link.wire = .control (.head frame))))

/-! ### The Capture Unit -/

/-- A band start (R87 to R91). With the head not SHOWING or the link not UP it changes nothing. Admitted, its
candidates are, in this order: with the override active and the pointer's tile on this head within one row, the
stale tiles without a live record within one column of it, left to right; the other stale tiles without one, in the
rover's order; and, with refinement on, the override inactive and the credit at least half the cap, the tiles
without one whose mark is clear and whose quality entry is REDUCED, in the rover's order. It allocates k records, k
being 0 at or above the quota and otherwise the least of the FREE slots, the quota less the slots held, and the
candidates: the first k candidates receive the lowest-numbered FREE slots in turn, each a fresh CAPTURING record
with its tile's mark cleared, and no other slot and no other mark changes. The rover goes past the last tile so
allocated from the second step, or stays. -/
def Obligations.BandStartAllocates : Prop :=
  (∀ (s : State) (h : Fin 4) (n : Nat), (s.heads.look h).state ≠ .showing ∨ s.link.state ≠ .up →
    s.bandStart h n = s) ∧
  (∀ (s : State) (h : Fin 4) (n : Nat) (id : Fin 16) (f : Surface),
    (s.heads.look h).state = .showing → s.link.state = .up → (s.heads.look h).shown = some id →
    s.surfaces.look id = some f →
    let rover := s.rovers.look h
    let b : BandStart := { head := h, surface := id, band := n, entry := f, rover := rover }
    let t := s.bandStart h n
    let columns := f.geometry.tileColumns
    let unserved := fun c : Nat => ∀ i r, s.slots.look i = some r →
      ¬ (r.surface = id ∧ r.column = c ∧ r.row = n)
    let near := fun c : Nat => s.budget.overrideActive = true ∧ ∃ pc pr, s.pointerTile = some (h, pc, pr) ∧
      pr ≤ n + 1 ∧ n ≤ pr + 1 ∧ pc ≤ c + 1 ∧ c ≤ pc + 1
    let refines := (s.link.current.heads.look h).refine = true ∧ s.budget.overrideActive = false ∧
      (s.budget.heads.look h).cap ≤ (s.budget.heads.look h).credit * 2
    let inOrder := List.Pairwise fun c c' => roverPlace rover columns c < roverPlace rover columns c'
    let quota := (s.link.current.heads.look h).quota
    let free := allSlots.countP fun i => (s.slots.look i).isNone
    let cs := s.candidates b
    let k := if quota ≤ s.held h then 0 else min free (min (quota - s.held h) cs.length)
    (∃ l1 l2 l3 : List Nat,
      cs = l1.map (fun c => { column := c, kind := .new, fromRover := false })
        ++ l2.map (fun c => { column := c, kind := .new, fromRover := true })
        ++ l3.map (fun c => { column := c, kind := .refine, fromRover := false }) ∧
      (∀ c, c ∈ l1 ↔ c < columns ∧ f.isStale c n = true ∧ unserved c ∧ near c) ∧
      (∀ c, c ∈ l2 ↔ c < columns ∧ f.isStale c n = true ∧ unserved c ∧ ¬ near c) ∧
      (∀ c, c ∈ l3 ↔ c < columns ∧ f.isStale c n = false ∧ unserved c ∧ refines ∧
        (s.heads.look h).qualityOf c n = some .reduced) ∧
      l1.Pairwise (· < ·) ∧ inOrder l2 ∧ inOrder l3) ∧
    (∃ slots : List (Fin 64), slots.Pairwise (· < ·) ∧ (∀ i, i ∈ slots ↔ s.slots.look i = none) ∧
      (∀ (j : Nat) (i : Fin 64) (c : Candidate), j < k → slots[j]? = some i → cs[j]? = some c →
        t.slots.look i = some (freshRecord h id f n c) ∧ t.isStale id c.column n = false) ∧
      (∀ (j : Nat) (i : Fin 64), k ≤ j → slots[j]? = some i → t.slots.look i = none)) ∧
    t.held h = s.held h + k ∧ (∀ q, q ≠ h → t.held q = s.held q) ∧
    (∀ i r, s.slots.look i = some r → t.slots.look i = some r) ∧
    (∀ i r, s.slots.look i = none → t.slots.look i = some r →
      r.head = h ∧ r.surface = id ∧ r.row = n ∧ r.state = .capturing ∧ r.withdrawn = false ∧
      r.received = 0 ∧ r.coded = none ∧ t.isStale id r.column n = false ∧
      s.liveSlot id r.column n = none ∧
      (r.kind = .new → s.isStale id r.column n = true) ∧
      (r.kind = .refine → s.isStale id r.column n = false ∧
        (s.heads.look h).qualityOf r.column n = some .reduced ∧ s.refineAllowed h = true)) ∧
    (∀ id' c w, (∀ x ∈ cs.take k, ¬ (id' = id ∧ c = x.column ∧ w = n)) →
      t.isStale id' c w = s.isStale id' c w) ∧
    t.rovers = s.rovers.put h (match ((cs.take k).filter (·.fromRover)).getLast? with
      | some c => (c.column + 1) % columns
      | none => rover) ∧
    t = { s with slots := t.slots, surfaces := t.surfaces, rovers := t.rovers })

/-- A scan read (R75, R76, R93 to R95, R97). When it carries the cursor into a later band, the band left ends: the
head's CAPTURING records in that tile row are abandoned and counted and their tiles marked; and when its line is the first of its band, that
band starts. The cursor becomes its line, and the group is filled: in padding, or without a CAPTURING record of its
tile, it changes nothing. Else every visible byte of the group is stored, no other stored byte changes, the fill
units the group covers are marked and no other mark changes; and once every required fill unit is marked the capture
is counted as completed, and the record is CAPTURED at the tail of the encode queue, or taken at once by an IDLE
encoder with an empty queue (R113). Nothing else changes. -/
def Obligations.ScanReadFillsARecord : Prop :=
  (∀ (r : Record) (l off : Nat) (data : List Byte), r.pixels.wf → l < 32 → 8 ∣ off → 8 ∣ data.length →
     off + data.length ≤ 128 →
     let q := r.fill l off data
     (∀ (k : Nat) (v : Byte), data[k]? = some v → off + k < r.tw * r.format.bytesPerPixel →
       Buffer.read q.pixels (128 * l + (off + k)) = v) ∧
     (∀ a, (∀ k, k < data.length → off + k < r.tw * r.format.bytesPerPixel → a ≠ 128 * l + (off + k)) →
       Buffer.read q.pixels a = Buffer.read r.pixels a) ∧
     (∀ m u, m < 32 → u < 16 →
       (q.received.getLsbD (16 * m + u) = true ↔
         r.received.getLsbD (16 * m + u) = true ∨
           (m = l ∧ off ≤ 8 * u ∧ 8 * u < off + data.length))) ∧
     q = { r with pixels := q.pixels, received := q.received }) ∧
  (∀ (s : State) (o : ReadCompletion) (b : Burst) (id : Fin 16) (f : Surface) (h : Fin 4),
    s.channel.following = .following → s.channel.readBursts[o.burst]? = some b →
    s.surfaceAt b.address = some id → s.surfaces.look id = some f → f.owner = some h →
    let line := (b.address - f.base) / f.pitch
    let c := s.scans.look h
    c.mode = .track → (s.heads.look h).shown = some id → c.cursor ≤ line →
    let taken : State := { s with channel := { s.channel with
      readBursts := s.channel.readBursts.eraseIdx o.burst } }
    let ends := c.cursor / 32 < line / 32
    let ended := if ends then taken.bandEnd h (c.cursor / 32) else taken
    let started := if ends ∧ line % 32 = 0 then ended.bandStart h (line / 32) else ended
    exec (.observedRead o) s =
      .next (({ started with scans := s.scans.put h { c with cursor := line } } : State).fillRead id line
        ((b.address - f.base) % f.pitch) (reorderedBytes s.straps.beatBytes b o.beats))) ∧
  (∀ (s : State) (h : Fin 4) (n : Nat),
    let p := fun r : Record => r.head == h && r.row == n
    let t := s.bandEnd h n
    s.abandons p t ∧ (∀ id, s.marksOf (fun r => p r = true ∧ r.state = .capturing) id t) ∧ s.onlyMarks t ∧
    t = { s with slots := t.slots, surfaces := t.surfaces, counters := { s.counters with
      capturesAbandoned := t.counters.capturesAbandoned } }) ∧
  (∀ (s : State) (id : Fin 16) (f : Surface) (line xb : Nat) (data : List Byte), s.surfaces.look id = some f →
    let bpp := f.geometry.format.bytesPerPixel
    let fits := fun r : Record =>
      r.surface = id ∧ r.column = xb / bpp / 32 ∧ r.row = line / 32 ∧ r.state = .capturing
    let t := s.fillRead id line xb data
    (f.geometry.width * bpp ≤ xb → t = s) ∧
    ((∀ i r, s.slots.look i = some r → ¬ fits r) → t = s) ∧
    (∀ i r, s.recordsUnique → xb < f.geometry.width * bpp → s.slots.look i = some r → fits r →
      let q := r.fill (line % 32) (xb % (32 * bpp)) data
      let whole := ∀ l u, l < r.th → 8 * u < r.tw * r.format.bytesPerPixel →
        q.received.getLsbD (16 * l + u) = true
      let counters := s.counters.store .capturesCompleted (saturatingAdd s.counters.capturesCompleted 1)
      (¬ whole → t = { s with slots := s.slots.put i (some q) }) ∧
      (whole → s.encoder ≠ none → t = { s with
        slots := s.slots.put i (some { q with state := .captured })
        encodeQueue := s.encodeQueue ++ [i]
        counters := counters }) ∧
      (whole → s.encoder = none → s.encodeQueue = [] → t = { s with
        slots := s.slots.put i (some { q with state := .encoding })
        encoder := some i
        counters := counters })))

/-! ### The Tile Coder -/

/-- The encode decision (R130, R131): behind a deferred record the record is DEFERRED; else EXACT when the exact frame
fits the credit; else REDUCED, for a NEW record of a head that is not exact-only, when the reduced frame fits;
else DEFERRED. A charge lowers the credit and raises the accumulator by the frame size and queues the record at
the tail of the send FIFO, which with the wire idle takes a send decision (R145); a deferral raises the accumulator
by the exact frame size and puts the record, with age 0, at the tail of the deferral list. -/
def Obligations.EncodeDecision : Prop :=
  ∀ (s : State) (i : Fin 64) (r : Record) (f : CodedForms),
    let h := r.head
    let b := s.budget.heads.look h
    let e := f.exact.length + 12
    let q := f.reduced.length + 12
    let reducedFits := r.kind = .new ∧ (s.link.current.heads.look h).exactOnly = false ∧ q ≤ b.credit
    let queued := fun d : Decision => ({ s with
      slots := s.slots.upd i (Option.map fun r => { r with state := .queued, decision := some d })
      budget := { s.budget with heads := s.budget.heads.put h { b with
        credit := b.credit - d.frameSize, accumulator := b.accumulator + d.frameSize } }
      link := { s.link with send := s.link.send.put h (s.link.send.look h ++ [i]) } } : State)
    let deferred : State := { s with
      slots := s.slots.upd i (Option.map fun r => { r with state := .deferred, age := 0 })
      budget := { s.budget with heads := s.budget.heads.put h { b with
        deferred := b.deferred ++ [i], accumulator := b.accumulator + e } } }
    (b.deferred ≠ [] → s.encodeDecision i r f = deferred) ∧
    (b.deferred = [] → e ≤ b.credit →
      s.encodeDecision i r f = (queued { code := .exact, frameSize := e }).sendDecision) ∧
    (b.deferred = [] → ¬ e ≤ b.credit → reducedFits →
      s.encodeDecision i r f = (queued { code := .reduced, frameSize := q }).sendDecision) ∧
    (b.deferred = [] → ¬ e ≤ b.credit → ¬ reducedFits → s.encodeDecision i r f = deferred)

/-- Encode completion (R114, R64, R113), with every slot in its place. A withdrawn record is released without a
decision: its slot is FREE, its tile is stale, and no credit and no accumulator changes. Any other record keeps
both payloads and is QUEUED, or SENDING already, when its exact frame, or for a NEW record its reduced one, is
charged, and DEFERRED otherwise. The encoder takes the next record of its queue or is IDLE. An IDLE encoder
completes nothing (log 21). -/
def Obligations.EncodeCompletion : Prop :=
  (∀ s : State, s.encoder = none → exec .encodeCompletion s = .next s) ∧
  (∀ (s : State) (i : Fin 64) (r : Record), s.slotsInPlace → s.encoder = some i → s.slots.look i = some r →
    let b := s.budget.heads.look r.head
    let forms : CodedForms := { exact := r.payload .exact, reduced := r.payload .reduced }
    let e := forms.exact.length + 12
    let q := forms.reduced.length + 12
    let reducedFits := r.kind = .new ∧ (s.link.current.heads.look r.head).exactOnly = false ∧ q ≤ b.credit
    ∃ t, exec .encodeCompletion s = .next t ∧
      (s.encodeQueue = [] → t.encoder = none ∧ t.encodeQueue = []) ∧
      (∀ j rest, s.encodeQueue = j :: rest → t.encoder = some j ∧ t.encodeQueue = rest ∧
        ∃ x, t.slots.look j = some x ∧ x.state = .encoding) ∧
      (r.withdrawn = true → t.slots.look i = none ∧ t.budget = s.budget ∧
        ∀ f, s.surfaces.look r.surface = some f → f.geometry.hasTile r.column r.row = true →
          f.stale.length = f.geometry.tileCount → t.isStale r.surface r.column r.row = true) ∧
      (r.withdrawn = false → ∃ x, t.slots.look i = some x ∧ x.coded = some forms ∧
        (b.deferred = [] → e ≤ b.credit →
          (x.state = .queued ∨ x.state = .sending) ∧
          x.decision = some { code := .exact, frameSize := e } ∧
          t.budget.heads.look r.head =
            { b with credit := b.credit - e, accumulator := b.accumulator + e }) ∧
        (b.deferred = [] → ¬ e ≤ b.credit → reducedFits →
          (x.state = .queued ∨ x.state = .sending) ∧
          x.decision = some { code := .reduced, frameSize := q } ∧
          t.budget.heads.look r.head =
            { b with credit := b.credit - q, accumulator := b.accumulator + q }) ∧
        (b.deferred ≠ [] ∨ (¬ e ≤ b.credit ∧ ¬ reducedFits) →
          x.state = .deferred ∧ x.age = 0 ∧
          t.budget.heads.look r.head =
            { b with deferred := b.deferred ++ [i], accumulator := b.accumulator + e })))

/-- The pixels, the tokens and their bytes. The pixels of a record are those of its visible tile in raster order, an
exact one its bytes red, green and blue or its two bytes as in memory, a reduced one its quantised channels in two
bytes or in one (R102, R103, R105, R106). At each position the token is ABOVE, SAME or LITERAL by the two runs there,
a LITERAL ending at the first place that R108 names (R107, R108); its bytes are its kind and length and the pixels it
carries (R109). The tokens cover every position once each, in order, and each token's length is from 1 to 64 (R108). A
payload is at most N * (1 + p) bytes, so a record's is at most 4,096 bytes exact and 3,072 reduced in F32 and 3,072 and
2,048 in F16, for a tile of at most 32 by 32 pixels (R110, TABLE 24). -/
def Obligations.TokensCoverTheTile : Prop :=
  (∀ (r : Record) (c : Code), (r.pixelList c).length = r.th * r.tw ∧
    r.payload c = payloadOf r.tw (r.pixelList c) ∧
    ∀ x l, x < r.tw → l < r.th →
      let mem := fun k : Nat => Buffer.read r.pixels (128 * l + k)
      let q := fun (w w' v : Nat) => (v * (2 ^ w' - 1) + (2 ^ w - 1) / 2) / (2 ^ w - 1)
      let value := (mem (2 * x)).toNat + 256 * (mem (2 * x + 1)).toNat
      let pixel : Pixel := match r.format, c with
        | .f32, .exact => [mem (4 * x + 2), mem (4 * x + 1), mem (4 * x)]
        | .f16, .exact => [mem (2 * x), mem (2 * x + 1)]
        | .f32, .reduced =>
          [BitVec.ofNat 8 (16 * q 8 4 (mem (4 * x + 2)).toNat + q 8 4 (mem (4 * x + 1)).toNat),
            BitVec.ofNat 8 (16 * q 8 4 (mem (4 * x)).toNat)]
        | .f16, .reduced =>
          [BitVec.ofNat 8 (32 * q 5 3 (value / 2048) + 4 * q 6 3 (value / 32 % 64) + q 5 2 (value % 32))]
      (r.pixelList c)[l * r.tw + x]? = some pixel) ∧
  (∀ (tw p : Nat) (ps : List Pixel),
    let ts := tokens ps.length (positions tw ps)
    let limit := fun i : Nat => min 64 (ps.length - i)
    let above := fun i : Nat => runOf (limit i) (fun j => decide (tw ≤ j) && ps[j]? == ps[j - tw]?) i
    let same := fun i : Nat => runOf (limit i) (fun j => ps[j]? == ps[i]?) i
    (∀ k t, ts[k]? = some t →
      let i := ((ts.take k).map Token.length).sum
      let ends := fun m : Nat => m = 64 ∨ i + m = ps.length ∨ 2 ≤ above (i + m) ∨ 2 ≤ same (i + m)
      (2 ≤ above i → same i ≤ above i → t = .above (above i)) ∧
      (¬ (2 ≤ above i ∧ same i ≤ above i) → 2 ≤ same i →
        ∃ x, ps[i]? = some x ∧ t = .same (same i) x) ∧
      (¬ (2 ≤ above i ∧ same i ≤ above i) → same i < 2 →
        ∃ m, 1 ≤ m ∧ ends m ∧ (∀ n, 1 ≤ n → n < m → ¬ ends n) ∧ t = .literal ((ps.drop i).take m))) ∧
    payloadOf tw ps = ts.flatMap (fun t => match t with
      | .literal l => BitVec.ofNat 8 (l.length - 1) :: l.flatten
      | .same n x => BitVec.ofNat 8 (64 + (n - 1)) :: x
      | .above n => [BitVec.ofNat 8 (128 + (n - 1))]) ∧
    (ts.map Token.length).sum = ps.length ∧ (∀ t ∈ ts, 1 ≤ t.length ∧ t.length ≤ 64) ∧
      ((∀ x ∈ ps, x.length = p) → (payloadOf tw ps).length ≤ ps.length * (1 + p))) ∧
  (∀ r : Record, r.tw ≤ 32 → r.th ≤ 32 →
    (r.format = .f32 → (r.payload .exact).length ≤ 4096 ∧ (r.payload .reduced).length ≤ 3072) ∧
    (r.format = .f16 → (r.payload .exact).length ≤ 3072 ∧ (r.payload .reduced).length ≤ 2048))

/-- What the desk reads from a payload is the tile: the bytes of the payload of any list of pixels of one size,
parsed into tokens and expanded as chapter 6 says the desk does, are those pixels again, for every tile width
(R106 to R109). -/
def Obligations.DeskRebuildsTheTile : Prop :=
  ∀ (tw p : Nat) (ps : List Pixel), 1 ≤ tw → 1 ≤ p → (∀ x ∈ ps, x.length = p) →
    rebuildPixels tw (deskTokens (payloadOf tw ps).length p (payloadOf tw ps)) [] = ps

/-- The quantiser (R104): the value scaled onto the reduced range and rounded to the nearest integer, with no tie;
0 gives 0, the largest value gives the largest, it never decreases; and two reduced pixels are equal exactly when
all three quantised channels are (R104, R105). -/
def Obligations.QuantiserRounds : Prop :=
  (∀ w w' : Nat, (w, w') ∈ [(8, 4), (5, 3), (6, 3), (5, 2)] →
    quantise w w' 0 = 0 ∧ quantise w w' (2 ^ w - 1) = 2 ^ w' - 1 ∧
    (∀ v u, v ≤ u → quantise w w' v ≤ quantise w w' u) ∧
    (∀ v, v < 2 ^ w →
      quantise w w' v = (v * (2 ^ w' - 1) + (2 ^ w - 1) / 2) / (2 ^ w - 1) ∧
      2 * (quantise w w' v * (2 ^ w - 1)) < 2 * (v * (2 ^ w' - 1)) + (2 ^ w - 1) ∧
      2 * (v * (2 ^ w' - 1)) < 2 * (quantise w w' v * (2 ^ w - 1)) + (2 ^ w - 1))) ∧
  (∀ b g r b' g' r' : Byte, reducedPixel32 b g r = reducedPixel32 b' g' r' ↔
    quantise 8 4 b.toNat = quantise 8 4 b'.toNat ∧ quantise 8 4 g.toNat = quantise 8 4 g'.toNat ∧
      quantise 8 4 r.toNat = quantise 8 4 r'.toNat) ∧
  (∀ lo hi lo' hi' : Byte,
    let v := lo.toNat + 256 * hi.toNat
    let v' := lo'.toNat + 256 * hi'.toNat
    reducedPixel16 lo hi = reducedPixel16 lo' hi' ↔
      quantise 5 2 (v % 32) = quantise 5 2 (v' % 32) ∧
      quantise 6 3 (v / 32 % 64) = quantise 6 3 (v' / 32 % 64) ∧
      quantise 5 3 (v / 2048) = quantise 5 3 (v' / 2048))

/-! ### The Budget Unit -/

/-- A recomputation of the shares (R124, R126 to R128), in either mode and for every demand, class and weight: OFF heads
get 0, the ON heads' shares sum to exactly the link budget in force, in dynamic mode every ON head gets at least
a sixty-fourth of it, every cap is max(4 * share, 8,192) and every credit is clamped to its cap; nothing else
changes. And EPOCH_END standing alone (R117, R123, R124; log 3): the tick count is 0, every head's demand is formed
from its accumulator and the accumulators are 0, the shares are recomputed and the request cleared; nothing else
changes. -/
def Obligations.RecomputationAndEpochEnd : Prop :=
  (∀ s : State,
     let t := s.recomputeShares
     t.sharesSpendTheBudget ∧
     (∀ h, s.link.current.mode = .dynamic → s.isOn h = true →
       s.link.current.budget / 64 ≤ (t.budget.heads.look h).share) ∧
     (∀ h, t.budget.heads.look h = { s.budget.heads.look h with
       share := (t.budget.heads.look h).share
       cap := max (4 * (t.budget.heads.look h).share) 8192
       credit := min (s.budget.heads.look h).credit (max (4 * (t.budget.heads.look h).share) 8192) }) ∧
     t = { s with budget := { s.budget with heads := t.budget.heads } }) ∧
  (∀ s : State, ∃ t, exec .epochEnd s = .next t ∧
     t = { s with budget := { s.budget with
       epochTicks := 0, recompute := false, heads := t.budget.heads } } ∧
     t.sharesSpendTheBudget ∧
     ∀ h,
       let b := s.budget.heads.look h
       let c := t.budget.heads.look h
       c.demand = (if s.isOn h then (b.accumulator + 15) / 16 else 0) ∧ c.accumulator = 0 ∧
         c.cap = max (4 * c.share) 8192 ∧ c.credit = min b.credit c.cap ∧ c.deferred = b.deferred)

/-- The shares by mode, with a head ON. In static mode (R125) each ON head receives floor(B * w / sum of w), and the
remainder is added to the share of one ON head; demand takes no part. In dynamic mode (R126) each receives a floor of
B / 64; then, class by class, its need beyond the floor while the class's needs fit what is left, else a part of what
is left in proportion to its need, every later class then receiving nothing; then a part of the leftover by weight,
and one ON head what still remains. That one is of the highest class, and within it the lowest-numbered (R121). -/
def Obligations.SharesByMode : Prop :=
  ∀ s : State, (∃ h, s.isOn h) →
    let B := s.link.current.budget
    let w := fun h : Fin 4 => (s.link.current.heads.look h).weight
    let cls := fun h : Fin 4 => (s.link.current.heads.look h).cls
    let on := allHeads.filter fun h => s.isOn h
    let total := (on.map w).sum
    let byWeightOf := fun amount : Nat => (on.map fun h => amount * w h / total).sum
    let share := fun h : Fin 4 => (s.recomputeShares.budget.heads.look h).share
    ∃ r, s.isOn r = true ∧
      (∀ q, s.isOn q = true → (cls r).place < (cls q).place ∨ ((cls r).place = (cls q).place ∧ r ≤ q)) ∧
      (s.link.current.mode = .static → ∀ h, s.isOn h = true →
        share h = B * w h / total + if h = r then B - byWeightOf B else 0) ∧
      (s.link.current.mode = .dynamic →
        let f := B / 64
        let need := fun h : Fin 4 => (s.budget.heads.look h).demand - f
        let heads := fun c : HeadClass => on.filter fun h => cls h = c
        let needs := fun c : HeadClass => ((heads c).map need).sum
        let given := fun (R : Nat) (c : HeadClass) (h : Fin 4) =>
          if needs c ≤ R then need h else R * need h / needs c
        let spent := fun (R : Nat) (c : HeadClass) => ((heads c).map (given R c)).sum
        let R0 := B - on.length * f
        let R1 := R0 - spent R0 .critical
        let highServed := needs .critical ≤ R0
        let R2 := if highServed then R1 - spent R1 .high else R1
        let normalServed := highServed ∧ needs .high ≤ R1
        let R3 := if normalServed then R2 - spent R2 .normal else R2
        ∀ h, s.isOn h = true →
          let second := match cls h with
            | .critical => given R0 .critical h
            | .high => if highServed then given R1 .high h else 0
            | .normal => if normalServed then given R2 .normal h else 0
          share h = f + second + R3 * w h / total + if h = r then R3 - byWeightOf R3 else 0)

/-- A tick (R117 to R119, R61, R123, R124, R128, R133, R150, R153). The next one is set 1,000 µs on; the 16th of an
epoch ends it; a requested apply brings every pending setting into force, the quotas reduced, marks the REDUCED tiles
of every head that becomes exact-only in the surfaces of its flip set, sets the STATUS pending flag when a latched
event becomes unmasked, and clears its request; demand is formed at the end of an epoch; the shares are recomputed at
the end of an epoch, at an apply and at a recompute request, which is then cleared; every head that is not OFF is
refilled up to its cap. That is the state `u`. Then every head's deferral list is re-evaluated, in order of their
numbers (log 11), and after it (log 12) the STATUS test is made, which offers a STATUS frame or none and clears the
flag while the link is UP. A head without deferred records keeps its refilled credit. The time base is at the expiry
at least (log 2). -/
def Obligations.TickStepsInOrder : Prop :=
  (∀ s : State,
    let ends := 15 ≤ s.budget.epochTicks
    let recomputed := ends ∨ s.link.applyRequest = true ∨ s.budget.recompute = true
    let becomes := fun h : Fin 4 => s.link.applyRequest = true ∧ (s.heads.look h).state ≠ .off ∧
      (s.link.current.heads.look h).exactOnly = false ∧ (s.link.staged.heads.look h).exactOnly = true
    let unmasked := s.link.latches &&& s.link.current.mask &&& ~~~s.link.staged.mask ≠ 0
    ∃ u t : State, exec .tick s = .next t ∧
      u = { s with
        surfaces := u.surfaces
        budget := { u.budget with overrideActive := s.budget.overrideActive, hold := s.budget.hold }
        link := { s.link with
          current := u.link.current, applyRequest := false, statusPending := u.link.statusPending } } ∧
      u.budget.tickAt = s.budget.tickAt + 1000 ∧
      u.budget.now = (if timeReached s.budget.now s.budget.tickAt then s.budget.now else s.budget.tickAt) ∧
      (ends → u.budget.epochTicks = 0) ∧ (¬ ends → u.budget.epochTicks = s.budget.epochTicks + 1) ∧
      u.budget.recompute = false ∧
      u.link.current = (if s.link.applyRequest then s.link.staged.reduceQuotas else s.link.current) ∧
      (u.link.statusPending = true ↔
        s.link.statusPending = true ∨ (s.link.applyRequest = true ∧ unmasked)) ∧
      (recomputed → u.sharesSpendTheBudget) ∧
      (∀ h,
        let b := s.budget.heads.look h
        let c := u.budget.heads.look h
        let held := if recomputed then min b.credit c.cap else b.credit
        (ends → c.demand = (if s.isOn h then (b.accumulator + 15) / 16 else 0) ∧ c.accumulator = 0) ∧
        (¬ ends → c.demand = b.demand ∧ c.accumulator = b.accumulator) ∧
        (recomputed → c.cap = max (4 * c.share) 8192) ∧
        (¬ recomputed → c.share = b.share ∧ c.cap = b.cap) ∧ c.deferred = b.deferred ∧
        c.credit = if s.isOn h then min (held + c.share) c.cap else held) ∧
      (∀ id f, s.surfaces.look id = some f → f.stale.length = f.geometry.tileCount →
        ∀ c w, f.geometry.hasTile c w = true →
          (u.isStale id c w = true ↔ s.isStale id c w = true ∨ ∃ h, becomes h ∧ id ∈ (s.heads.look h).flipSet ∧
            (s.heads.look h).qualityOf c w = some .reduced)) ∧
      ((∀ h, ¬ becomes h) → u.surfaces = s.surfaces) ∧
      t = (allHeads.foldl (fun v h => v.reevaluate h) u).statusTest.sendDecision ∧
      t.budget.tickAt = u.budget.tickAt ∧ t.budget.now = u.budget.now ∧
      t.budget.epochTicks = u.budget.epochTicks ∧ t.budget.recompute = false ∧
      t.link.applyRequest = false ∧ t.link.staged = s.link.staged ∧ t.link.current = u.link.current ∧
      (∀ h, (u.budget.heads.look h).deferred = [] → t.budget.heads.look h = u.budget.heads.look h) ∧
      t.channel = s.channel ∧ t.descriptors = s.descriptors ∧ t.heads = s.heads ∧ t.scans = s.scans ∧
      t.rovers = s.rovers ∧ t.encodeQueue = s.encodeQueue ∧ t.encoder = s.encoder) ∧
  (∀ v : State,
    let settled : State := { v with link := { v.link with statusPending := false } }
    (v.link.statusPending = false ∨ v.link.state ≠ .up → v.statusTest = v) ∧
    (v.link.statusPending = true → v.link.state = .up →
      (v.link.latches &&& ~~~v.link.current.mask = 0 ∨ ControlFrame.status ∈ v.link.control →
        v.statusTest = settled) ∧
      (v.link.latches &&& ~~~v.link.current.mask ≠ 0 → ControlFrame.status ∉ v.link.control →
        v.link.control.length < 16 → v.statusTest = { v with link := { v.link with
          statusPending := false, control := v.link.control ++ [.status] } }) ∧
      (v.link.latches &&& ~~~v.link.current.mask ≠ 0 → v.statusTest =
        { v.offerStatus with link := { v.offerStatus.link with statusPending := false } })))

/-- The re-evaluation of one head's deferral list at a tick, with every slot in its place (R133 to R135, R145). While
the override is active the DEFERRED REFINE records are freed without a mark, a count or an event. The rest are tried
oldest first, those in the pointer's neighbourhood before the others while the override is active and the pointer
maps to the head; each is charged by the test of R130 and R131 against what the ones before it have left, until one
is not, and no record behind that one is tried. A charged record is QUEUED, or SENDING where its joining an idle wire
has begun it; the wire busy, the charged records join the send FIFO in the order tried. Every record still deferred
ages by 1, and at age 32 leaves the list, its slot FREE, its tile marked, one abandonment counted and
DEFERRAL_ABANDONED raised. No accumulator and no other head's budget changes. -/
def Obligations.Reevaluation : Prop :=
  ∀ (s : State) (h : Fin 4), s.slotsInPlace →
    let t := s.reevaluate h
    let b := s.budget.heads.look h
    let record := fun i : Fin 64 => s.slots.look i
    let freed := fun i : Fin 64 => s.budget.overrideActive && s.holds .deferred (fun r => r.kind == .refine) i
    let left := b.deferred.filter fun i => !(freed i)
    let near := fun i : Fin 64 =>
      (match s.pointerTile, record i with
      | some (q, pc, pr), some r => s.budget.overrideActive && q == h &&
          decide (pc ≤ r.column + 1 ∧ r.column ≤ pc + 1 ∧ pr ≤ r.row + 1 ∧ r.row ≤ pr + 1)
      | _, _ => false : Bool)
    let order := left.filter near ++ left.filter fun i => !(near i)
    let spent := fun l : List (Fin 64 × Decision) => (l.map fun x => x.2.frameSize).sum
    let aged := fun i : Fin 64 => (match record i with
      | some r => decide (31 ≤ r.age)
      | none => false : Bool)
    ∃ charged : List (Fin 64 × Decision), ∃ kept : List (Fin 64), order = charged.map (·.1) ++ kept ∧
      (∀ k x, charged[k]? = some x → ∃ r, record x.1 = some r ∧
        r.test (s.exactOnly h) (b.credit - spent (charged.take k)) = some x.2) ∧
      (∀ i r, kept.head? = some i → record i = some r →
        r.test (s.exactOnly h) (b.credit - spent charged) = none) ∧
      t.budget = { s.budget with heads := s.budget.heads.put h { b with
        credit := b.credit - spent charged
        deferred := b.deferred.filter fun i => kept.contains i && !(aged i) } } ∧
      (∀ i r, record i = some r →
        (freed i = true → i ∈ b.deferred → t.slots.look i = none) ∧
        (∀ d, (i, d) ∈ charged → ∃ st, (st = .queued ∨ st = .sending) ∧
          t.slots.look i = some { r with state := st, decision := some d }) ∧
        (i ∈ kept → t.slots.look i = if aged i then none else some { r with age := r.age + 1 }) ∧
        (i ∉ b.deferred → r.state ≠ .queued → t.slots.look i = some r)) ∧
      (∀ i, record i = none → t.slots.look i = none) ∧
      (∀ id f, s.surfaces.look id = some f → f.stale.length = f.geometry.tileCount →
        ∀ c w, f.geometry.hasTile c w = true →
          (t.isStale id c w = true ↔ s.isStale id c w = true ∨ ∃ i r, i ∈ kept ∧ aged i = true ∧
            record i = some r ∧ r.surface = id ∧ r.column = c ∧ r.row = w)) ∧
      t.counters.deferralsAbandoned =
        saturatingAdd s.counters.deferralsAbandoned (kept.countP fun i => aged i) ∧
      ((∃ i ∈ kept, aged i = true) → t.latched .deferralAbandoned = true) ∧
      (s.link.wire ≠ .idle → t.link.wire = s.link.wire ∧ t.link.control = s.link.control ∧
        t.link.send = s.link.send.put h (s.link.send.look h ++ charged.map (·.1)) ∧
        ∀ x ∈ charged, ∃ r, t.slots.look x.1 = some r ∧ r.state = .queued) ∧
      (∀ x more, s.link.wire = .idle → s.link.state = .up → s.link.control = [] →
        (∀ q, s.link.send.look q = []) → charged = x :: more →
        t.link.wire = .tile x.1 ∧ t.link.send.look h = more.map (·.1) ∧
        ∃ r, t.slots.look x.1 = some r ∧ r.state = .sending)

/-- The abandonment of a deferral (R134): the record leaves its head's list, the others keeping their order; its slot
is FREE; its tile is marked, subject to R49: an EMPTY entry stays EMPTY and a surface without that tile keeps its
entry, and no surface changes but in that mark; one abandonment is counted and DEFERRAL_ABANDONED raised; nothing
else changes. At a tick it comes when the age reaches 32 (R133); DEFERRAL_ABANDONED standing alone does the same to
the DEFERRED record of its slot, and nothing where there is none (log 4). -/
def Obligations.DeferralAbandonment : Prop :=
  ∀ (s : State) (i : Fin 64),
    ((∀ r, s.slots.look i = some r → r.state ≠ .deferred) →
      exec (.deferralAbandoned i) s = .next s) ∧
    (∀ r, s.slots.look i = some r → r.state = .deferred →
      let b := s.budget.heads.look r.head
      (r.age < 31 → s.ageDeferred i = { s with slots := s.slots.put i (some { r with age := r.age + 1 }) }) ∧
      (31 ≤ r.age → exec (.deferralAbandoned i) s = .next (s.ageDeferred i)) ∧
      ∃ t, exec (.deferralAbandoned i) s = .next t ∧
        t = { s with
          slots := s.slots.put i none
          surfaces := t.surfaces
          budget := { s.budget with heads := s.budget.heads.put r.head { b with
            deferred := b.deferred.filter (· ≠ i) } }
          counters := s.counters.store .deferralsAbandoned (saturatingAdd s.counters.deferralsAbandoned 1)
          link := s.link.raise .deferralAbandoned } ∧
        s.onlyMarks t ∧ (∀ id, id ≠ r.surface → t.surfaces.look id = s.surfaces.look id) ∧
        (s.surfaces.look r.surface = none → t.surfaces.look r.surface = none) ∧
        (∀ f, s.surfaces.look r.surface = some f → f.geometry.hasTile r.column r.row = false →
          t.surfaces.look r.surface = some f) ∧
        (∀ f, s.surfaces.look r.surface = some f → f.geometry.hasTile r.column r.row = true →
          f.stale.length = f.geometry.tileCount →
          t.isStale r.surface r.column r.row = true ∧
          ∀ c w, (c, w) ≠ (r.column, r.row) → t.isStale r.surface c w = s.isStale r.surface c w))

/-- The interaction override (R136): an interaction event whose enable is on makes it active and restarts the hold
timer to expire after the hold in force; one whose enable is off changes nothing; at the expiry of the hold timer
the override becomes inactive and the timer stops. A stopped timer does not expire, and an expiry still ahead
brings the time base to it (log 2). And the pointer's head and tile (R164): of the SHOWING heads whose desktop
rectangle in force contains the position, bounds included, the lowest-numbered, and on it the tile of the position
scaled onto its geometry; without a position, or without such a head, none. -/
def Obligations.OverrideAndPointer : Prop :=
  (∀ s : State,
     (∀ k : Interaction,
       (s.link.current.enables k = true →
         s.interact k = { s with budget := { s.budget with
           overrideActive := true
           hold := some (s.budget.now + BitVec.ofNat 32 (s.link.current.holdMs * 1000)) } }) ∧
       (s.link.current.enables k = false → s.interact k = s)) ∧
     (s.budget.hold = none → exec .overrideHoldExpiry s = .next s) ∧
     (∀ e, s.budget.hold = some e →
       exec .overrideHoldExpiry s = .next { s with budget := { s.budget with
         now := if timeReached s.budget.now e then s.budget.now else e
         overrideActive := false
         hold := none } })) ∧
  (∀ s : State,
    let hit := fun (x y : BitVec 15) (h : Fin 4) (g : Geometry) (d : Desktop) =>
      (s.heads.look h).state = .showing ∧ (s.heads.look h).geometry = some g ∧
        (s.link.current.heads.look h).desktop = some d ∧
        d.x0 ≤ x.toNat ∧ x.toNat ≤ d.x1 ∧ d.y0 ≤ y.toNat ∧ y.toNat ≤ d.y1
    (s.relay.position = none → s.pointerTile = none) ∧
    (∀ x y, s.relay.position = some (x, y) →
      ((∀ h g d, ¬ hit x y h g d) → s.pointerTile = none) ∧
      (∀ h g d, hit x y h g d → (∀ q g' d', hit x y q g' d' → h ≤ q) →
        s.pointerTile = some (h, (x.toNat - d.x0) * (g.width - 1) / (d.x1 - d.x0) / 32,
          (y.toNat - d.y0) * (g.height - 1) / (d.y1 - d.y0) / 32))))

/-! ### The Desk Link -/

/-- The link states (R139, TABLE 34), the exit from UP and the entry into it being stated by LinkLoss and LinkUp. The
timers' expiries are stated once the time base has reached them (log 2), and the acquisition of every lane with the
wire idle and the control FIFO empty, as they are while DOWN. Each lane of the straps acquires alignment on its own
(R138), and the last of them to do so queues LANES_ALIGNED; one that has it and loses it queues
LANE_ALIGNMENT_LOST (log 18), and an upstream frame that was arriving is dropped (R147). -/
def Obligations.LinkStateTable : Prop :=
  ∀ s : State,
    (∀ p line ready, ∃ t, exec (.partReset p line ready) s = .next t ∧ t.link.state = .down) ∧
    (s.link.state = .down → s.link.wire = .idle → s.link.control = [] →
      exec .lanesAligned s = .next { s with link := { s.link with
        state := .aligning
        aligned := Table.tab fun l => decide (l.1 < s.straps.laneCount)
        helloAt := some (s.budget.now + 10000)
        aligningAt := some (s.budget.now + 500000)
        wire := .control (.hello s.straps.laneCount) } }) ∧
    (∀ v, s.link.state = .down ∨ s.link.state = .up → exec (.hello v) s = .next s) ∧
    (∀ v, s.link.state = .aligning → v ≠ 1 →
      exec (.hello v) s = .next { s with
        counters := s.counters.store .upstreamDiscarded (saturatingAdd s.counters.upstreamDiscarded 1) }) ∧
    (s.link.state = .aligning → ∃ t, exec (.hello 1) s = .next t ∧ t.link.state = .up ∧
      t.link.aligningAt = none ∧ t.link.helloAt = none) ∧
    (∀ e, s.link.state = .aligning → s.link.helloAt = some e → timeReached s.budget.now e = true →
      let restarted : Link := { s.link with helloAt := some (s.budget.now + 10000) }
      (s.link.wire = .idle → s.link.control = [] →
        exec .helloRepeatTimerExpiry s =
          .next { s with link := { restarted with wire := .control (.hello s.straps.laneCount) } }) ∧
      (s.link.wire ≠ .idle → s.link.control = [] →
        exec .helloRepeatTimerExpiry s =
          .next { s with link := { restarted with control := [.hello s.straps.laneCount] } }) ∧
      (s.link.wire ≠ .idle → s.link.control.any ControlFrame.isHello = true →
        exec .helloRepeatTimerExpiry s = .next { s with link := restarted })) ∧
    (∀ e, s.link.state = .aligning → s.link.aligningAt = some e → timeReached s.budget.now e = true →
      exec .aligningTimerExpiry s = .next { s with link := { s.link with
        state := .down, aligningAt := none, helloAt := none, control := [], wire := .idle,
        acquired := Table.const false, arriving := none, aligned := Table.const false } }) ∧
    (∀ lane : Fin 2,
      let found : Link := { s.link with acquired := s.link.acquired.put lane true }
      let every := ∀ l : Fin 2, l.1 < s.straps.laneCount → found.acquired.look l = true
      (s.straps.laneCount ≤ lane.1 → s.acquireLane lane = s) ∧
      (lane.1 < s.straps.laneCount → every →
        s.acquireLane lane = { s with link := found, pending := s.pending ++ [.lanesAligned] }) ∧
      (lane.1 < s.straps.laneCount → ¬ every → s.acquireLane lane = { s with link := found }) ∧
      (s.link.acquired.look lane = false → s.loseLane lane = s) ∧
      (s.link.acquired.look lane = true → s.loseLane lane = { s with
        link := { s.link with acquired := s.link.acquired.put lane false, arriving := none }
        pending := s.pending ++ [.laneAlignmentLost lane] })) ∧
    (∀ lane : Fin 2, lane.1 < s.straps.laneCount →
      (s.link.state = .down → exec (.laneAlignmentLost lane) s = .next { s with link := { s.link with
        aligned := s.link.aligned.put lane false } }) ∧
      (s.link.state = .aligning → exec (.laneAlignmentLost lane) s = .next { s with link := { s.link with
        state := .down, aligningAt := none, helloAt := none, control := [], wire := .idle,
        aligned := s.link.aligned.put lane false } }) ∧
      (s.link.state = .up → ∃ t, exec (.laneAlignmentLost lane) s = .next t ∧ t.link.state = .down))

/-- The link leaves UP (R140, R55, R63 to R65, R162), with every slot in its place: every record is released, its slot
FREE and its tile marked, a SENDING one too, but one that is ENCODING, which is flagged withdrawn; every CAPTURING one
is counted as abandoned (R98); nothing else of the surface table changes; the wire is idle, the control FIFO, the encode queue, every send FIFO and
every deferral list are empty; every ANSWER queued or on the wire is counted as dropped; held keys and buttons
are released and the pointer position kept; a LINK notice is queued, sent, or lost with the flag set; and the
settings, the apply request, the credits and the last served heads are kept. What the Input Relay does then, in the
order of R162: with keys or modifiers held an empty KEYBOARD report is offered to the queue under R160 (KeyboardReport)
and the held-key state becomes empty; with a button set a POINTER release with the last position, all buttons clear and
wheel 0 is offered (PointerReport) and the buttons become clear; and the LINK notice carrying DOWN is offered (R163,
InputLine). -/
def Obligations.LinkLoss : Prop :=
  (∀ s : State,
    let held := s.relay.heldModifiers ≠ 0 ∨ s.relay.heldKeys ≠ []
    ∃ u v : State,
      (held → u = { s.offerKeyboard 0 [] with
        relay := { (s.offerKeyboard 0 []).relay with heldModifiers := 0, heldKeys := [] } }) ∧
      (¬ held → u = s) ∧
      (∀ x y, u.relay.buttons ≠ 0 → u.relay.position = some (x, y) →
        v = { u.offerPointerRelease x y with
          relay := { (u.offerPointerRelease x y).relay with buttons := 0 } }) ∧
      (u.relay.buttons = 0 → v = u) ∧
      s.releaseHeld = v.offerNotice (.link false)) ∧
  ∀ (s : State) (lane : Fin 2), s.slotsInPlace → s.link.state = .up → lane.1 < s.straps.laneCount →
    let answers := s.link.control.countP ControlFrame.isAnswer +
      match s.link.wire with
      | .control (.answer _ _ _) => 1
      | _ => 0
    ∃ t, exec (.laneAlignmentLost lane) s = .next t ∧ t.link.state = .down ∧ t.link.wire = .idle ∧
      t.link.control = [] ∧ t.encodeQueue = [] ∧
      (∀ h, t.link.send.look h = [] ∧ (t.budget.heads.look h).deferred = [] ∧
        (t.budget.heads.look h).credit = (s.budget.heads.look h).credit) ∧
      (∀ i, s.slots.look i = none → t.slots.look i = none) ∧
      (∀ i r, s.slots.look i = some r → r.state = .encoding →
        t.slots.look i = some { r with withdrawn := true }) ∧
      (∀ i r, s.slots.look i = some r → r.state ≠ .encoding → t.slots.look i = none) ∧
      (∀ id, s.marksOf (fun r => r.state ≠ .encoding) id t) ∧ s.onlyMarks t ∧
      t.counters.capturesAbandoned = saturatingAdd s.counters.capturesAbandoned
        (allSlots.countP fun i => s.holds .capturing (fun _ => true) i) ∧
      t.relay = s.releaseHeld.relay ∧
      t.counters = { s.counters with
        capturesAbandoned := t.counters.capturesAbandoned
        answersDropped := t.counters.answersDropped
        inputDropped := s.releaseHeld.counters.inputDropped } ∧
      t.link.latches = s.releaseHeld.link.latches ∧ t.link.statusPending = s.releaseHeld.link.statusPending ∧
      t.counters.answersDropped = saturatingAdd s.counters.answersDropped answers ∧
      t.counters.tilesExact = s.counters.tilesExact ∧ t.counters.tilesReduced = s.counters.tilesReduced ∧
      t.relay.heldModifiers = 0 ∧ t.relay.heldKeys = [] ∧ t.relay.buttons = 0 ∧
      t.relay.position = s.relay.position ∧
      (t.relay.lost = true ∨ InputEntry.notice (.link false) ∈ t.relay.queue ∨
        ∃ w, t.relay.sending = some { entry := .notice (.link false), lost := w }) ∧
      t.link.staged = s.link.staged ∧ t.link.current = s.link.current ∧
      t.link.applyRequest = s.link.applyRequest ∧ t.link.lastServed = s.link.lastServed ∧
      t.heads = s.heads ∧ t.scans = s.scans

/-- The link enters UP (R141, R60, R170), from ALIGNING with nothing but HELLO frames queued: the timers stop; a HEAD
frame for each head in order, a STATUS frame when an event is latched and unmasked, and a LAMP frame with the lamp
set are queued, at most 6, and with the wire idle the first one begins; the STATUS pending flag is clear; every
surface of the flip set of a head that is not OFF is wholly stale and the head's quality map EXACT, and no other
surface and no other head changes; and a LINK notice carrying UP is offered. -/
def Obligations.LinkUp : Prop :=
  ∀ s : State, s.link.state = .aligning → (∀ f ∈ s.link.control, f.isHello = true) →
    let frame := fun h : Fin 4 => ControlFrame.head
      (if (s.heads.look h).state = .off then
        { head := h, state := .off, flipSet := [], geometry := none, period := 0 }
      else
        { head := h, state := (s.heads.look h).state, flipSet := (s.heads.look h).flipSet,
          geometry := (s.heads.look h).geometry, period := (s.scans.look h).period })
    let report := s.link.latches &&& ~~~s.link.current.mask ≠ 0
    let later := [frame 1, frame 2, frame 3] ++ (if s.link.latches &&& ~~~s.link.current.mask ≠ 0
      then [.status] else []) ++ [.lamp s.relay.lamps]
    ∃ t, exec (.hello 1) s = .next t ∧ t.link.state = .up ∧ t.link.aligningAt = none ∧
      t.link.helloAt = none ∧ t.link.statusPending = false ∧ t.link.control.length ≤ 6 ∧
      (report → ControlFrame.status ∈ t.link.control) ∧
      (s.link.wire = .idle → t.link.wire = .control (frame 0) ∧ t.link.control = later) ∧
      (s.link.wire ≠ .idle → t.link.wire = s.link.wire ∧ t.link.control = frame 0 :: later) ∧
      (∀ h g, (s.heads.look h).state ≠ .off → (s.heads.look h).geometry = some g →
        t.heads.look h = { s.heads.look h with quality := List.replicate g.tileCount .exact }) ∧
      (∀ h, (s.heads.look h).state = .off → t.heads.look h = s.heads.look h) ∧
      (∀ h id f, (s.heads.look h).state ≠ .off → id ∈ (s.heads.look h).flipSet →
        s.surfaces.look id = some f →
        t.surfaces.look id = some { f with stale := List.replicate f.geometry.tileCount true }) ∧
      (∀ id, (∀ h, (s.heads.look h).state ≠ .off → id ∉ (s.heads.look h).flipSet) →
        t.surfaces.look id = s.surfaces.look id) ∧
      t.relay = (s.offerNotice (.link true)).relay ∧ t.slots = s.slots ∧ t.budget = s.budget

/-- The end of a tile frame (R53, R54, R146), with the surface table sound: the record's slot is FREE; the quality entry
of its tile takes its code, when its head is not OFF and the tile lies in the head's geometry, and no other head
changes; with the record's surface still in the flip set the tile is stale in every other surface of it, and in the
record's own surface only when the code is REDUCED and the head exact-only; the tile and its bytes are counted;
and no credit changes (R128, R146). The wire is then idle and the next send decision is taken (R145, SendArbiter). -/
def Obligations.TileFrameEnds : Prop :=
  ∀ (s : State) (i : Fin 64) (r : Record) (d : Decision), s.surfacesSound → s.link.wire = .tile i →
    s.slots.look i = some r → r.decision = some d →
    let k := s.heads.look r.head
    ∃ u t : State, exec .frameEnd s = .next t ∧ t = u.sendDecision ∧
      u = { s with
        slots := s.slots.put i none
        surfaces := t.surfaces
        heads := t.heads
        counters := t.counters
        link := { s.link with wire := .idle } } ∧
      s.onlyMarks t ∧ t.slots.look i = none ∧ t.budget = s.budget ∧ t.scans = s.scans ∧
      (∀ g, k.state ≠ .off → k.geometry = some g → g.hasTile r.column r.row = true →
        t.heads = s.heads.put r.head { k with quality := k.quality.set (g.tileIndex r.column r.row) d.code }) ∧
      (k.state = .off ∨ (∀ g, k.geometry = some g → g.hasTile r.column r.row = false) → t.heads = s.heads) ∧
      (∀ id f, id ∈ k.flipSet → r.surface ∈ k.flipSet → id ≠ r.surface → s.surfaces.look id = some f →
        f.geometry.hasTile r.column r.row = true → t.isStale id r.column r.row = true) ∧
      (r.surface ∉ k.flipSet → t.surfaces = s.surfaces) ∧
      (∀ id, id ∉ k.flipSet → t.surfaces.look id = s.surfaces.look id) ∧
      ((s.link.current.heads.look r.head).exactOnly = false ∨ d.code = .exact →
        t.surfaces.look r.surface = s.surfaces.look r.surface) ∧
      (∀ f, (s.link.current.heads.look r.head).exactOnly = true → d.code = .reduced →
        r.surface ∈ k.flipSet → s.surfaces.look r.surface = some f →
        f.geometry.hasTile r.column r.row = true → t.isStale r.surface r.column r.row = true) ∧
      (d.code = .exact → t.counters.tilesExact = saturatingAdd s.counters.tilesExact 1 ∧
        t.counters.tilesReduced = s.counters.tilesReduced) ∧
      (d.code = .reduced → t.counters.tilesReduced = saturatingAdd s.counters.tilesReduced 1 ∧
        t.counters.tilesExact = s.counters.tilesExact) ∧
      t.counters.tileBytes = saturatingAdd s.counters.tileBytes d.frameSize

/-- The control FIFO and the send arbiter. A HEAD, LAMP or STATUS frame offered while UP takes the place of a queued one
of its kind, for a HEAD frame one of its head, or joins the tail; at 16 frames the most recently queued ANSWER is
removed first and counted; while not UP it is not queued (R143). At the end of a HEAD, LAMP, ANSWER, HELLO or STATUS
frame the wire is idle and nothing further is done but the next send decision (R145, R146). At a decision the head of
the control FIFO begins, a STATUS frame with the latched and unmasked events of that moment, a LAMP frame clearing the
lamp pending flag (R142, R166); with the FIFO empty and the link UP, the record at the head of a send FIFO begins: of
the first class in the order critical, high, normal with a record queued, and within it of the first head after the
class's last served one in cyclic order; else the wire stays idle. Nothing else changes. While DOWN, and with the wire
busy, no decision is taken. An idle wire ends no frame (log 21). -/
def Obligations.SendArbiter : Prop :=
  (∀ (s offered : State) (f : ControlFrame) (kind : ControlFrame → Bool),
    (∃ h, offered = s.offerHead h ∧ kind = ControlFrame.isHead h ∧ f = .head (s.headFrame h)) ∨
      (∃ w, offered = s.offerLamp w ∧ kind = ControlFrame.isLamp ∧ f = .lamp w) ∨
      (offered = s.offerStatus ∧ kind = (· == .status) ∧ f = .status) →
    let q := s.link.control
    (s.link.state ≠ .up → offered = s) ∧
    (s.link.state = .up →
      ((∃ g ∈ q, kind g = true) → offered = { s with link := { s.link with
        control := q.map fun g => if kind g then f else g } }) ∧
      ((∀ g ∈ q, kind g = false) → q.length < 16 →
        offered = { s with link := { s.link with control := q ++ [f] } }) ∧
      (∀ a id v x b, (∀ g ∈ q, kind g = false) → 16 ≤ q.length → q = a ++ .answer id v x :: b →
        (∀ g ∈ b, g.isAnswer = false) →
        offered = { s with
          link := { s.link with control := a ++ b ++ [f] }
          counters := s.counters.store .answersDropped (saturatingAdd s.counters.answersDropped 1) }))) ∧
  (∀ s : State, s.link.wire = .idle → exec .frameEnd s = .next s) ∧
  (∀ s : State, (∃ f, s.link.wire = .control f) ∨ (∃ e, s.link.wire = .status e) →
    exec .frameEnd s = .next ({ s with link := { s.link with wire := .idle } } : State).sendDecision) ∧
  (∀ s : State, s.link.wire ≠ .idle ∨ s.link.state = .down → s.sendDecision = s) ∧
  (∀ s : State, s.link.wire = .idle → s.link.state ≠ .down →
    (∀ g rest, s.link.control = g :: rest → g ≠ .status → g.isLamp = false →
      s.sendDecision = { s with link := { s.link with wire := .control g, control := rest } }) ∧
    (∀ rest, s.link.control = .status :: rest →
      s.sendDecision = { s with link := { s.link with
        wire := .status (s.link.latches &&& ~~~s.link.current.mask), control := rest } }) ∧
    (∀ w rest, s.link.control = .lamp w :: rest →
      s.sendDecision = { s with
        link := { s.link with wire := .control (.lamp w), control := rest }
        relay := { s.relay with lampPending := false } }) ∧
    (s.link.control = [] → s.link.state ≠ .up ∨ (∀ h, s.link.send.look h = []) → s.sendDecision = s) ∧
    (s.link.control = [] → s.link.state = .up → (∃ h, s.link.send.look h ≠ []) →
      let cls := fun h : Fin 4 => (s.link.current.heads.look h).cls
      ∃ h i rest, s.link.send.look h = i :: rest ∧
        (∀ q, s.link.send.look q ≠ [] → (cls h).place ≤ (cls q).place) ∧
        (∀ q, s.link.send.look q ≠ [] → cls q = cls h →
          (h - s.link.lastServed.of (cls h) - 1).1 ≤ (q - s.link.lastServed.of (cls h) - 1).1) ∧
        s.sendDecision = { s with
          link := { s.link with
            wire := .tile i, send := s.link.send.put h rest,
            lastServed := s.link.lastServed.served (cls h) h }
          slots := s.slots.upd i (Option.map fun r => { r with state := .sending }) }))

/-- SET and APPLY while UP (R120, R149, R150, R169, TABLE 37, TABLE 48): the pending setting takes the value, clamped or
refused as the table gives, and nothing else changes; a refused SET changes no pending value, counts one on the
upstream frames discarded counter and raises UPSTREAM_CHECK; an APPLY sets the apply request. The quotas in force
are the pending ones, lowered from head 3 on until they sum to at most 64 (R86). -/
def Obligations.SettingsWritten : Prop :=
  (∀ s : State, s.link.state = .up →
    let staged := fun t : Settings => ({ s with link := { s.link with staged := t } } : State)
    let onHead := fun (h : Fin 4) (d : HeadSettings) =>
      staged { s.link.staged with heads := s.link.staged.heads.put h d }
    let refused : State := { s with
      counters := s.counters.store .upstreamDiscarded (saturatingAdd s.counters.upstreamDiscarded 1)
      link := s.link.raise .upstreamCheck }
    (∀ q v, exec (.set 0x01 q v) s =
      .next (staged { s.link.staged with budget := max 10000 (min s.straps.capacity v.toNat) })) ∧
    (∀ q, exec (.set 0x02 q 0) s = .next (staged { s.link.staged with mode := .static }) ∧
      exec (.set 0x02 q 1) s = .next (staged { s.link.staged with mode := .dynamic })) ∧
    (∀ q v, 2 ≤ v.toNat → exec (.set 0x02 q v) s = .next refused) ∧
    (∀ q v, exec (.set 0x09 q v) s =
      .next (staged { s.link.staged with holdMs := max 10 (min 2000 v.toNat) })) ∧
    (∀ q v, exec (.set 0x0A q v) s = .next (staged { s.link.staged with
      keyEnable := v.getLsbD 0, motionEnable := v.getLsbD 1, buttonEnable := v.getLsbD 2 })) ∧
    (∀ q v, exec (.set 0x0B q v) s =
      .next (staged { s.link.staged with mask := v.extractLsb' 0 10 })) ∧
    (∀ (q : Byte) (h : Fin 4), q.toNat = h.1 →
      let d := s.link.staged.heads.look h
      (exec (.set 0x03 q 0) s = .next (onHead h { d with cls := .critical }) ∧
        exec (.set 0x03 q 1) s = .next (onHead h { d with cls := .high }) ∧
        exec (.set 0x03 q 2) s = .next (onHead h { d with cls := .normal })) ∧
      (∀ v, 3 ≤ v.toNat → exec (.set 0x03 q v) s = .next refused) ∧
      (∀ v, exec (.set 0x04 q v) s = .next (onHead h { d with weight := max 1 (min 15 v.toNat) })) ∧
      (∀ v, exec (.set 0x05 q v) s = .next (onHead h { d with quota := min 64 v.toNat })) ∧
      (∀ on : Bool, exec (.set 0x06 q (if on then 1 else 0)) s = .next (onHead h { d with exactOnly := on }) ∧
        exec (.set 0x07 q (if on then 1 else 0)) s = .next (onHead h { d with refine := on })) ∧
      (∀ v, 2 ≤ v.toNat →
        exec (.set 0x06 q v) s = .next refused ∧ exec (.set 0x07 q v) s = .next refused) ∧
      (∀ v,
        let at_ := fun k : Nat => min 32767 (v.extractLsb' (16 * k) 16).toNat
        exec (.set 0x08 q v) s = .next (onHead h { d with
          desktop := if at_ 0 < at_ 2 ∧ at_ 1 < at_ 3 then
              some { x0 := at_ 0, y0 := at_ 1, x1 := at_ 2, y1 := at_ 3 }
            else none }))) ∧
    (∀ (id q : Byte) v, 3 ≤ id.toNat → id.toNat ≤ 8 → 4 ≤ q.toNat → exec (.set id q v) s = .next refused) ∧
    (∀ (id q : Byte) v, id.toNat = 0 ∨ 12 ≤ id.toNat → exec (.set id q v) s = .next refused) ∧
    exec .apply s = .next { s with link := { s.link with applyRequest := true } }) ∧
  (∀ t : Settings,
    let p := fun h : Fin 4 => (t.heads.look h).quota
    let q := fun h : Fin 4 => (t.reduceQuotas.heads.look h).quota
    (p 0 + p 1 + p 2 + p 3 ≤ 64 → ∀ h, q h = p h) ∧ q 0 + q 1 + q 2 + q 3 ≤ 64 ∧ (∀ h, q h ≤ p h) ∧
    (∀ h, q h < p h → q 0 + q 1 + q 2 + q 3 = 64 ∧ ∀ g, h < g → q g = 0) ∧
    ∀ h, t.reduceQuotas.heads.look h = { t.heads.look h with quota := q h })

/-- READ while UP (R143, R151, TABLE 48): the ANSWER carries the request id, and the item's value with status VALID or
0 with status UNKNOWN; it joins the control FIFO, begins at once when the wire is idle and the FIFO empty, and is
dropped and counted at a FIFO of 16 frames, the count standing after the clear where the item is that very counter
(the model's choice, log 29). The clear option sets a counter or a frame count to 0 after its value
is taken, and is ignored for other items. Nothing else changes. -/
def Obligations.ReadAnswers : Prop :=
  (∀ (s : State) (id : BitVec 16) (item head flags : Byte), s.link.state = .up →
    let v := s.itemValue item head (flags.getLsbD 0)
    let u := if flags.getLsbD 1 then s.clearItem item head else s
    let answer := ControlFrame.answer id v.isSome (BitVec.ofNat 64 (v.getD 0))
    (s.link.wire ≠ .idle → s.link.control.length < 16 →
      exec (.readRequest id item head flags) s =
        .next { u with link := { s.link with control := s.link.control ++ [answer] } }) ∧
    (s.link.wire = .idle → s.link.control = [] →
      exec (.readRequest id item head flags) s =
        .next { u with link := { s.link with wire := .control answer } }) ∧
    (s.link.wire ≠ .idle → s.link.control.length = 16 →
      exec (.readRequest id item head flags) s = .next (u.count .answersDropped))) ∧
  (∀ (s : State) (head : Byte) (p : Bool),
    let t := if p then s.link.staged else s.link.current
    s.itemValue 0x01 head p = some t.budget ∧
    s.itemValue 0x02 head p = some (if t.mode = .static then 0 else 1) ∧
    s.itemValue 0x09 head p = some t.holdMs ∧
    s.itemValue 0x0A head p =
      some (t.keyEnable.toNat + 2 * t.motionEnable.toNat + 4 * t.buttonEnable.toNat) ∧
    s.itemValue 0x0B head p = some t.mask.toNat ∧
    s.itemValue 0x40 head p = some s.link.latches.toNat ∧
    (∀ h : Fin 4, head.toNat = h.1 →
      let d := t.heads.look h
      s.itemValue 0x03 head p = some d.cls.place ∧ s.itemValue 0x04 head p = some d.weight ∧
      s.itemValue 0x05 head p = some d.quota ∧ s.itemValue 0x06 head p = some d.exactOnly.toNat ∧
      s.itemValue 0x07 head p = some d.refine.toNat ∧
      s.itemValue 0x08 head p = some (match d.desktop with
        | some r => r.x0 + 2 ^ 16 * r.y0 + 2 ^ 32 * r.x1 + 2 ^ 48 * r.y1
        | none => 0) ∧
      s.itemValue 0x30 head p = some (s.scans.look h).frameCount.toNat ∧
      s.clearItem 0x30 head = { s with scans := s.scans.put h { s.scans.look h with frameCount := 0 } }) ∧
    (4 ≤ head.toNat → ∀ item ∈ [0x03#8, 0x04#8, 0x05#8, 0x06#8, 0x07#8, 0x08#8, 0x30#8],
      s.itemValue item head p = none) ∧
    (∀ (n : Fin 14) (k : Counter), Counter.ofIndex n.1 = some k →
      s.itemValue (BitVec.ofNat 8 (0x20 + n.1)) head p = some (s.counters.value k).toNat ∧
      s.clearItem (BitVec.ofNat 8 (0x20 + n.1)) head = { s with counters := s.counters.store k 0 }) ∧
    (∀ item : Byte, item.toNat = 0 ∨ (0x0C ≤ item.toNat ∧ item.toNat < 0x20) ∨
      (0x2E ≤ item.toNat ∧ item.toNat < 0x30) ∨ (0x31 ≤ item.toNat ∧ item.toNat < 0x40) ∨
      0x41 ≤ item.toNat → s.itemValue item head p = none) ∧
    (∀ item : Byte, item.toNat < 0x20 ∨ item = 0x40 → s.clearItem item head = s))

/-- CLEAR and discarded frames (R147, R153), and the bytes of upstream frames (R138, R168, TABLE 47). A CLEAR clears the
named latches and nothing else. A bad frame, in every link state, counts one and raises UPSTREAM_CHECK (log 23). A
well-formed frame other than HELLO while the link is not UP changes nothing. The bytes of a frame with a right check
and the length of its kind spell its command, for each of the eight kinds; those with a wrong check, an unknown kind
or another length a bad frame. The right check is the reflected reading of R168's polynomial, which the model
presumes (log 17). Two lanes carry a frame's bytes in turn, lane 0 the first (log 18), and are rejoined. The command
joins the end of the queue (log 20). A frame is what arrives between the lanes' marks of its beginning and its end
(R168): with every lane aligned it is taken whole; with one of two, as the bytes of that one (log 31); with none,
nothing is received; one that has not ended when the next begins is taken with the bytes received before that; one
that a loss of alignment cuts off is not taken, whatever bytes still follow it. -/
def Obligations.UpstreamFrames : Prop :=
  (∀ (s : State) (events : BitVec 16), s.link.state = .up →
    exec (.clear events) s =
      .next { s with link := { s.link with latches := s.link.latches &&& ~~~(events.extractLsb' 0 10) } }) ∧
  (∀ (s : State) (x : FrameDefect), exec (.badUpstreamFrame x) s = .next { s with
    counters := s.counters.store .upstreamDiscarded (saturatingAdd s.counters.upstreamDiscarded 1)
    link := s.link.raise .upstreamCheck }) ∧
  (∀ s : State, s.link.state ≠ .up →
    (∀ m k, exec (.keys m k) s = .next s) ∧ (∀ x y b w, exec (.pointer x y b w) s = .next s) ∧
    (∀ i h v, exec (.set i h v) s = .next s) ∧ exec .apply s = .next s ∧
    (∀ i t h f, exec (.readRequest i t h f) s = .next s) ∧ (∀ e, exec (.clear e) s = .next s) ∧
    (∀ h, exec (.resync h) s = .next s)) ∧
  (∀ body : List Byte, 1 ≤ body.length →
    let sent := body ++ littleEndian 4 (crc32 body).toNat
    (upstreamLength (frameByte body 0) = some (body.length + 4) → receiveFrame sent = commandOf sent) ∧
    (upstreamLength (frameByte body 0) = none → receiveFrame sent = .badUpstreamFrame .unknownKind) ∧
    (∀ n, upstreamLength (frameByte body 0) = some n → n ≠ body.length + 4 →
      receiveFrame sent = .badUpstreamFrame .wrongLength) ∧
    ∀ check : List Byte, check.length = 4 → check ≠ littleEndian 4 (crc32 body).toNat →
      receiveFrame (body ++ check) = .badUpstreamFrame .badCheck) ∧
  (∀ f : List Byte, f.length < 5 → receiveFrame f = .badUpstreamFrame .wrongLength) ∧
  ([0x10, 0x11, 0x12, 0x13, 0x14, 0x15, 0x16, 0x17].map upstreamLength =
      [some 6, some 12, some 11, some 15, some 5, some 10, some 7, some 6] ∧
    ∀ k : Byte, k.toNat < 0x10 ∨ 0x17 < k.toNat → upstreamLength k = none) ∧
  (∀ (v m i q g b w : Byte) (k : Table 6 Byte) (x y : BitVec 16) (value : BitVec 64) (check : List Byte),
    let two := fun z : BitVec 16 => [z.extractLsb' 0 8, z.extractLsb' 8 8]
    commandOf ([0x10, v] ++ check) = .hello v ∧
    commandOf ([0x11, m] ++ (List.finRange 6).map k.look ++ check) = .keys m k ∧
    commandOf ([0x12] ++ two x ++ two y ++ [b, w] ++ check) = .pointer x y b w ∧
    commandOf ([0x13, i, q] ++ (List.range 8).map (fun n => value.extractLsb' (8 * n) 8) ++ check) =
      .set i q value ∧
    commandOf ([0x14] ++ check) = .apply ∧
    commandOf ([0x15] ++ two x ++ [i, q, g] ++ check) = .readRequest x i q g ∧
    commandOf ([0x16] ++ two x ++ check) = .clear x ∧
    commandOf ([0x17, v] ++ check) = .resync v) ∧
  (∀ (s : State) (f : List Byte),
    rejoinLanes s.straps.laneCount (Table.tab fun l => laneBytes s.straps.laneCount l.1 f) = f ∧
    s.receiveFrame f = { s with pending := s.pending ++ [receiveFrame f] }) ∧
  (∀ (s : State) (f : List Byte) (bytes : Table 2 (List Byte)),
    let aligned := fun l : Fin 2 => l.1 < s.straps.laneCount ∧ s.link.acquired.look l = true
    let arrives := fun b : Option (Table 2 (List Byte)) => ({ s with link := { s.link with arriving := b } } : State)
    (s.link.arriving = none → (∀ l : Fin 2, l.1 < s.straps.laneCount → aligned l) →
      s.receiveLanes (Table.tab fun l => laneBytes s.straps.laneCount l.1 f) = s.receiveFrame f) ∧
    (∀ l : Fin 2, s.link.arriving = none → aligned l → (∀ k, aligned k → k = l) →
      s.receiveLanes bytes = s.receiveFrame (bytes.look l)) ∧
    ((∀ l, ¬ aligned l) → s.beginUpstreamFrame = s) ∧
    ((∀ l, ¬ aligned l) → s.link.arriving = none → s.receiveLanes bytes = s) ∧
    (∀ l, aligned l →
      (s.link.arriving = none → s.beginUpstreamFrame = arrives (some (Table.const []))) ∧
      (∀ b, s.link.arriving = some b → s.beginUpstreamFrame =
        (arrives (some (Table.const []))).receiveFrame (rejoinLanes s.straps.laneCount b)) ∧
      (∀ b, s.link.arriving = some b →
        s.receiveLaneBytes l f = arrives (some (b.put l (b.look l ++ f))))) ∧
    (∀ l, ¬ aligned l ∨ s.link.arriving = none → s.receiveLaneBytes l f = s) ∧
    (∀ b, s.link.arriving = some b →
      s.endUpstreamFrame = (arrives none).receiveFrame (rejoinLanes s.straps.laneCount b)) ∧
    (s.link.arriving = none → s.endUpstreamFrame = s) ∧
    (∀ l k, s.link.acquired.look l = true →
      ((s.loseLane l).receiveLaneBytes k f).endUpstreamFrame = s.loseLane l))

/-- The bytes that leave the part (R111, R138, R142, R155, R168, R170, R171, TABLE 46, TABLE 49): of the frame on the
wire, by its kind, with its check, which is the presumed reading of log 17; of the frame on the input line, with its
XOR check; and what each lane carries of a frame, with two lanes the bytes in turn, lane 0 the first (log 18). -/
def Obligations.OutboundBytes : Prop :=
  (∀ n v : Nat, littleEndian n v = (List.range n).map fun k => BitVec.ofNat 8 (v / 256 ^ k)) ∧
  (∀ s : State,
    let framed := fun body : List Byte => body ++ littleEndian 4 (crc32 body).toNat
    let byte := fun n : Nat => BitVec.ofNat 8 n
    (s.link.wire = .idle → s.wireBytes = []) ∧
    (∀ n, s.link.wire = .control (.hello n) → s.wireBytes = framed [0x01, 1, 0xE6, 0x02, byte n]) ∧
    (∀ w, s.link.wire = .control (.lamp w) → s.wireBytes = framed [0x04, w]) ∧
    (∀ e, s.link.wire = .status e → s.wireBytes = framed ([0x05] ++ littleEndian 2 e.toNat)) ∧
    (∀ id v x, s.link.wire = .control (.answer id v x) → s.wireBytes =
      framed ([0x06] ++ littleEndian 2 id.toNat ++ [if v then 0 else 1] ++ littleEndian 8 x.toNat)) ∧
    (∀ (h : Fin 4) (st : HeadState) (ids : List (Fin 16)) (g : Geometry) (p : Nat), ids.length ≤ 3 →
      s.link.wire = .control (.head
        { head := h, state := st, flipSet := ids, geometry := some g, period := p }) →
      let code := match st with
        | .off => 0x00
        | .waiting => 0x01
        | .showing => 0x02
        | .stalled => 0x03
      s.wireBytes = framed ([0x03, byte h.1, code, byte ids.length] ++ ids.map (fun i => byte i.1)
        ++ List.replicate (3 - ids.length) 0xFF ++ littleEndian 2 g.width ++ littleEndian 2 g.height
        ++ [if g.format = .f32 then 1 else 2, byte g.tileColumns, byte g.tileRows] ++ littleEndian 4 p)) ∧
    (∀ h : Fin 4,
      s.link.wire = .control (.head { head := h, state := .off, flipSet := [], geometry := none, period := 0 }) →
      s.wireBytes = framed ([0x03, byte h.1, 0, 0, 0xFF, 0xFF, 0xFF] ++ List.replicate 11 0)) ∧
    (∀ i r c d, s.link.wire = .tile i → s.slots.look i = some r → r.coded = some c → r.decision = some d →
      let payload := if d.code = .exact then c.exact else c.reduced
      s.wireBytes = framed ([0x02, byte r.head.1, byte r.column, byte r.row, if d.code = .exact then 0 else 1,
        if r.format = .f32 then 1 else 2] ++ littleEndian 2 payload.length ++ payload))) ∧
  (∀ s : State,
    let framed := fun body : List Byte => [0xA5] ++ body ++ [body.foldl (· ^^^ ·) 0]
    (s.relay.sending = none → s.lineBytes = []) ∧
    (∀ m keys w, keys.length ≤ 6 → s.relay.sending = some { entry := .keyboard m keys, lost := w } →
      s.lineBytes = framed ([0x01, 8, m, 0] ++ keys ++ List.replicate (6 - keys.length) 0)) ∧
    (∀ x y b v w, s.relay.sending = some { entry := .pointer x y b v, lost := w } →
      s.lineBytes = framed ([0x02, 6] ++ littleEndian 2 x.toNat ++ littleEndian 2 y.toNat
        ++ [b.setWidth 8, BitVec.ofInt 8 v])) ∧
    (∀ w : Bool,
      let flag : Byte := if w then 0x80 else 0
      (s.relay.sending = some { entry := .notice .restart, lost := w } →
        s.lineBytes = framed [0x03, 4, 0x01 ||| flag, 0, 0, 0]) ∧
      (∀ slot g o, s.relay.sending = some { entry := .notice (.outcome slot g o), lost := w } →
        s.lineBytes = framed [0x03, 4, 0x02 ||| flag, BitVec.ofNat 8 slot.1, g, match o with
          | .taken => 0
          | .incomplete => 1
          | .badKind => 2
          | .badValue => 3
          | .overlap => 4
          | .capacity => 5
          | .mismatch => 6
          | .noSurface => 7
          | .inUse => 8]) ∧
      (∀ up : Bool, s.relay.sending = some { entry := .notice (.link up), lost := w } →
        s.lineBytes = framed [0x03, 4, 0x03 ||| flag, 0, 0, if up then 1 else 0]))) ∧
  (∀ f : List Byte, laneBytes 1 0 f = f ∧
    (laneBytes 2 0 f).length = (f.length + 1) / 2 ∧ (laneBytes 2 1 f).length = f.length / 2 ∧
    (∀ n, 2 * n < f.length → (laneBytes 2 0 f)[n]? = f[2 * n]?) ∧
    ∀ n, 2 * n + 1 < f.length → (laneBytes 2 1 f)[n]? = f[2 * n + 1]?) ∧
  (∀ b : Byte, (lineBits b).length = 10 ∧ (lineBits b)[0]? = some false ∧ (lineBits b)[9]? = some true ∧
    ∀ k, k < 8 → (lineBits b)[k + 1]? = some (b.getLsbD k))

/-- A desk resync request (R59): for a head that is not OFF every surface of its flip set is wholly stale and every
entry of its quality map EXACT, no record is withdrawn, and nothing else changes; for an OFF head, and a number
outside 0 to 3, nothing changes. -/
def Obligations.DeskResyncRequest : Prop :=
  ∀ (s : State) (q : Byte), s.link.state = .up →
    (4 ≤ q.toNat → exec (.resync q) s = .next s) ∧
    (∀ h : Fin 4, q.toNat = h.1 →
      ((s.heads.look h).state = .off → exec (.resync q) s = .next s) ∧
      (∀ g, (s.heads.look h).state ≠ .off → (s.heads.look h).geometry = some g →
        exec (.resync q) s = .next { s with
          heads := s.heads.put h { s.heads.look h with quality := List.replicate g.tileCount .exact }
          surfaces := Table.tab fun id =>
            if id ∈ (s.heads.look h).flipSet then (s.surfaces.look id).map fun f =>
              { f with stale := List.replicate f.geometry.tileCount true }
            else s.surfaces.look id }))

/-- Raising an event (R152) and counting (R154): a clear latch is set, and an unmasked event sets the STATUS pending
flag; a set latch changes nothing; no other latch and nothing else changes. A counter increases by the stated
amount and stops at 4,294,967,295; no other counter and nothing else changes. -/
def Obligations.EventsAndCounters : Prop :=
  (∀ (s : State) (e : Event),
    (s.latched e = true → s.raise e = s) ∧
    (s.latched e = false →
      (s.raise e).latched e = true ∧ (∀ x, x ≠ e → (s.raise e).latched x = s.latched x) ∧
      (s.link.current.mask &&& e.bit = 0 → (s.raise e).link.statusPending = true) ∧
      (s.link.current.mask &&& e.bit ≠ 0 → (s.raise e).link.statusPending = s.link.statusPending) ∧
      s.raise e = { s with link := { s.link with
        latches := (s.raise e).link.latches, statusPending := (s.raise e).link.statusPending } })) ∧
  (∀ (s : State) (k : Counter) (n : Nat),
    ((s.countBy k n).counters.value k).toNat = min ((s.counters.value k).toNat + n) 4294967295 ∧
    (∀ x, x ≠ k → (s.countBy k n).counters.value x = s.counters.value x) ∧
    s.countBy k n = { s with counters := (s.countBy k n).counters })

/-! ### The Input Relay -/

/-- A KEYS report while UP (R136, R156, R158, R160, R161). The codes are taken as a set; the held-key state is replaced;
a difference from it is a key change, which with its enable on makes the override active; and the report is offered to
the queue, at the first step of R160 that applies: it joins the tail, and begins a frame at once where the transmitter
is IDLE and the ready level high (R156); at 32 entries it replaces the newest KEYBOARD entry in its place, or sheds the
oldest POINTER entry, or the oldest NOTICE with the lost-notice flag set; a report that replaces or sheds counts one
and raises INPUT_OVERFLOW. -/
def Obligations.KeyboardReport : Prop :=
  (∀ (s : State) (m : Byte) (codes : Table 6 Byte), s.link.state = .up →
    let keys := keySet codes
    let changed := s.relay.heldModifiers ≠ m ∨ s.relay.heldKeys ≠ keys
    keys.Pairwise (· < ·) ∧ (∀ k, k ∈ keys ↔ k ≠ 0 ∧ ∃ j, codes.look j = k) ∧
    exec (.keys m codes) s = .next (({ s with
      relay := { s.relay with heldModifiers := m, heldKeys := keys }
      budget := if s.link.current.keyEnable = true ∧ changed then { s.budget with
          overrideActive := true
          hold := some (s.budget.now + BitVec.ofNat 32 (s.link.current.holdMs * 1000)) }
        else s.budget } : State).offerKeyboard m keys)) ∧
  (∀ (s : State) (m : Byte) (keys : List Byte),
    let e := InputEntry.keyboard m keys
    let q := s.relay.queue
    (q.length < 32 → s.offerKeyboard m keys = { s with relay := s.relay.joined e }) ∧
    (∀ a x b, 32 ≤ q.length → q = a ++ x :: b → x.isKeyboard = true → (∀ y ∈ b, y.isKeyboard = false) →
      s.offerKeyboard m keys = s.overflowed { s.relay with queue := a ++ e :: b }) ∧
    (∀ a x b, 32 ≤ q.length → (∀ y ∈ q, y.isKeyboard = false) → q = a ++ x :: b → x.isPointer = true →
      (∀ y ∈ a, y.isPointer = false) →
      s.offerKeyboard m keys = s.overflowed (({ s.relay with queue := a ++ b } : Relay).joined e)) ∧
    (∀ x b, 32 ≤ q.length → (∀ y ∈ q, y.isNotice = true) → q = x :: b →
      s.offerKeyboard m keys = s.overflowed (({ s.relay with queue := b, lost := true } : Relay).joined e)))

/-- A POINTER report while UP (R136, R156, R158, R159, R161, R169), and the POINTER release at link loss (R162). Motion
and button change are formed against the last report, and each with its enable on makes the override active; the
position and the buttons are replaced; and the report is offered to the queue, at the first step of R159 that applies:
it merges with a newest entry of equal buttons, the wheel values summed within their limit; it joins the tail, and
begins a frame at once where the transmitter is IDLE and the ready level high (R156); at 32 entries it replaces the
newest POINTER entry in its place, or is dropped; a report that replaces or is dropped counts one and raises
INPUT_OVERFLOW. The release, with all buttons clear and wheel 0, takes the same steps but the last: in place of being
dropped it sheds the oldest KEYBOARD entry other than the newest, or else the oldest NOTICE with the lost-notice flag
set, joins the tail, counts one and raises INPUT_OVERFLOW. -/
def Obligations.PointerReport : Prop :=
  (∀ (s : State) (x y : BitVec 16) (bs w : Byte), s.link.state = .up →
    let px := x.extractLsb' 0 15
    let py := y.extractLsb' 0 15
    let b := bs.extractLsb' 0 5
    let wheel := if w = 0x80 then -127 else w.toInt
    exec (.pointer x y bs w) s = .next (({ s with
      relay := { s.relay with position := some (px, py), buttons := b }
      budget := if (s.link.current.motionEnable = true ∧ s.relay.position ≠ some (px, py)) ∨
            (s.link.current.buttonEnable = true ∧ s.relay.buttons ≠ b) then { s.budget with
          overrideActive := true
          hold := some (s.budget.now + BitVec.ofNat 32 (s.link.current.holdMs * 1000)) }
        else s.budget } : State).offerPointer px py b wheel)) ∧
  (∀ (s t : State) (x y : BitVec 15) (b : BitVec 5) (wheel : Int) (release : Bool),
    t = (if release then s.offerPointerRelease x y else s.offerPointer x y b wheel) →
    (release = true → b = 0 ∧ wheel = 0) →
    let e := InputEntry.pointer x y b wheel
    let q := s.relay.queue
    let merges := ∃ l x0 y0 v, q = l ++ [.pointer x0 y0 b v]
    (∀ l x0 y0 v, q = l ++ [.pointer x0 y0 b v] →
      t = { s with relay := { s.relay with
        queue := l ++ [.pointer x y b (max (-127) (min 127 (v + wheel)))] } }) ∧
    (¬ merges → q.length < 32 → t = { s with relay := s.relay.joined e }) ∧
    (∀ l p r, ¬ merges → 32 ≤ q.length → q = l ++ p :: r → p.isPointer = true →
      (∀ z ∈ r, z.isPointer = false) → t = s.overflowed { s.relay with queue := l ++ e :: r }) ∧
    (release = false → 32 ≤ q.length → (∀ z ∈ q, z.isPointer = false) → t = s.overflowed s.relay) ∧
    (∀ l k r, release = true → 32 ≤ q.length → (∀ z ∈ q, z.isPointer = false) → q = l ++ k :: r →
      k.isKeyboard = true → (∀ z ∈ l, z.isKeyboard = false) → (∃ z ∈ r, z.isKeyboard = true) →
      t = s.overflowed (({ s.relay with queue := l ++ r } : Relay).joined e)) ∧
    (∀ l n r, release = true → 32 ≤ q.length → (∀ z ∈ q, z.isPointer = false) → q = l ++ n :: r →
      n.isNotice = true → (∀ z ∈ l, z.isNotice = false) → q.countP InputEntry.isKeyboard ≤ 1 →
      t = s.overflowed (({ s.relay with queue := l ++ r, lost := true } : Relay).joined e)))

/-- The input line. The transmitter and the notices (R156, R163): it begins a frame with the entry at the head of the
queue when the ready level rises while it is IDLE, and at the end of a frame with the level high; a NOTICE takes the
lost-notice flag and clears it; a fall of the level lets the frame being sent complete; with the queue empty or the
level low it becomes IDLE; a notice joins the queue, and is sent at once where the transmitter is IDLE and the level
high, or at 32 entries is discarded with the flag set; an IDLE transmitter ends no frame (log 21). Lamps and bad
inbound frames (R143, R165, R166): a LAMP raises LAMP_OVERRUN when a lamp set still waited; the record takes the new set and its pending flag is set; while the link is UP a LAMP frame
is offered and a send decision taken, so that with the wire idle and the FIFO empty it begins, which clears the flag,
and with the wire busy it takes the place of a queued LAMP frame or joins the tail; while not UP none is queued; a bad
frame counts one and raises INPUT_LINE_ERROR. The receiver ignores every byte but 0xA5 while hunting, and takes that
one whatever its stop bit; it finds a good frame's lamp set; it discards a frame of another kind or length once both
bytes are taken (log 30), one with a wrong check, and one with a bad stop bit at any byte after the start mark; and
then it hunts again. The command that a byte completes joins the end of the queue, which is the model's choice
(log 20). -/
def Obligations.InputLine : Prop :=
  (∀ s : State,
     let begun := fun (x : InputEntry) (rest : List InputEntry) => ({ s with relay := { s.relay with
       queue := rest
       sending := some { entry := x, lost := x.isNotice && s.relay.lost }
       ready := true
       lost := !x.isNotice && s.relay.lost } } : State)
     exec .readyLevelFall s = .next { s with relay := { s.relay with ready := false } } ∧
     (s.relay.sending ≠ none ∨ s.relay.queue = [] →
       exec .readyLevelRise s = .next { s with relay := { s.relay with ready := true } }) ∧
     (∀ x rest, s.relay.sending = none → s.relay.queue = x :: rest →
       exec .readyLevelRise s = .next (begun x rest)) ∧
     (s.relay.sending = none → exec .inputFrameEnd s = .next s) ∧
     (s.relay.sending ≠ none → s.relay.ready = false ∨ s.relay.queue = [] →
       exec .inputFrameEnd s = .next { s with relay := { s.relay with sending := none } }) ∧
     (∀ x rest, s.relay.sending ≠ none → s.relay.ready = true → s.relay.queue = x :: rest →
       exec .inputFrameEnd s = .next (begun x rest)) ∧
     (∀ n, 32 ≤ s.relay.queue.length →
       s.offerNotice n = { s with relay := { s.relay with lost := true } }) ∧
     (∀ n, s.relay.queue.length < 32 → s.relay.sending ≠ none ∨ s.relay.ready = false →
       s.offerNotice n = { s with relay := { s.relay with queue := s.relay.queue ++ [.notice n] } }) ∧
     (∀ n, s.relay.queue.length < 32 → s.offerNotice n = { s with relay := s.relay.joined (.notice n) }) ∧
     (∀ n, s.relay.queue = [] → s.relay.sending = none → s.relay.ready = true →
       s.offerNotice n = { s with relay := { s.relay with
         sending := some { entry := .notice n, lost := s.relay.lost }, lost := false } })) ∧
  (∀ (s : State) (w : Byte),
    let raised := if s.relay.lampPending then s.link.raise .lampOverrun else s.link
    let noted : State := { s with link := raised, relay := { s.relay with lamps := w, lampPending := true } }
    (s.link.state ≠ .up → exec (.lamp w) s = .next noted) ∧
    (s.link.state = .up → exec (.lamp w) s = .next (noted.offerLamp w).sendDecision) ∧
    (s.link.state = .up → s.link.wire = .idle → s.link.control = [] →
      exec (.lamp w) s = .next { noted with
        link := { raised with wire := .control (.lamp w) }
        relay := { noted.relay with lampPending := false } }) ∧
    (s.link.state = .up → s.link.wire ≠ .idle →
      ((∀ f ∈ s.link.control, f.isLamp = false) → s.link.control.length < 16 →
        exec (.lamp w) s = .next { noted with link := { raised with
          control := s.link.control ++ [.lamp w] } }) ∧
      ((∃ f ∈ s.link.control, f.isLamp = true) →
        exec (.lamp w) s = .next { noted with link := { raised with
          control := s.link.control.map fun f => if f.isLamp then .lamp w else f } }))) ∧
  (∀ (s : State) (x : LineDefect), exec (.inputLineBadFrame x) s = .next { s with
    counters := s.counters.store .inputLineErrors (saturatingAdd s.counters.inputLineErrors 1)
    link := s.link.raise .inputLineError }) ∧
  (∀ (s : State) (b : LineByte), s.receiveLineByte b = { s with
    relay := { s.relay with receiver := (s.relay.receiver.take b).1 }
    pending := s.pending ++ (s.relay.receiver.take b).2.toList }) ∧
  (let run := fun bytes : List (Byte × Bool) => bytes.foldl
      (fun (a : Receiver × List Instr) v =>
        let t := a.1.take { value := v.1, stopOk := v.2 }
        (t.1, a.2 ++ t.2.toList)) (Receiver.hunting, []);
    ∀ (w k v : Byte) (stop : Bool),
      run [(0xA5, stop), (0x81, true), (0x01, true), (w, true), (0x81 ^^^ 0x01 ^^^ w, true)] =
        (.hunting, [.lamp w]) ∧
      (v ≠ 0x81 ^^^ 0x01 ^^^ w →
        run [(0xA5, stop), (0x81, true), (0x01, true), (w, true), (v, true)] =
          (.hunting, [.inputLineBadFrame .badCheck])) ∧
      (v ≠ 0xA5 → run [(v, stop)] = (.hunting, [])) ∧
      (k ≠ 0x81 → run [(0xA5, stop), (k, true), (v, true)] = (.hunting, [.inputLineBadFrame .wrongKind])) ∧
      (v ≠ 0x01 → run [(0xA5, stop), (0x81, true), (v, true)] =
        (.hunting, [.inputLineBadFrame .wrongLength])) ∧
      (∀ begun ∈ [[], [(k, true)], [(0x81, true), (0x01, true)], [(0x81, true), (0x01, true), (w, true)]],
        run ([(0xA5, stop)] ++ begun ++ [(v, false)]) = (.hunting, [.inputLineBadFrame .badStop])))

/-! ### What every step keeps -/

/-- Every step keeps the two queues' bounds: the input queue never holds more than 32 entries, every queued pointer
entry's wheel value lies within -127 to +127 (R157), and the control FIFO holds at most 16 frames with at most one
HEAD frame for each head, one LAMP and one STATUS while UP, one HELLO while ALIGNING and none while DOWN (R143). -/
def Obligations.QueuesStayBounded : Prop :=
  (∀ s t : State, s.inputQueueBounded → step s = .next t → t.inputQueueBounded) ∧
    ∀ s t : State, s.controlFifoBounded → step s = .next t → t.controlFifoBounded

/-- Every step keeps every head's credit between 0 and its cap, and the cap at max(4 * share, 8,192) (R127, R128). -/
def Obligations.CreditsStayWithinCaps : Prop :=
  ∀ s t : State, s.creditsWithinCaps → step s = .next t → t.creditsWithinCaps

/-- Every step keeps the surface table sound: fields in range, one stale mark for each tile, no two declared surfaces
sharing a byte, none in the announcement area, and at most 98,304 tiles in all (R33, R35 to R37, R49). -/
def Obligations.SurfacesStaySound : Prop :=
  ∀ s t : State, s.surfacesSound → step s = .next t → t.surfacesSound

/-- Every step keeps the head table in agreement with the surface table (R34, R41, R52, R67), a head in TRACK SHOWING
(R76), and, with both, the shares summing to the link budget in force (R124). -/
def Obligations.HeadsAndSharesStaySound : Prop :=
  (∀ s t : State, s.headsSound → step s = .next t → t.headsSound) ∧
  (∀ s t : State, s.trackingIsShowing → step s = .next t → t.trackingIsShowing) ∧
    ∀ s t : State, s.headsSound → s.sharesSpendTheBudget → step s = .next t → t.sharesSpendTheBudget

/-- Every step keeps each record where its state says, and once: in the encode queue, the encoder, its head's deferral
list or send FIFO, or on the wire (R112, R113, R132, R144, R146), with no tile frame on the wire while the link is
not UP (R140). -/
def Obligations.RecordsStayInPlace : Prop :=
  ∀ s t : State, s.slotsInPlace → s.tilesOnlyWhileUp → step s = .next t →
    t.slotsInPlace ∧ t.tilesOnlyWhileUp

/-- Every step keeps at most one live record for any pair of surface and tile (R91), every byte buffer in its
canonical form (log 16) and every OPEN row in 0 to R - 1 (R3). -/
def Obligations.RecordsBuffersAndRowsStaySound : Prop :=
  (∀ s t : State, s.recordsUnique → step s = .next t → t.recordsUnique) ∧
  (∀ s t : State, s.buffersCanonical → step s = .next t → t.buffersCanonical) ∧
    ∀ s t : State, s.openRowsInRange → step s = .next t → t.openRowsInRange
end

