-- ==== Sys2Proof/Laws/Buffer.lean ====
section
/-! SUPPORT. The byte buffers: reading after writing, and the canonical form kept by every operation (log 16). -/

namespace Sys2Proof.Machine

@[simp] theorem Buffer.read_nil (a : Nat) : Buffer.read [] a = 0 := rfl

@[simp] theorem Buffer.writeAll_nil (b : Buffer) : Buffer.writeAll b [] = b := rfl

@[simp] theorem Buffer.writeAll_cons (b : Buffer) (c : Nat × Byte) (cs : List (Nat × Byte)) :
    Buffer.writeAll b (c :: cs) = Buffer.writeAll (Buffer.write b c.1 c.2) cs := rfl

@[simp] theorem Buffer.wf_nil : Buffer.wf [] := by simp [Buffer.wf]

theorem Buffer.wf_cons {c : Host.Cell} {b : Buffer} :
    Buffer.wf (c :: b) ↔ (∀ d ∈ b, c.1 < d.1) ∧ c.2 ≠ 0 ∧ Buffer.wf b := by
  simp only [Buffer.wf, List.pairwise_cons, List.mem_cons, forall_eq_or_imp]
  tauto

/-- Every entry of a written buffer is the written one or an entry of the old buffer. -/
theorem Buffer.mem_write {b : Buffer} {a : Nat} {v : Byte} {c : Host.Cell} (h : c ∈ Buffer.write b a v) :
    (c = (a, v) ∧ v ≠ 0) ∨ c ∈ b := by
  induction b with
  | nil => by_cases hv : v = 0#8 <;> simp_all [Buffer.write]
  | cons d b ih =>
    obtain ⟨k, x⟩ := d
    by_cases hv : v = 0#8 <;> by_cases h1 : a < k <;> by_cases h2 : a = k <;>
      simp_all [Buffer.write] <;> tauto

/-- A write keeps the canonical form. -/
theorem Buffer.write_wf {b : Buffer} (hb : Buffer.wf b) (a : Nat) (v : Byte) :
    Buffer.wf (Buffer.write b a v) := by
  induction b with
  | nil => by_cases hv : v = 0#8 <;> simp [Buffer.write, hv, Buffer.wf]
  | cons d b ih =>
    obtain ⟨k, x⟩ := d
    obtain ⟨hlt, hx, hw⟩ := Buffer.wf_cons.1 hb
    by_cases h1 : a < k
    · by_cases hv : v = 0
      · simpa only [Buffer.write, h1, hv, if_true] using hb
      · simp only [Buffer.write, h1, hv, if_true, if_false]
        refine Buffer.wf_cons.2 ⟨?_, hv, hb⟩
        intro d hd
        rcases List.mem_cons.1 hd with rfl | hd
        · exact h1
        · exact lt_trans h1 (hlt d hd)
    · by_cases h2 : a = k
      · subst h2
        by_cases hv : v = 0
        · simpa only [Buffer.write, hv, lt_irrefl, if_true, if_false] using hw
        · simp only [Buffer.write, hv, if_false, lt_irrefl, if_true]
          exact Buffer.wf_cons.2 ⟨hlt, hv, hw⟩
      · simp only [Buffer.write, h1, h2, if_false]
        refine Buffer.wf_cons.2 ⟨?_, hx, ih hw⟩
        intro d hd
        rcases Buffer.mem_write hd with ⟨rfl, -⟩ | hd
        · exact lt_of_le_of_ne (not_lt.1 h1) (Ne.symm h2)
        · exact hlt d hd

/-- A list of writes keeps the canonical form. -/
theorem Buffer.writeAll_wf {b : Buffer} (hb : Buffer.wf b) (cs : List (Nat × Byte)) :
    Buffer.wf (Buffer.writeAll b cs) := by
  induction cs generalizing b with
  | nil => exact hb
  | cons c cs ih => exact ih (Buffer.write_wf hb c.1 c.2)

/-- An offset below every entry reads as 0. -/
theorem Buffer.read_of_below {b : Buffer} {a : Nat} (h : ∀ d ∈ b, a < d.1) : Buffer.read b a = 0 := by
  induction b with
  | nil => rfl
  | cons d b ih =>
    have hd : d.1 ≠ a := (h d (by simp)).ne'
    simp only [Buffer.read, hd, if_false]
    exact ih fun e he => h e (by simp [he])

/-- Reading after a write: the written byte at its offset, the old byte elsewhere. -/
theorem Buffer.read_write {b : Buffer} (hb : Buffer.wf b) (a c : Nat) (v : Byte) :
    Buffer.read (Buffer.write b a v) c = if c = a then v else Buffer.read b c := by
  induction b with
  | nil =>
    by_cases hv : v = 0 <;> by_cases hc : c = a <;>
      simp only [Buffer.write, Buffer.read, hv, hc, if_true, if_false, eq_comm (a := a), ite_self]
  | cons d b ih =>
    obtain ⟨k, x⟩ := d
    obtain ⟨hlt, -, hw⟩ := Buffer.wf_cons.1 hb
    by_cases h1 : a < k
    · have hbelow : Buffer.read ((k, x) :: b) a = 0 := Buffer.read_of_below fun d hd => by
        rcases List.mem_cons.1 hd with rfl | hd
        · exact h1
        · exact lt_trans h1 (hlt d hd)
      by_cases hv : v = 0
      · simp only [Buffer.write, h1, hv, if_true]
        by_cases hc : c = a
        · simp only [hc, hbelow, if_true]
        · simp only [hc, if_false]
      · simp only [Buffer.write, h1, hv, if_true, if_false]
        rw [Buffer.read]
        simp only [eq_comm (a := a)]
    · by_cases h2 : a = k
      · subst h2
        have hbelow : Buffer.read b a = 0 := Buffer.read_of_below hlt
        by_cases hv : v = 0
        · simp only [Buffer.write, lt_irrefl, hv, if_true, if_false]
          by_cases hc : c = a
          · simp only [hc, hbelow, if_true]
          · simp only [hc, Buffer.read, Ne.symm hc, if_false]
        · simp only [Buffer.write, lt_irrefl, hv, if_true, if_false, Buffer.read]
          by_cases hc : c = a
          · simp only [hc, if_true]
          · simp only [hc, Ne.symm hc, if_false]
      · simp only [Buffer.write, h1, h2, if_false, Buffer.read]
        by_cases hk : k = c
        · subst hk; simp only [if_true, Ne.symm h2, if_false]
        · simp only [hk, if_false, ih hw]

end Sys2Proof.Machine
end

