-- ==== Sys2Proof/Laws/Table.lean ====
section
/-! SUPPORT. The fixed-size tables: what reading an entry gives after each way of changing one. -/

namespace Sys2Proof.Table

variable {n : Nat} {α β : Type}

@[simp] theorem look_put_self (t : Table n α) (i : Fin n) (x : α) : (t.put i x).look i = x := by
  simp [look, put]

theorem look_put_ne (t : Table n α) {i j : Fin n} (h : j ≠ i) (x : α) : (t.put i x).look j = t.look j := by
  have h' : ¬ i.1 = j.1 := fun e => h (Fin.ext e.symm)
  simp [look, put, h']

theorem look_put (t : Table n α) (i j : Fin n) (x : α) :
    (t.put i x).look j = if j = i then x else t.look j := by
  by_cases h : j = i
  · subst h; simp
  · simp [h, look_put_ne t h]

@[simp] theorem look_upd_self (t : Table n α) (i : Fin n) (f : α → α) :
    (t.upd i f).look i = f (t.look i) := by simp [upd]

theorem look_upd_ne (t : Table n α) {i j : Fin n} (h : j ≠ i) (f : α → α) :
    (t.upd i f).look j = t.look j := look_put_ne t h _

theorem look_upd (t : Table n α) (i j : Fin n) (f : α → α) :
    (t.upd i f).look j = if j = i then f (t.look i) else t.look j := look_put t i j _

@[simp] theorem look_tab (f : Fin n → α) (i : Fin n) : (tab f).look i = f i := by simp [look, tab]

@[simp] theorem look_const (x : α) (i : Fin n) : (const x : Table n α).look i = x := by simp [const]

/-- Two tables that read alike are one table. -/
theorem ext_look {t u : Table n α} (h : ∀ i, t.look i = u.look i) : t = u :=
  Vector.ext fun k hk => by simpa [look] using h ⟨k, hk⟩

@[simp] theorem put_look (t : Table n α) (i : Fin n) : t.put i (t.look i) = t :=
  ext_look fun j => by rw [look_put]; split <;> simp_all

@[simp] theorem upd_id (t : Table n α) (i : Fin n) : t.upd i id = t := by simp [upd]

end Sys2Proof.Table
end

