-- ==== Sys2Proof/Laws/Channel.lean ====
section
/-! SUPPORT. Which rank a channel command is taken for (R2, R15), and the shortcuts that a proof about an ACTIVE rank
uses. -/

namespace Sys2Proof.Machine

/-- A command to a rank the straps have, with the memory reset line released, is taken for that rank. -/
theorem State.onRank_taken (s : State) (r : Fin 2) (f : Fin 2 → State → State) (hl : s.memoryResetLine = false)
    (hr : r.1 < s.straps.rankCount) : s.onRank r.1 f = f r s := by
  have e : Fin.ofNat 2 r.1 = r := by
    apply Fin.ext
    simp only [Fin.ofNat]
    omega
  unfold State.onRank State.takenRank
  simp only [hl, if_pos hr, e, Bool.false_eq_true, if_false]

/-- A command to a rank the straps do not have is not taken (R2). -/
theorem State.onRank_missing (s : State) (rank : Nat) (f : Fin 2 → State → State)
    (hr : s.straps.rankCount ≤ rank) : s.onRank rank f = s := by
  have e : s.takenRank rank = none := by
    unfold State.takenRank
    split
    · rfl
    · rw [if_neg (by omega)]
  simp only [State.onRank, e]

/-- While the memory reset line is asserted no command to a rank is taken (R15). -/
theorem State.onRank_held (s : State) (rank : Nat) (f : Fin 2 → State → State) (hl : s.memoryResetLine = true) :
    s.onRank rank f = s := by
  simp only [State.onRank, State.takenRank, hl, if_true]

/-- An ACTIVE rank is not woken. -/
theorem Rank.awake_of_active (k : Rank) (h : k.power = .active) : k.awake = k := by
  unfold Rank.awake
  rw [← h]

/-- A rank has an OPEN bank exactly when some entry is OPEN. -/
theorem Rank.anyOpen_iff (k : Rank) : k.anyOpen = true ↔ ∃ b, k.banks.look b ≠ none := by
  simp [Rank.anyOpen, List.any_eq_true, Option.isSome_iff_ne_none]

end Sys2Proof.Machine
end

