-- ==== Sys2Proof/Laws/State.lean ====
section
/-! SUPPORT. For each named update of State: what it leaves as it was, field by field (a conjunction that simp takes
apart), and what the field it changes becomes. No later proof unfolds a record update. -/

namespace Sys2Proof.Machine

variable (s : State)

/-! ### Updates of one field -/

/-- A change to one surface changes the surface table alone. -/
@[simp] theorem State.updSurface_frame (id : Fin 16) (f : Surface → Surface) :
    (s.updSurface id f).straps = s.straps ∧ (s.updSurface id f).memoryResetLine = s.memoryResetLine ∧
    (s.updSurface id f).channel = s.channel ∧ (s.updSurface id f).descriptors = s.descriptors ∧
    (s.updSurface id f).heads = s.heads ∧ (s.updSurface id f).scans = s.scans ∧
    (s.updSurface id f).slots = s.slots ∧ (s.updSurface id f).rovers = s.rovers ∧
    (s.updSurface id f).encodeQueue = s.encodeQueue ∧ (s.updSurface id f).encoder = s.encoder ∧
    (s.updSurface id f).budget = s.budget ∧ (s.updSurface id f).link = s.link ∧
    (s.updSurface id f).relay = s.relay ∧ (s.updSurface id f).counters = s.counters ∧
    (s.updSurface id f).pending = s.pending :=
  ⟨rfl, rfl, rfl, rfl, rfl, rfl, rfl, rfl, rfl, rfl, rfl, rfl, rfl, rfl, rfl⟩

@[simp] theorem State.updSurface_surfaces (id : Fin 16) (f : Surface → Surface) :
    (s.updSurface id f).surfaces = s.surfaces.upd id (Option.map f) := rfl

/-- One mark changes the surface table alone. -/
@[simp] theorem State.markStale_frame (id : Fin 16) (c r : Nat) :
    (s.markStale id c r).straps = s.straps ∧ (s.markStale id c r).memoryResetLine = s.memoryResetLine ∧
    (s.markStale id c r).channel = s.channel ∧ (s.markStale id c r).descriptors = s.descriptors ∧
    (s.markStale id c r).heads = s.heads ∧ (s.markStale id c r).scans = s.scans ∧
    (s.markStale id c r).slots = s.slots ∧ (s.markStale id c r).rovers = s.rovers ∧
    (s.markStale id c r).encodeQueue = s.encodeQueue ∧ (s.markStale id c r).encoder = s.encoder ∧
    (s.markStale id c r).budget = s.budget ∧ (s.markStale id c r).link = s.link ∧
    (s.markStale id c r).relay = s.relay ∧ (s.markStale id c r).counters = s.counters ∧
    (s.markStale id c r).pending = s.pending :=
  ⟨rfl, rfl, rfl, rfl, rfl, rfl, rfl, rfl, rfl, rfl, rfl, rfl, rfl, rfl, rfl⟩

/-- One mark changes the surface table alone. -/
@[simp] theorem State.clearStale_frame (id : Fin 16) (c r : Nat) :
    (s.clearStale id c r).straps = s.straps ∧ (s.clearStale id c r).memoryResetLine = s.memoryResetLine ∧
    (s.clearStale id c r).channel = s.channel ∧ (s.clearStale id c r).descriptors = s.descriptors ∧
    (s.clearStale id c r).heads = s.heads ∧ (s.clearStale id c r).scans = s.scans ∧
    (s.clearStale id c r).slots = s.slots ∧ (s.clearStale id c r).rovers = s.rovers ∧
    (s.clearStale id c r).encodeQueue = s.encodeQueue ∧ (s.clearStale id c r).encoder = s.encoder ∧
    (s.clearStale id c r).budget = s.budget ∧ (s.clearStale id c r).link = s.link ∧
    (s.clearStale id c r).relay = s.relay ∧ (s.clearStale id c r).counters = s.counters ∧
    (s.clearStale id c r).pending = s.pending :=
  ⟨rfl, rfl, rfl, rfl, rfl, rfl, rfl, rfl, rfl, rfl, rfl, rfl, rfl, rfl, rfl⟩

/-- Whole-surface marking changes the surface table alone (R57). -/
@[simp] theorem State.markWhole_frame (id : Fin 16) :
    (s.markWhole id).straps = s.straps ∧ (s.markWhole id).memoryResetLine = s.memoryResetLine ∧
    (s.markWhole id).channel = s.channel ∧ (s.markWhole id).descriptors = s.descriptors ∧
    (s.markWhole id).heads = s.heads ∧ (s.markWhole id).scans = s.scans ∧
    (s.markWhole id).slots = s.slots ∧ (s.markWhole id).rovers = s.rovers ∧
    (s.markWhole id).encodeQueue = s.encodeQueue ∧ (s.markWhole id).encoder = s.encoder ∧
    (s.markWhole id).budget = s.budget ∧ (s.markWhole id).link = s.link ∧
    (s.markWhole id).relay = s.relay ∧ (s.markWhole id).counters = s.counters ∧
    (s.markWhole id).pending = s.pending :=
  ⟨rfl, rfl, rfl, rfl, rfl, rfl, rfl, rfl, rfl, rfl, rfl, rfl, rfl, rfl, rfl⟩

/-- Marking every surface changes the surface table alone (R58). -/
@[simp] theorem State.markEverySurface_frame  :
    (s.markEverySurface).straps = s.straps ∧ (s.markEverySurface).memoryResetLine = s.memoryResetLine ∧
    (s.markEverySurface).channel = s.channel ∧ (s.markEverySurface).descriptors = s.descriptors ∧
    (s.markEverySurface).heads = s.heads ∧ (s.markEverySurface).scans = s.scans ∧
    (s.markEverySurface).slots = s.slots ∧ (s.markEverySurface).rovers = s.rovers ∧
    (s.markEverySurface).encodeQueue = s.encodeQueue ∧ (s.markEverySurface).encoder = s.encoder ∧
    (s.markEverySurface).budget = s.budget ∧ (s.markEverySurface).link = s.link ∧
    (s.markEverySurface).relay = s.relay ∧ (s.markEverySurface).counters = s.counters ∧
    (s.markEverySurface).pending = s.pending :=
  by simp [State.markEverySurface]

/-- A change to one head changes the head table alone. -/
@[simp] theorem State.updHead_frame (h : Fin 4) (f : Head → Head) :
    (s.updHead h f).straps = s.straps ∧ (s.updHead h f).memoryResetLine = s.memoryResetLine ∧
    (s.updHead h f).channel = s.channel ∧ (s.updHead h f).descriptors = s.descriptors ∧
    (s.updHead h f).surfaces = s.surfaces ∧ (s.updHead h f).scans = s.scans ∧
    (s.updHead h f).slots = s.slots ∧ (s.updHead h f).rovers = s.rovers ∧
    (s.updHead h f).encodeQueue = s.encodeQueue ∧ (s.updHead h f).encoder = s.encoder ∧
    (s.updHead h f).budget = s.budget ∧ (s.updHead h f).link = s.link ∧ (s.updHead h f).relay = s.relay ∧
    (s.updHead h f).counters = s.counters ∧ (s.updHead h f).pending = s.pending :=
  ⟨rfl, rfl, rfl, rfl, rfl, rfl, rfl, rfl, rfl, rfl, rfl, rfl, rfl, rfl, rfl⟩

@[simp] theorem State.updHead_heads (h : Fin 4) (f : Head → Head) :
    (s.updHead h f).heads = s.heads.upd h f := rfl

/-- A change to one follower changes the followers alone. -/
@[simp] theorem State.updScan_frame (h : Fin 4) (f : Scan → Scan) :
    (s.updScan h f).straps = s.straps ∧ (s.updScan h f).memoryResetLine = s.memoryResetLine ∧
    (s.updScan h f).channel = s.channel ∧ (s.updScan h f).descriptors = s.descriptors ∧
    (s.updScan h f).surfaces = s.surfaces ∧ (s.updScan h f).heads = s.heads ∧
    (s.updScan h f).slots = s.slots ∧ (s.updScan h f).rovers = s.rovers ∧
    (s.updScan h f).encodeQueue = s.encodeQueue ∧ (s.updScan h f).encoder = s.encoder ∧
    (s.updScan h f).budget = s.budget ∧ (s.updScan h f).link = s.link ∧ (s.updScan h f).relay = s.relay ∧
    (s.updScan h f).counters = s.counters ∧ (s.updScan h f).pending = s.pending :=
  ⟨rfl, rfl, rfl, rfl, rfl, rfl, rfl, rfl, rfl, rfl, rfl, rfl, rfl, rfl, rfl⟩

@[simp] theorem State.updScan_scans (h : Fin 4) (f : Scan → Scan) :
    (s.updScan h f).scans = s.scans.upd h f := rfl

/-- A restart of a stall timer changes the followers alone (R79). -/
@[simp] theorem State.restartStall_frame (h : Fin 4) :
    (s.restartStall h).straps = s.straps ∧ (s.restartStall h).memoryResetLine = s.memoryResetLine ∧
    (s.restartStall h).channel = s.channel ∧ (s.restartStall h).descriptors = s.descriptors ∧
    (s.restartStall h).surfaces = s.surfaces ∧ (s.restartStall h).heads = s.heads ∧
    (s.restartStall h).slots = s.slots ∧ (s.restartStall h).rovers = s.rovers ∧
    (s.restartStall h).encodeQueue = s.encodeQueue ∧ (s.restartStall h).encoder = s.encoder ∧
    (s.restartStall h).budget = s.budget ∧ (s.restartStall h).link = s.link ∧
    (s.restartStall h).relay = s.relay ∧ (s.restartStall h).counters = s.counters ∧
    (s.restartStall h).pending = s.pending :=
  ⟨rfl, rfl, rfl, rfl, rfl, rfl, rfl, rfl, rfl, rfl, rfl, rfl, rfl, rfl, rfl⟩

/-- A change to one head's budget changes nothing else. -/
@[simp] theorem State.updBudget_frame (h : Fin 4) (f : HeadBudget → HeadBudget) :
    (s.updBudget h f).straps = s.straps ∧ (s.updBudget h f).memoryResetLine = s.memoryResetLine ∧
    (s.updBudget h f).channel = s.channel ∧ (s.updBudget h f).descriptors = s.descriptors ∧
    (s.updBudget h f).surfaces = s.surfaces ∧ (s.updBudget h f).heads = s.heads ∧
    (s.updBudget h f).scans = s.scans ∧ (s.updBudget h f).slots = s.slots ∧
    (s.updBudget h f).rovers = s.rovers ∧ (s.updBudget h f).encodeQueue = s.encodeQueue ∧
    (s.updBudget h f).encoder = s.encoder ∧ (s.updBudget h f).budget.now = s.budget.now ∧
    (s.updBudget h f).budget.tickAt = s.budget.tickAt ∧
    (s.updBudget h f).budget.epochTicks = s.budget.epochTicks ∧
    (s.updBudget h f).budget.recompute = s.budget.recompute ∧
    (s.updBudget h f).budget.overrideActive = s.budget.overrideActive ∧
    (s.updBudget h f).budget.hold = s.budget.hold ∧ (s.updBudget h f).link = s.link ∧
    (s.updBudget h f).relay = s.relay ∧ (s.updBudget h f).counters = s.counters ∧
    (s.updBudget h f).pending = s.pending :=
  by repeat' constructor

@[simp] theorem State.updBudget_heads (h : Fin 4) (f : HeadBudget → HeadBudget) :
    (s.updBudget h f).budget.heads = s.budget.heads.upd h f := rfl

/-- An accumulator's increase changes nothing else (R122). -/
@[simp] theorem State.addDemand_frame (h : Fin 4) (n : Nat) :
    (s.addDemand h n).straps = s.straps ∧ (s.addDemand h n).memoryResetLine = s.memoryResetLine ∧
    (s.addDemand h n).channel = s.channel ∧ (s.addDemand h n).descriptors = s.descriptors ∧
    (s.addDemand h n).surfaces = s.surfaces ∧ (s.addDemand h n).heads = s.heads ∧
    (s.addDemand h n).scans = s.scans ∧ (s.addDemand h n).slots = s.slots ∧
    (s.addDemand h n).rovers = s.rovers ∧ (s.addDemand h n).encodeQueue = s.encodeQueue ∧
    (s.addDemand h n).encoder = s.encoder ∧ (s.addDemand h n).budget.now = s.budget.now ∧
    (s.addDemand h n).budget.tickAt = s.budget.tickAt ∧
    (s.addDemand h n).budget.epochTicks = s.budget.epochTicks ∧
    (s.addDemand h n).budget.recompute = s.budget.recompute ∧
    (s.addDemand h n).budget.overrideActive = s.budget.overrideActive ∧
    (s.addDemand h n).budget.hold = s.budget.hold ∧ (s.addDemand h n).link = s.link ∧
    (s.addDemand h n).relay = s.relay ∧ (s.addDemand h n).counters = s.counters ∧
    (s.addDemand h n).pending = s.pending :=
  by repeat' constructor

/-- A slot that leaves a deferral list changes nothing else (R132). -/
@[simp] theorem State.dropDeferred_frame (h : Fin 4) (i : Fin 64) :
    (s.dropDeferred h i).straps = s.straps ∧ (s.dropDeferred h i).memoryResetLine = s.memoryResetLine ∧
    (s.dropDeferred h i).channel = s.channel ∧ (s.dropDeferred h i).descriptors = s.descriptors ∧
    (s.dropDeferred h i).surfaces = s.surfaces ∧ (s.dropDeferred h i).heads = s.heads ∧
    (s.dropDeferred h i).scans = s.scans ∧ (s.dropDeferred h i).slots = s.slots ∧
    (s.dropDeferred h i).rovers = s.rovers ∧ (s.dropDeferred h i).encodeQueue = s.encodeQueue ∧
    (s.dropDeferred h i).encoder = s.encoder ∧ (s.dropDeferred h i).budget.now = s.budget.now ∧
    (s.dropDeferred h i).budget.tickAt = s.budget.tickAt ∧
    (s.dropDeferred h i).budget.epochTicks = s.budget.epochTicks ∧
    (s.dropDeferred h i).budget.recompute = s.budget.recompute ∧
    (s.dropDeferred h i).budget.overrideActive = s.budget.overrideActive ∧
    (s.dropDeferred h i).budget.hold = s.budget.hold ∧ (s.dropDeferred h i).link = s.link ∧
    (s.dropDeferred h i).relay = s.relay ∧ (s.dropDeferred h i).counters = s.counters ∧
    (s.dropDeferred h i).pending = s.pending :=
  by repeat' constructor

/-- A recomputation changes shares, caps and credits alone (R124). -/
@[simp] theorem State.recomputeShares_frame  :
    (s.recomputeShares).straps = s.straps ∧ (s.recomputeShares).memoryResetLine = s.memoryResetLine ∧
    (s.recomputeShares).channel = s.channel ∧ (s.recomputeShares).descriptors = s.descriptors ∧
    (s.recomputeShares).surfaces = s.surfaces ∧ (s.recomputeShares).heads = s.heads ∧
    (s.recomputeShares).scans = s.scans ∧ (s.recomputeShares).slots = s.slots ∧
    (s.recomputeShares).rovers = s.rovers ∧ (s.recomputeShares).encodeQueue = s.encodeQueue ∧
    (s.recomputeShares).encoder = s.encoder ∧ (s.recomputeShares).budget.now = s.budget.now ∧
    (s.recomputeShares).budget.tickAt = s.budget.tickAt ∧
    (s.recomputeShares).budget.epochTicks = s.budget.epochTicks ∧
    (s.recomputeShares).budget.recompute = s.budget.recompute ∧
    (s.recomputeShares).budget.overrideActive = s.budget.overrideActive ∧
    (s.recomputeShares).budget.hold = s.budget.hold ∧ (s.recomputeShares).link = s.link ∧
    (s.recomputeShares).relay = s.relay ∧ (s.recomputeShares).counters = s.counters ∧
    (s.recomputeShares).pending = s.pending :=
  by simp [State.recomputeShares]

@[simp] theorem State.recomputeShares_heads (h : Fin 4) :
    s.recomputeShares.budget.heads.look h = (s.budget.heads.look h).withShare (s.newShare h) := by
  simp [State.recomputeShares]

/-- A refill changes credits alone (R128). -/
@[simp] theorem State.refill_frame  :
    (s.refill).straps = s.straps ∧ (s.refill).memoryResetLine = s.memoryResetLine ∧
    (s.refill).channel = s.channel ∧ (s.refill).descriptors = s.descriptors ∧
    (s.refill).surfaces = s.surfaces ∧ (s.refill).heads = s.heads ∧ (s.refill).scans = s.scans ∧
    (s.refill).slots = s.slots ∧ (s.refill).rovers = s.rovers ∧ (s.refill).encodeQueue = s.encodeQueue ∧
    (s.refill).encoder = s.encoder ∧ (s.refill).budget.now = s.budget.now ∧
    (s.refill).budget.tickAt = s.budget.tickAt ∧ (s.refill).budget.epochTicks = s.budget.epochTicks ∧
    (s.refill).budget.recompute = s.budget.recompute ∧
    (s.refill).budget.overrideActive = s.budget.overrideActive ∧ (s.refill).budget.hold = s.budget.hold ∧
    (s.refill).link = s.link ∧ (s.refill).relay = s.relay ∧ (s.refill).counters = s.counters ∧
    (s.refill).pending = s.pending :=
  by simp [State.refill]

@[simp] theorem State.refill_heads (h : Fin 4) :
    s.refill.budget.heads.look h =
      if s.isOn h then
        { s.budget.heads.look h with
          credit := min ((s.budget.heads.look h).credit + (s.budget.heads.look h).share)
            (s.budget.heads.look h).cap }
      else s.budget.heads.look h := by
  simp [State.refill]

/-- The end of an epoch changes demands, accumulators and the tick count alone (R117, R123). -/
@[simp] theorem State.formDemands_frame  :
    (s.formDemands).straps = s.straps ∧ (s.formDemands).memoryResetLine = s.memoryResetLine ∧
    (s.formDemands).channel = s.channel ∧ (s.formDemands).descriptors = s.descriptors ∧
    (s.formDemands).surfaces = s.surfaces ∧ (s.formDemands).heads = s.heads ∧
    (s.formDemands).scans = s.scans ∧ (s.formDemands).slots = s.slots ∧ (s.formDemands).rovers = s.rovers ∧
    (s.formDemands).encodeQueue = s.encodeQueue ∧ (s.formDemands).encoder = s.encoder ∧
    (s.formDemands).budget.now = s.budget.now ∧ (s.formDemands).budget.tickAt = s.budget.tickAt ∧
    (s.formDemands).budget.recompute = s.budget.recompute ∧
    (s.formDemands).budget.overrideActive = s.budget.overrideActive ∧
    (s.formDemands).budget.hold = s.budget.hold ∧ (s.formDemands).link = s.link ∧
    (s.formDemands).relay = s.relay ∧ (s.formDemands).counters = s.counters ∧
    (s.formDemands).pending = s.pending :=
  by simp [State.formDemands]

@[simp] theorem State.formDemands_heads (h : Fin 4) :
    s.formDemands.budget.heads.look h =
      { s.budget.heads.look h with
        demand := if s.isOn h then ((s.budget.heads.look h).accumulator + 15) / 16 else 0
        accumulator := 0 } := by
  simp [State.formDemands]

@[simp] theorem State.formDemands_epochTicks : s.formDemands.budget.epochTicks = 0 := rfl

/-- The recompute request is one flag (R124). -/
@[simp] theorem State.requestRecompute_frame  :
    (s.requestRecompute).straps = s.straps ∧ (s.requestRecompute).memoryResetLine = s.memoryResetLine ∧
    (s.requestRecompute).channel = s.channel ∧ (s.requestRecompute).descriptors = s.descriptors ∧
    (s.requestRecompute).surfaces = s.surfaces ∧ (s.requestRecompute).heads = s.heads ∧
    (s.requestRecompute).scans = s.scans ∧ (s.requestRecompute).slots = s.slots ∧
    (s.requestRecompute).rovers = s.rovers ∧ (s.requestRecompute).encodeQueue = s.encodeQueue ∧
    (s.requestRecompute).encoder = s.encoder ∧ (s.requestRecompute).budget.now = s.budget.now ∧
    (s.requestRecompute).budget.tickAt = s.budget.tickAt ∧
    (s.requestRecompute).budget.epochTicks = s.budget.epochTicks ∧
    (s.requestRecompute).budget.heads = s.budget.heads ∧
    (s.requestRecompute).budget.overrideActive = s.budget.overrideActive ∧
    (s.requestRecompute).budget.hold = s.budget.hold ∧ (s.requestRecompute).link = s.link ∧
    (s.requestRecompute).relay = s.relay ∧ (s.requestRecompute).counters = s.counters ∧
    (s.requestRecompute).pending = s.pending :=
  by repeat' constructor

@[simp] theorem State.requestRecompute_recompute : s.requestRecompute.budget.recompute = true := rfl

/-- A change to one record changes the slots alone. -/
@[simp] theorem State.updRecord_frame (i : Fin 64) (f : Record → Record) :
    (s.updRecord i f).straps = s.straps ∧ (s.updRecord i f).memoryResetLine = s.memoryResetLine ∧
    (s.updRecord i f).channel = s.channel ∧ (s.updRecord i f).descriptors = s.descriptors ∧
    (s.updRecord i f).surfaces = s.surfaces ∧ (s.updRecord i f).heads = s.heads ∧
    (s.updRecord i f).scans = s.scans ∧ (s.updRecord i f).rovers = s.rovers ∧
    (s.updRecord i f).encodeQueue = s.encodeQueue ∧ (s.updRecord i f).encoder = s.encoder ∧
    (s.updRecord i f).budget = s.budget ∧ (s.updRecord i f).link = s.link ∧
    (s.updRecord i f).relay = s.relay ∧ (s.updRecord i f).counters = s.counters ∧
    (s.updRecord i f).pending = s.pending :=
  ⟨rfl, rfl, rfl, rfl, rfl, rfl, rfl, rfl, rfl, rfl, rfl, rfl, rfl, rfl, rfl⟩

@[simp] theorem State.updRecord_slots (i : Fin 64) (f : Record → Record) :
    (s.updRecord i f).slots = s.slots.upd i (Option.map f) := rfl

/-- A freeing changes the slots alone (R84). -/
@[simp] theorem State.freeSlot_frame (i : Fin 64) :
    (s.freeSlot i).straps = s.straps ∧ (s.freeSlot i).memoryResetLine = s.memoryResetLine ∧
    (s.freeSlot i).channel = s.channel ∧ (s.freeSlot i).descriptors = s.descriptors ∧
    (s.freeSlot i).surfaces = s.surfaces ∧ (s.freeSlot i).heads = s.heads ∧
    (s.freeSlot i).scans = s.scans ∧ (s.freeSlot i).rovers = s.rovers ∧
    (s.freeSlot i).encodeQueue = s.encodeQueue ∧ (s.freeSlot i).encoder = s.encoder ∧
    (s.freeSlot i).budget = s.budget ∧ (s.freeSlot i).link = s.link ∧ (s.freeSlot i).relay = s.relay ∧
    (s.freeSlot i).counters = s.counters ∧ (s.freeSlot i).pending = s.pending :=
  ⟨rfl, rfl, rfl, rfl, rfl, rfl, rfl, rfl, rfl, rfl, rfl, rfl, rfl, rfl, rfl⟩

@[simp] theorem State.freeSlot_slots (i : Fin 64) : (s.freeSlot i).slots = s.slots.put i none := rfl

/-- A release frees a slot and sets a mark (R63, R64). -/
@[simp] theorem State.release_frame (i : Fin 64) (r : Record) :
    (s.release i r).straps = s.straps ∧ (s.release i r).memoryResetLine = s.memoryResetLine ∧
    (s.release i r).channel = s.channel ∧ (s.release i r).descriptors = s.descriptors ∧
    (s.release i r).heads = s.heads ∧ (s.release i r).scans = s.scans ∧ (s.release i r).rovers = s.rovers ∧
    (s.release i r).encodeQueue = s.encodeQueue ∧ (s.release i r).encoder = s.encoder ∧
    (s.release i r).budget = s.budget ∧ (s.release i r).link = s.link ∧ (s.release i r).relay = s.relay ∧
    (s.release i r).counters = s.counters ∧ (s.release i r).pending = s.pending :=
  ⟨rfl, rfl, rfl, rfl, rfl, rfl, rfl, rfl, rfl, rfl, rfl, rfl, rfl, rfl⟩

@[simp] theorem State.release_slots (i : Fin 64) (r : Record) :
    (s.release i r).slots = s.slots.put i none := rfl

/-- A slot that leaves a send FIFO changes nothing else (R144). -/
@[simp] theorem State.dropQueued_frame (h : Fin 4) (i : Fin 64) :
    (s.dropQueued h i).straps = s.straps ∧ (s.dropQueued h i).memoryResetLine = s.memoryResetLine ∧
    (s.dropQueued h i).channel = s.channel ∧ (s.dropQueued h i).descriptors = s.descriptors ∧
    (s.dropQueued h i).surfaces = s.surfaces ∧ (s.dropQueued h i).heads = s.heads ∧
    (s.dropQueued h i).scans = s.scans ∧ (s.dropQueued h i).slots = s.slots ∧
    (s.dropQueued h i).rovers = s.rovers ∧ (s.dropQueued h i).encodeQueue = s.encodeQueue ∧
    (s.dropQueued h i).encoder = s.encoder ∧ (s.dropQueued h i).budget = s.budget ∧
    (s.dropQueued h i).link.state = s.link.state ∧ (s.dropQueued h i).link.acquired = s.link.acquired ∧
    (s.dropQueued h i).link.arriving = s.link.arriving ∧
    (s.dropQueued h i).link.aligned = s.link.aligned ∧
    (s.dropQueued h i).link.aligningAt = s.link.aligningAt ∧
    (s.dropQueued h i).link.helloAt = s.link.helloAt ∧ (s.dropQueued h i).link.control = s.link.control ∧
    (s.dropQueued h i).link.wire = s.link.wire ∧ (s.dropQueued h i).link.lastServed = s.link.lastServed ∧
    (s.dropQueued h i).link.staged = s.link.staged ∧ (s.dropQueued h i).link.current = s.link.current ∧
    (s.dropQueued h i).link.applyRequest = s.link.applyRequest ∧
    (s.dropQueued h i).link.latches = s.link.latches ∧
    (s.dropQueued h i).link.statusPending = s.link.statusPending ∧ (s.dropQueued h i).relay = s.relay ∧
    (s.dropQueued h i).counters = s.counters ∧ (s.dropQueued h i).pending = s.pending :=
  by repeat' constructor

@[simp] theorem State.dropQueued_send (h : Fin 4) (i : Fin 64) :
    (s.dropQueued h i).link.send = s.link.send.upd h fun l => l.filter (· ≠ i) := rfl

/-- A slot that leaves the encode queue changes nothing else (R112). -/
@[simp] theorem State.dropCaptured_frame (i : Fin 64) :
    (s.dropCaptured i).straps = s.straps ∧ (s.dropCaptured i).memoryResetLine = s.memoryResetLine ∧
    (s.dropCaptured i).channel = s.channel ∧ (s.dropCaptured i).descriptors = s.descriptors ∧
    (s.dropCaptured i).surfaces = s.surfaces ∧ (s.dropCaptured i).heads = s.heads ∧
    (s.dropCaptured i).scans = s.scans ∧ (s.dropCaptured i).slots = s.slots ∧
    (s.dropCaptured i).rovers = s.rovers ∧ (s.dropCaptured i).encoder = s.encoder ∧
    (s.dropCaptured i).budget = s.budget ∧ (s.dropCaptured i).link = s.link ∧
    (s.dropCaptured i).relay = s.relay ∧ (s.dropCaptured i).counters = s.counters ∧
    (s.dropCaptured i).pending = s.pending :=
  ⟨rfl, rfl, rfl, rfl, rfl, rfl, rfl, rfl, rfl, rfl, rfl, rfl, rfl, rfl, rfl⟩

@[simp] theorem State.dropCaptured_encodeQueue (i : Fin 64) :
    (s.dropCaptured i).encodeQueue = s.encodeQueue.filter (· ≠ i) := rfl

/-- A count changes the counters alone (R154). -/
@[simp] theorem State.countBy_frame (k : Counter) (n : Nat) :
    (s.countBy k n).straps = s.straps ∧ (s.countBy k n).memoryResetLine = s.memoryResetLine ∧
    (s.countBy k n).channel = s.channel ∧ (s.countBy k n).descriptors = s.descriptors ∧
    (s.countBy k n).surfaces = s.surfaces ∧ (s.countBy k n).heads = s.heads ∧
    (s.countBy k n).scans = s.scans ∧ (s.countBy k n).slots = s.slots ∧ (s.countBy k n).rovers = s.rovers ∧
    (s.countBy k n).encodeQueue = s.encodeQueue ∧ (s.countBy k n).encoder = s.encoder ∧
    (s.countBy k n).budget = s.budget ∧ (s.countBy k n).link = s.link ∧ (s.countBy k n).relay = s.relay ∧
    (s.countBy k n).pending = s.pending :=
  ⟨rfl, rfl, rfl, rfl, rfl, rfl, rfl, rfl, rfl, rfl, rfl, rfl, rfl, rfl, rfl⟩

@[simp] theorem State.countBy_counters (k : Counter) (n : Nat) :
    (s.countBy k n).counters = s.counters.store k (saturatingAdd (s.counters.value k) n) := rfl

/-- A count changes the counters alone (R154). -/
@[simp] theorem State.count_frame (k : Counter) :
    (s.count k).straps = s.straps ∧ (s.count k).memoryResetLine = s.memoryResetLine ∧
    (s.count k).channel = s.channel ∧ (s.count k).descriptors = s.descriptors ∧
    (s.count k).surfaces = s.surfaces ∧ (s.count k).heads = s.heads ∧ (s.count k).scans = s.scans ∧
    (s.count k).slots = s.slots ∧ (s.count k).rovers = s.rovers ∧ (s.count k).encodeQueue = s.encodeQueue ∧
    (s.count k).encoder = s.encoder ∧ (s.count k).budget = s.budget ∧ (s.count k).link = s.link ∧
    (s.count k).relay = s.relay ∧ (s.count k).pending = s.pending :=
  ⟨rfl, rfl, rfl, rfl, rfl, rfl, rfl, rfl, rfl, rfl, rfl, rfl, rfl, rfl, rfl⟩

@[simp] theorem State.count_counters (k : Counter) :
    (s.count k).counters = s.counters.store k (saturatingAdd (s.counters.value k) 1) := rfl

/-- An abandon frees a slot, sets a mark and counts (R98). -/
@[simp] theorem State.abandonCapture_frame (i : Fin 64) (r : Record) :
    (s.abandonCapture i r).straps = s.straps ∧ (s.abandonCapture i r).memoryResetLine = s.memoryResetLine ∧
    (s.abandonCapture i r).channel = s.channel ∧ (s.abandonCapture i r).descriptors = s.descriptors ∧
    (s.abandonCapture i r).heads = s.heads ∧ (s.abandonCapture i r).scans = s.scans ∧
    (s.abandonCapture i r).rovers = s.rovers ∧ (s.abandonCapture i r).encodeQueue = s.encodeQueue ∧
    (s.abandonCapture i r).encoder = s.encoder ∧ (s.abandonCapture i r).budget = s.budget ∧
    (s.abandonCapture i r).link = s.link ∧ (s.abandonCapture i r).relay = s.relay ∧
    (s.abandonCapture i r).pending = s.pending :=
  ⟨rfl, rfl, rfl, rfl, rfl, rfl, rfl, rfl, rfl, rfl, rfl, rfl, rfl⟩

@[simp] theorem State.abandonCapture_slots (i : Fin 64) (r : Record) :
    (s.abandonCapture i r).slots = s.slots.put i none := rfl

/-- A change to the Input Relay changes nothing else. -/
@[simp] theorem State.updRelay_frame (f : Relay → Relay) :
    (s.updRelay f).straps = s.straps ∧ (s.updRelay f).memoryResetLine = s.memoryResetLine ∧
    (s.updRelay f).channel = s.channel ∧ (s.updRelay f).descriptors = s.descriptors ∧
    (s.updRelay f).surfaces = s.surfaces ∧ (s.updRelay f).heads = s.heads ∧
    (s.updRelay f).scans = s.scans ∧ (s.updRelay f).slots = s.slots ∧ (s.updRelay f).rovers = s.rovers ∧
    (s.updRelay f).encodeQueue = s.encodeQueue ∧ (s.updRelay f).encoder = s.encoder ∧
    (s.updRelay f).budget = s.budget ∧ (s.updRelay f).link = s.link ∧
    (s.updRelay f).counters = s.counters ∧ (s.updRelay f).pending = s.pending :=
  ⟨rfl, rfl, rfl, rfl, rfl, rfl, rfl, rfl, rfl, rfl, rfl, rfl, rfl, rfl, rfl⟩

@[simp] theorem State.updRelay_relay (f : Relay → Relay) : (s.updRelay f).relay = f s.relay := rfl

/-- A change to one rank changes nothing else. -/
@[simp] theorem State.updRank_frame (r : Fin 2) (f : Rank → Rank) :
    (s.updRank r f).straps = s.straps ∧ (s.updRank r f).memoryResetLine = s.memoryResetLine ∧
    (s.updRank r f).channel.following = s.channel.following ∧
    (s.updRank r f).channel.shadow = s.channel.shadow ∧
    (s.updRank r f).channel.writeBursts = s.channel.writeBursts ∧
    (s.updRank r f).channel.readBursts = s.channel.readBursts ∧
    (s.updRank r f).descriptors = s.descriptors ∧ (s.updRank r f).surfaces = s.surfaces ∧
    (s.updRank r f).heads = s.heads ∧ (s.updRank r f).scans = s.scans ∧ (s.updRank r f).slots = s.slots ∧
    (s.updRank r f).rovers = s.rovers ∧ (s.updRank r f).encodeQueue = s.encodeQueue ∧
    (s.updRank r f).encoder = s.encoder ∧ (s.updRank r f).budget = s.budget ∧
    (s.updRank r f).link = s.link ∧ (s.updRank r f).relay = s.relay ∧
    (s.updRank r f).counters = s.counters ∧ (s.updRank r f).pending = s.pending :=
  ⟨rfl, rfl, rfl, rfl, rfl, rfl, rfl, rfl, rfl, rfl, rfl, rfl, rfl, rfl, rfl, rfl, rfl, rfl, rfl⟩

@[simp] theorem State.updRank_ranks (r : Fin 2) (f : Rank → Rank) :
    (s.updRank r f).channel.ranks = s.channel.ranks.upd r f := rfl

/-- A change to both ranks changes nothing else. -/
@[simp] theorem State.updRanks_frame (f : Rank → Rank) :
    (s.updRanks f).straps = s.straps ∧ (s.updRanks f).memoryResetLine = s.memoryResetLine ∧
    (s.updRanks f).channel.following = s.channel.following ∧
    (s.updRanks f).channel.shadow = s.channel.shadow ∧
    (s.updRanks f).channel.writeBursts = s.channel.writeBursts ∧
    (s.updRanks f).channel.readBursts = s.channel.readBursts ∧ (s.updRanks f).descriptors = s.descriptors ∧
    (s.updRanks f).surfaces = s.surfaces ∧ (s.updRanks f).heads = s.heads ∧
    (s.updRanks f).scans = s.scans ∧ (s.updRanks f).slots = s.slots ∧ (s.updRanks f).rovers = s.rovers ∧
    (s.updRanks f).encodeQueue = s.encodeQueue ∧ (s.updRanks f).encoder = s.encoder ∧
    (s.updRanks f).budget = s.budget ∧ (s.updRanks f).link = s.link ∧ (s.updRanks f).relay = s.relay ∧
    (s.updRanks f).counters = s.counters ∧ (s.updRanks f).pending = s.pending :=
  by simp [State.updRanks]

@[simp] theorem State.updRanks_ranks (f : Rank → Rank) (r : Fin 2) :
    (s.updRanks f).channel.ranks.look r = f (s.channel.ranks.look r) := by
  simp [State.updRanks]

/-! ### Updates with a condition -/

/-- Raising an event changes the latches and the STATUS pending flag alone (R152). -/
@[simp] theorem State.raise_frame (e : Event) :
    (s.raise e).straps = s.straps ∧ (s.raise e).memoryResetLine = s.memoryResetLine ∧
    (s.raise e).channel = s.channel ∧ (s.raise e).descriptors = s.descriptors ∧
    (s.raise e).surfaces = s.surfaces ∧ (s.raise e).heads = s.heads ∧ (s.raise e).scans = s.scans ∧
    (s.raise e).slots = s.slots ∧ (s.raise e).rovers = s.rovers ∧ (s.raise e).encodeQueue = s.encodeQueue ∧
    (s.raise e).encoder = s.encoder ∧ (s.raise e).budget = s.budget ∧
    (s.raise e).link.state = s.link.state ∧ (s.raise e).link.acquired = s.link.acquired ∧
    (s.raise e).link.arriving = s.link.arriving ∧
    (s.raise e).link.aligned = s.link.aligned ∧ (s.raise e).link.aligningAt = s.link.aligningAt ∧
    (s.raise e).link.helloAt = s.link.helloAt ∧ (s.raise e).link.control = s.link.control ∧
    (s.raise e).link.send = s.link.send ∧ (s.raise e).link.wire = s.link.wire ∧
    (s.raise e).link.lastServed = s.link.lastServed ∧ (s.raise e).link.staged = s.link.staged ∧
    (s.raise e).link.current = s.link.current ∧ (s.raise e).link.applyRequest = s.link.applyRequest ∧
    (s.raise e).relay = s.relay ∧ (s.raise e).counters = s.counters ∧ (s.raise e).pending = s.pending := by
  simp only [State.raise, Link.raise]
  split <;> simp

/-- Reaching a timer's expiry changes the time base alone (log 2). -/
@[simp] theorem State.reachTime_frame (t : Time) :
    (s.reachTime t).straps = s.straps ∧ (s.reachTime t).memoryResetLine = s.memoryResetLine ∧
    (s.reachTime t).channel = s.channel ∧ (s.reachTime t).descriptors = s.descriptors ∧
    (s.reachTime t).surfaces = s.surfaces ∧ (s.reachTime t).heads = s.heads ∧
    (s.reachTime t).scans = s.scans ∧ (s.reachTime t).slots = s.slots ∧ (s.reachTime t).rovers = s.rovers ∧
    (s.reachTime t).encodeQueue = s.encodeQueue ∧ (s.reachTime t).encoder = s.encoder ∧
    (s.reachTime t).budget.tickAt = s.budget.tickAt ∧
    (s.reachTime t).budget.epochTicks = s.budget.epochTicks ∧
    (s.reachTime t).budget.heads = s.budget.heads ∧ (s.reachTime t).budget.recompute = s.budget.recompute ∧
    (s.reachTime t).budget.overrideActive = s.budget.overrideActive ∧
    (s.reachTime t).budget.hold = s.budget.hold ∧ (s.reachTime t).link = s.link ∧
    (s.reachTime t).relay = s.relay ∧ (s.reachTime t).counters = s.counters ∧
    (s.reachTime t).pending = s.pending := by
  simp only [State.reachTime]
  split <;> simp

/-- A shed report counts and raises INPUT_OVERFLOW, and does nothing else (R159, R160). -/
@[simp] theorem State.inputOverflow_frame :
    (s.inputOverflow).straps = s.straps ∧ (s.inputOverflow).memoryResetLine = s.memoryResetLine ∧
    (s.inputOverflow).channel = s.channel ∧ (s.inputOverflow).descriptors = s.descriptors ∧
    (s.inputOverflow).surfaces = s.surfaces ∧ (s.inputOverflow).heads = s.heads ∧
    (s.inputOverflow).scans = s.scans ∧ (s.inputOverflow).slots = s.slots ∧
    (s.inputOverflow).rovers = s.rovers ∧ (s.inputOverflow).encodeQueue = s.encodeQueue ∧
    (s.inputOverflow).encoder = s.encoder ∧ (s.inputOverflow).budget = s.budget ∧
    (s.inputOverflow).link.state = s.link.state ∧ (s.inputOverflow).link.acquired = s.link.acquired ∧
    (s.inputOverflow).link.arriving = s.link.arriving ∧
    (s.inputOverflow).link.aligned = s.link.aligned ∧
    (s.inputOverflow).link.aligningAt = s.link.aligningAt ∧
    (s.inputOverflow).link.helloAt = s.link.helloAt ∧ (s.inputOverflow).link.control = s.link.control ∧
    (s.inputOverflow).link.send = s.link.send ∧ (s.inputOverflow).link.wire = s.link.wire ∧
    (s.inputOverflow).link.lastServed = s.link.lastServed ∧ (s.inputOverflow).link.staged = s.link.staged ∧
    (s.inputOverflow).link.current = s.link.current ∧
    (s.inputOverflow).link.applyRequest = s.link.applyRequest ∧ (s.inputOverflow).relay = s.relay ∧
    (s.inputOverflow).pending = s.pending := by
  simp [State.inputOverflow]

/-- An interaction event changes the override and its timer alone (R136). -/
@[simp] theorem State.interact_frame (k : Interaction) :
    (s.interact k).straps = s.straps ∧ (s.interact k).memoryResetLine = s.memoryResetLine ∧
    (s.interact k).channel = s.channel ∧ (s.interact k).descriptors = s.descriptors ∧
    (s.interact k).surfaces = s.surfaces ∧ (s.interact k).heads = s.heads ∧
    (s.interact k).scans = s.scans ∧ (s.interact k).slots = s.slots ∧ (s.interact k).rovers = s.rovers ∧
    (s.interact k).encodeQueue = s.encodeQueue ∧ (s.interact k).encoder = s.encoder ∧
    (s.interact k).budget.now = s.budget.now ∧ (s.interact k).budget.tickAt = s.budget.tickAt ∧
    (s.interact k).budget.epochTicks = s.budget.epochTicks ∧ (s.interact k).budget.heads = s.budget.heads ∧
    (s.interact k).budget.recompute = s.budget.recompute ∧ (s.interact k).link = s.link ∧
    (s.interact k).relay = s.relay ∧ (s.interact k).counters = s.counters ∧
    (s.interact k).pending = s.pending := by
  simp only [State.interact]
  split <;> simp

/-- A deferral changes the record, a deferral list and an accumulator (R130, R122). -/
@[simp] theorem State.defer_frame (h : Fin 4) (i : Fin 64) (f : CodedForms) :
    (s.defer h i f).straps = s.straps ∧ (s.defer h i f).memoryResetLine = s.memoryResetLine ∧
    (s.defer h i f).channel = s.channel ∧ (s.defer h i f).descriptors = s.descriptors ∧
    (s.defer h i f).surfaces = s.surfaces ∧ (s.defer h i f).heads = s.heads ∧
    (s.defer h i f).scans = s.scans ∧ (s.defer h i f).rovers = s.rovers ∧
    (s.defer h i f).encodeQueue = s.encodeQueue ∧ (s.defer h i f).encoder = s.encoder ∧
    (s.defer h i f).budget.now = s.budget.now ∧ (s.defer h i f).budget.tickAt = s.budget.tickAt ∧
    (s.defer h i f).budget.epochTicks = s.budget.epochTicks ∧
    (s.defer h i f).budget.recompute = s.budget.recompute ∧
    (s.defer h i f).budget.overrideActive = s.budget.overrideActive ∧
    (s.defer h i f).budget.hold = s.budget.hold ∧ (s.defer h i f).link = s.link ∧
    (s.defer h i f).relay = s.relay ∧ (s.defer h i f).counters = s.counters ∧
    (s.defer h i f).pending = s.pending := by
  simp [State.defer]

end Sys2Proof.Machine
end

