-- ==== Sys2Proof/Laws/Frames.lean ====
section
/-! SUPPORT. For each shared operation that is built from others: everything it leaves as it was, as one conjunction
that simp takes apart. A proof about one field cites these and unfolds nothing. -/

namespace Sys2Proof.Machine

/-- What every step of a fold keeps, the fold keeps. -/
theorem foldl_keeps {σ α β : Type} (π : σ → β) (f : σ → α → σ) (h : ∀ s a, π (f s a) = π s) (l : List α)
    (s : σ) : π (l.foldl f s) = π s := by
  induction l generalizing s with
  | nil => rfl
  | cons a l ih => rw [List.foldl_cons, ih, h]

variable (s : State)

/-! ### Maps, heads and records -/

/-- Whole-surface marking of a list changes the surface table alone (R57). -/
@[simp] theorem State.markEach_frame (ids : List (Fin 16)) :
    (s.markEach ids).straps = s.straps ∧ (s.markEach ids).memoryResetLine = s.memoryResetLine ∧
    (s.markEach ids).channel = s.channel ∧ (s.markEach ids).descriptors = s.descriptors ∧
    (s.markEach ids).heads = s.heads ∧ (s.markEach ids).scans = s.scans ∧
    (s.markEach ids).slots = s.slots ∧ (s.markEach ids).rovers = s.rovers ∧
    (s.markEach ids).encodeQueue = s.encodeQueue ∧ (s.markEach ids).encoder = s.encoder ∧
    (s.markEach ids).budget = s.budget ∧ (s.markEach ids).link = s.link ∧
    (s.markEach ids).relay = s.relay ∧ (s.markEach ids).counters = s.counters ∧
    (s.markEach ids).pending = s.pending :=
  by
  let π := fun t : State => (t.straps, t.memoryResetLine, t.channel, t.descriptors, t.heads, t.scans,
    t.slots, t.rovers, t.encodeQueue, t.encoder, t.budget, t.link, t.relay, t.counters, t.pending)
  have hk : π (s.markEach ids) = π s := by
    unfold State.markEach
    exact foldl_keeps π _ (fun t a => by simp only [π]; simp) ids s
  simp only [π, Prod.mk.injEq] at hk
  exact hk

/-- Setting owning heads changes the surface table alone (R43). -/
@[simp] theorem State.setOwners_frame (ids : List (Fin 16)) (w : Option (Fin 4)) :
    (s.setOwners ids w).straps = s.straps ∧ (s.setOwners ids w).memoryResetLine = s.memoryResetLine ∧
    (s.setOwners ids w).channel = s.channel ∧ (s.setOwners ids w).descriptors = s.descriptors ∧
    (s.setOwners ids w).heads = s.heads ∧ (s.setOwners ids w).scans = s.scans ∧
    (s.setOwners ids w).slots = s.slots ∧ (s.setOwners ids w).rovers = s.rovers ∧
    (s.setOwners ids w).encodeQueue = s.encodeQueue ∧ (s.setOwners ids w).encoder = s.encoder ∧
    (s.setOwners ids w).budget = s.budget ∧ (s.setOwners ids w).link = s.link ∧
    (s.setOwners ids w).relay = s.relay ∧ (s.setOwners ids w).counters = s.counters ∧
    (s.setOwners ids w).pending = s.pending :=
  by
  let π := fun t : State => (t.straps, t.memoryResetLine, t.channel, t.descriptors, t.heads, t.scans,
    t.slots, t.rovers, t.encodeQueue, t.encoder, t.budget, t.link, t.relay, t.counters, t.pending)
  have hk : π (s.setOwners ids w) = π s := by
    unfold State.setOwners
    exact foldl_keeps π _ (fun t a => by simp only [π]; simp) ids s
  simp only [π, Prod.mk.injEq] at hk
  exact hk

/-- A withdrawal of one record (R63 to R65). -/
@[simp] theorem State.withdrawSlot_frame (i : Fin 64) :
    (s.withdrawSlot i).straps = s.straps ∧ (s.withdrawSlot i).memoryResetLine = s.memoryResetLine ∧
    (s.withdrawSlot i).channel = s.channel ∧ (s.withdrawSlot i).descriptors = s.descriptors ∧
    (s.withdrawSlot i).heads = s.heads ∧ (s.withdrawSlot i).scans = s.scans ∧
    (s.withdrawSlot i).rovers = s.rovers ∧ (s.withdrawSlot i).encoder = s.encoder ∧
    (s.withdrawSlot i).budget.now = s.budget.now ∧ (s.withdrawSlot i).budget.tickAt = s.budget.tickAt ∧
    (s.withdrawSlot i).budget.epochTicks = s.budget.epochTicks ∧
    (s.withdrawSlot i).budget.recompute = s.budget.recompute ∧
    (s.withdrawSlot i).budget.overrideActive = s.budget.overrideActive ∧
    (s.withdrawSlot i).budget.hold = s.budget.hold ∧ (s.withdrawSlot i).link.state = s.link.state ∧
    (s.withdrawSlot i).link.acquired = s.link.acquired ∧
    (s.withdrawSlot i).link.arriving = s.link.arriving ∧ (s.withdrawSlot i).link.aligned = s.link.aligned ∧
    (s.withdrawSlot i).link.aligningAt = s.link.aligningAt ∧
    (s.withdrawSlot i).link.helloAt = s.link.helloAt ∧ (s.withdrawSlot i).link.control = s.link.control ∧
    (s.withdrawSlot i).link.wire = s.link.wire ∧ (s.withdrawSlot i).link.lastServed = s.link.lastServed ∧
    (s.withdrawSlot i).link.staged = s.link.staged ∧ (s.withdrawSlot i).link.current = s.link.current ∧
    (s.withdrawSlot i).link.applyRequest = s.link.applyRequest ∧
    (s.withdrawSlot i).link.latches = s.link.latches ∧
    (s.withdrawSlot i).link.statusPending = s.link.statusPending ∧ (s.withdrawSlot i).relay = s.relay ∧
    (s.withdrawSlot i).pending = s.pending :=
  by
  unfold State.withdrawSlot
  (repeat' split) <;> simp

/-- A withdrawal of a set of records (R62). -/
@[simp] theorem State.withdrawWhere_frame (p : Record → Bool) :
    (s.withdrawWhere p).straps = s.straps ∧ (s.withdrawWhere p).memoryResetLine = s.memoryResetLine ∧
    (s.withdrawWhere p).channel = s.channel ∧ (s.withdrawWhere p).descriptors = s.descriptors ∧
    (s.withdrawWhere p).heads = s.heads ∧ (s.withdrawWhere p).scans = s.scans ∧
    (s.withdrawWhere p).rovers = s.rovers ∧ (s.withdrawWhere p).encoder = s.encoder ∧
    (s.withdrawWhere p).budget.now = s.budget.now ∧ (s.withdrawWhere p).budget.tickAt = s.budget.tickAt ∧
    (s.withdrawWhere p).budget.epochTicks = s.budget.epochTicks ∧
    (s.withdrawWhere p).budget.recompute = s.budget.recompute ∧
    (s.withdrawWhere p).budget.overrideActive = s.budget.overrideActive ∧
    (s.withdrawWhere p).budget.hold = s.budget.hold ∧ (s.withdrawWhere p).link.state = s.link.state ∧
    (s.withdrawWhere p).link.acquired = s.link.acquired ∧
    (s.withdrawWhere p).link.arriving = s.link.arriving ∧
    (s.withdrawWhere p).link.aligned = s.link.aligned ∧
    (s.withdrawWhere p).link.aligningAt = s.link.aligningAt ∧
    (s.withdrawWhere p).link.helloAt = s.link.helloAt ∧ (s.withdrawWhere p).link.control = s.link.control ∧
    (s.withdrawWhere p).link.wire = s.link.wire ∧ (s.withdrawWhere p).link.lastServed = s.link.lastServed ∧
    (s.withdrawWhere p).link.staged = s.link.staged ∧ (s.withdrawWhere p).link.current = s.link.current ∧
    (s.withdrawWhere p).link.applyRequest = s.link.applyRequest ∧
    (s.withdrawWhere p).link.latches = s.link.latches ∧
    (s.withdrawWhere p).link.statusPending = s.link.statusPending ∧ (s.withdrawWhere p).relay = s.relay ∧
    (s.withdrawWhere p).pending = s.pending :=
  by
  let π := fun t : State => (t.straps, t.memoryResetLine, t.channel, t.descriptors, t.heads, t.scans,
    t.rovers, t.encoder, t.budget.now, t.budget.tickAt, t.budget.epochTicks, t.budget.recompute,
    t.budget.overrideActive, t.budget.hold, t.link.state, t.link.acquired, t.link.arriving, t.link.aligned,
    t.link.aligningAt, t.link.helloAt, t.link.control, t.link.wire, t.link.lastServed, t.link.staged,
    t.link.current, t.link.applyRequest, t.link.latches, t.link.statusPending, t.relay, t.pending)
  have hk : π (s.withdrawWhere p) = π s := by
    unfold State.withdrawWhere State.forSlots
    exact foldl_keeps π _ (fun t a => by simp only [π]; (repeat' split) <;> simp) allSlots s
  simp only [π, Prod.mk.injEq] at hk
  exact hk

/-- A withdrawal of a surface's records (R40, R73). -/
@[simp] theorem State.withdrawSurface_frame (id : Fin 16) :
    (s.withdrawSurface id).straps = s.straps ∧ (s.withdrawSurface id).memoryResetLine = s.memoryResetLine ∧
    (s.withdrawSurface id).channel = s.channel ∧ (s.withdrawSurface id).descriptors = s.descriptors ∧
    (s.withdrawSurface id).heads = s.heads ∧ (s.withdrawSurface id).scans = s.scans ∧
    (s.withdrawSurface id).rovers = s.rovers ∧ (s.withdrawSurface id).encoder = s.encoder ∧
    (s.withdrawSurface id).budget.now = s.budget.now ∧
    (s.withdrawSurface id).budget.tickAt = s.budget.tickAt ∧
    (s.withdrawSurface id).budget.epochTicks = s.budget.epochTicks ∧
    (s.withdrawSurface id).budget.recompute = s.budget.recompute ∧
    (s.withdrawSurface id).budget.overrideActive = s.budget.overrideActive ∧
    (s.withdrawSurface id).budget.hold = s.budget.hold ∧ (s.withdrawSurface id).link.state = s.link.state ∧
    (s.withdrawSurface id).link.acquired = s.link.acquired ∧
    (s.withdrawSurface id).link.arriving = s.link.arriving ∧
    (s.withdrawSurface id).link.aligned = s.link.aligned ∧
    (s.withdrawSurface id).link.aligningAt = s.link.aligningAt ∧
    (s.withdrawSurface id).link.helloAt = s.link.helloAt ∧
    (s.withdrawSurface id).link.control = s.link.control ∧ (s.withdrawSurface id).link.wire = s.link.wire ∧
    (s.withdrawSurface id).link.lastServed = s.link.lastServed ∧
    (s.withdrawSurface id).link.staged = s.link.staged ∧
    (s.withdrawSurface id).link.current = s.link.current ∧
    (s.withdrawSurface id).link.applyRequest = s.link.applyRequest ∧
    (s.withdrawSurface id).link.latches = s.link.latches ∧
    (s.withdrawSurface id).link.statusPending = s.link.statusPending ∧
    (s.withdrawSurface id).relay = s.relay ∧ (s.withdrawSurface id).pending = s.pending :=
  by
  simp [State.withdrawSurface]

/-- A withdrawal of a flip set's records (R43, R45). -/
@[simp] theorem State.withdrawFlipSet_frame (ids : List (Fin 16)) :
    (s.withdrawFlipSet ids).straps = s.straps ∧
    (s.withdrawFlipSet ids).memoryResetLine = s.memoryResetLine ∧
    (s.withdrawFlipSet ids).channel = s.channel ∧ (s.withdrawFlipSet ids).descriptors = s.descriptors ∧
    (s.withdrawFlipSet ids).heads = s.heads ∧ (s.withdrawFlipSet ids).scans = s.scans ∧
    (s.withdrawFlipSet ids).rovers = s.rovers ∧ (s.withdrawFlipSet ids).encoder = s.encoder ∧
    (s.withdrawFlipSet ids).budget.now = s.budget.now ∧
    (s.withdrawFlipSet ids).budget.tickAt = s.budget.tickAt ∧
    (s.withdrawFlipSet ids).budget.epochTicks = s.budget.epochTicks ∧
    (s.withdrawFlipSet ids).budget.recompute = s.budget.recompute ∧
    (s.withdrawFlipSet ids).budget.overrideActive = s.budget.overrideActive ∧
    (s.withdrawFlipSet ids).budget.hold = s.budget.hold ∧
    (s.withdrawFlipSet ids).link.state = s.link.state ∧
    (s.withdrawFlipSet ids).link.acquired = s.link.acquired ∧
    (s.withdrawFlipSet ids).link.arriving = s.link.arriving ∧
    (s.withdrawFlipSet ids).link.aligned = s.link.aligned ∧
    (s.withdrawFlipSet ids).link.aligningAt = s.link.aligningAt ∧
    (s.withdrawFlipSet ids).link.helloAt = s.link.helloAt ∧
    (s.withdrawFlipSet ids).link.control = s.link.control ∧
    (s.withdrawFlipSet ids).link.wire = s.link.wire ∧
    (s.withdrawFlipSet ids).link.lastServed = s.link.lastServed ∧
    (s.withdrawFlipSet ids).link.staged = s.link.staged ∧
    (s.withdrawFlipSet ids).link.current = s.link.current ∧
    (s.withdrawFlipSet ids).link.applyRequest = s.link.applyRequest ∧
    (s.withdrawFlipSet ids).link.latches = s.link.latches ∧
    (s.withdrawFlipSet ids).link.statusPending = s.link.statusPending ∧
    (s.withdrawFlipSet ids).relay = s.relay ∧ (s.withdrawFlipSet ids).pending = s.pending :=
  by
  simp [State.withdrawFlipSet]

/-- The withdrawal of every record at link loss (R140). -/
@[simp] theorem State.withdrawAtLinkLoss_frame  :
    (s.withdrawAtLinkLoss).straps = s.straps ∧ (s.withdrawAtLinkLoss).memoryResetLine = s.memoryResetLine ∧
    (s.withdrawAtLinkLoss).channel = s.channel ∧ (s.withdrawAtLinkLoss).descriptors = s.descriptors ∧
    (s.withdrawAtLinkLoss).heads = s.heads ∧ (s.withdrawAtLinkLoss).scans = s.scans ∧
    (s.withdrawAtLinkLoss).rovers = s.rovers ∧ (s.withdrawAtLinkLoss).encoder = s.encoder ∧
    (s.withdrawAtLinkLoss).budget.now = s.budget.now ∧
    (s.withdrawAtLinkLoss).budget.tickAt = s.budget.tickAt ∧
    (s.withdrawAtLinkLoss).budget.epochTicks = s.budget.epochTicks ∧
    (s.withdrawAtLinkLoss).budget.recompute = s.budget.recompute ∧
    (s.withdrawAtLinkLoss).budget.overrideActive = s.budget.overrideActive ∧
    (s.withdrawAtLinkLoss).budget.hold = s.budget.hold ∧ (s.withdrawAtLinkLoss).link.state = s.link.state ∧
    (s.withdrawAtLinkLoss).link.acquired = s.link.acquired ∧
    (s.withdrawAtLinkLoss).link.arriving = s.link.arriving ∧
    (s.withdrawAtLinkLoss).link.aligned = s.link.aligned ∧
    (s.withdrawAtLinkLoss).link.aligningAt = s.link.aligningAt ∧
    (s.withdrawAtLinkLoss).link.helloAt = s.link.helloAt ∧
    (s.withdrawAtLinkLoss).link.control = s.link.control ∧ (s.withdrawAtLinkLoss).link.wire = s.link.wire ∧
    (s.withdrawAtLinkLoss).link.lastServed = s.link.lastServed ∧
    (s.withdrawAtLinkLoss).link.staged = s.link.staged ∧
    (s.withdrawAtLinkLoss).link.current = s.link.current ∧
    (s.withdrawAtLinkLoss).link.applyRequest = s.link.applyRequest ∧
    (s.withdrawAtLinkLoss).link.latches = s.link.latches ∧
    (s.withdrawAtLinkLoss).link.statusPending = s.link.statusPending ∧
    (s.withdrawAtLinkLoss).relay = s.relay ∧ (s.withdrawAtLinkLoss).pending = s.pending :=
  by
  let π := fun t : State => (t.straps, t.memoryResetLine, t.channel, t.descriptors, t.heads, t.scans,
    t.rovers, t.encoder, t.budget.now, t.budget.tickAt, t.budget.epochTicks, t.budget.recompute,
    t.budget.overrideActive, t.budget.hold, t.link.state, t.link.acquired, t.link.arriving, t.link.aligned,
    t.link.aligningAt, t.link.helloAt, t.link.control, t.link.wire, t.link.lastServed, t.link.staged,
    t.link.current, t.link.applyRequest, t.link.latches, t.link.statusPending, t.relay, t.pending)
  have hk : π (s.withdrawAtLinkLoss) = π s := by
    unfold State.withdrawAtLinkLoss State.forSlots
    exact foldl_keeps π _ (fun t a => by simp only [π]; (repeat' split) <;> simp) allSlots s
  simp only [π, Prod.mk.injEq] at hk
  exact hk

/-- An abandonment of CAPTURING records (R98). -/
@[simp] theorem State.abandonWhere_frame (p : Record → Bool) :
    (s.abandonWhere p).straps = s.straps ∧ (s.abandonWhere p).memoryResetLine = s.memoryResetLine ∧
    (s.abandonWhere p).channel = s.channel ∧ (s.abandonWhere p).descriptors = s.descriptors ∧
    (s.abandonWhere p).heads = s.heads ∧ (s.abandonWhere p).scans = s.scans ∧
    (s.abandonWhere p).rovers = s.rovers ∧ (s.abandonWhere p).encodeQueue = s.encodeQueue ∧
    (s.abandonWhere p).encoder = s.encoder ∧ (s.abandonWhere p).budget = s.budget ∧
    (s.abandonWhere p).link = s.link ∧ (s.abandonWhere p).relay = s.relay ∧
    (s.abandonWhere p).pending = s.pending :=
  by
  let π := fun t : State => (t.straps, t.memoryResetLine, t.channel, t.descriptors, t.heads, t.scans,
    t.rovers, t.encodeQueue, t.encoder, t.budget, t.link, t.relay, t.pending)
  have hk : π (s.abandonWhere p) = π s := by
    unfold State.abandonWhere State.forSlots
    exact foldl_keeps π _ (fun t a => by simp only [π]; (repeat' split) <;> simp) allSlots s
  simp only [π, Prod.mk.injEq] at hk
  exact hk

/-- Blind marking (R58). -/
@[simp] theorem State.blindMarking_frame  :
    (s.blindMarking).straps = s.straps ∧ (s.blindMarking).memoryResetLine = s.memoryResetLine ∧
    (s.blindMarking).channel = s.channel ∧ (s.blindMarking).descriptors = s.descriptors ∧
    (s.blindMarking).heads = s.heads ∧ (s.blindMarking).scans = s.scans ∧
    (s.blindMarking).rovers = s.rovers ∧ (s.blindMarking).encoder = s.encoder ∧
    (s.blindMarking).budget.now = s.budget.now ∧ (s.blindMarking).budget.tickAt = s.budget.tickAt ∧
    (s.blindMarking).budget.epochTicks = s.budget.epochTicks ∧
    (s.blindMarking).budget.recompute = s.budget.recompute ∧
    (s.blindMarking).budget.overrideActive = s.budget.overrideActive ∧
    (s.blindMarking).budget.hold = s.budget.hold ∧ (s.blindMarking).link.state = s.link.state ∧
    (s.blindMarking).link.acquired = s.link.acquired ∧
    (s.blindMarking).link.arriving = s.link.arriving ∧ (s.blindMarking).link.aligned = s.link.aligned ∧
    (s.blindMarking).link.aligningAt = s.link.aligningAt ∧ (s.blindMarking).link.helloAt = s.link.helloAt ∧
    (s.blindMarking).link.control = s.link.control ∧ (s.blindMarking).link.wire = s.link.wire ∧
    (s.blindMarking).link.lastServed = s.link.lastServed ∧ (s.blindMarking).link.staged = s.link.staged ∧
    (s.blindMarking).link.current = s.link.current ∧
    (s.blindMarking).link.applyRequest = s.link.applyRequest ∧
    (s.blindMarking).link.latches = s.link.latches ∧
    (s.blindMarking).link.statusPending = s.link.statusPending ∧ (s.blindMarking).relay = s.relay ∧
    (s.blindMarking).pending = s.pending :=
  by
  simp [State.blindMarking]

/-- The followers sent to SEEK (R82). -/
@[simp] theorem State.allToSeek_frame  :
    (s.allToSeek).straps = s.straps ∧ (s.allToSeek).memoryResetLine = s.memoryResetLine ∧
    (s.allToSeek).channel = s.channel ∧ (s.allToSeek).descriptors = s.descriptors ∧
    (s.allToSeek).surfaces = s.surfaces ∧ (s.allToSeek).heads = s.heads ∧ (s.allToSeek).slots = s.slots ∧
    (s.allToSeek).rovers = s.rovers ∧ (s.allToSeek).encodeQueue = s.encodeQueue ∧
    (s.allToSeek).encoder = s.encoder ∧ (s.allToSeek).budget = s.budget ∧ (s.allToSeek).link = s.link ∧
    (s.allToSeek).relay = s.relay ∧ (s.allToSeek).counters = s.counters ∧ (s.allToSeek).pending = s.pending :=
  by
  let π := fun t : State => (t.straps, t.memoryResetLine, t.channel, t.descriptors, t.surfaces, t.heads,
    t.slots, t.rovers, t.encodeQueue, t.encoder, t.budget, t.link, t.relay, t.counters, t.pending)
  have hk : π (s.allToSeek) = π s := by
    unfold State.allToSeek State.forHeads
    exact foldl_keeps π _ (fun t a => by simp only [π]; (repeat' split) <;> simp) allHeads s
  simp only [π, Prod.mk.injEq] at hk
  exact hk

/-! ### The Channel Follower -/

/-- What an entry into WAIT_MODES or RESYNC does (R20, R25, R82). -/
@[simp] theorem State.loseChannel_frame  :
    (s.loseChannel).straps = s.straps ∧ (s.loseChannel).memoryResetLine = s.memoryResetLine ∧
    (s.loseChannel).channel.following = s.channel.following ∧
    (s.loseChannel).channel.ranks = s.channel.ranks ∧ (s.loseChannel).channel.shadow = s.channel.shadow ∧
    (s.loseChannel).descriptors = s.descriptors ∧ (s.loseChannel).heads = s.heads ∧
    (s.loseChannel).rovers = s.rovers ∧ (s.loseChannel).encodeQueue = s.encodeQueue ∧
    (s.loseChannel).encoder = s.encoder ∧ (s.loseChannel).budget = s.budget ∧
    (s.loseChannel).link = s.link ∧ (s.loseChannel).relay = s.relay ∧ (s.loseChannel).pending = s.pending :=
  by
  simp [State.loseChannel]

/-- Clearing known-closed flags (R18). -/
@[simp] theorem State.clearKnown_frame (a : Anomaly) :
    (s.clearKnown a).straps = s.straps ∧ (s.clearKnown a).memoryResetLine = s.memoryResetLine ∧
    (s.clearKnown a).channel.following = s.channel.following ∧
    (s.clearKnown a).channel.shadow = s.channel.shadow ∧
    (s.clearKnown a).channel.writeBursts = s.channel.writeBursts ∧
    (s.clearKnown a).channel.readBursts = s.channel.readBursts ∧
    (s.clearKnown a).descriptors = s.descriptors ∧ (s.clearKnown a).surfaces = s.surfaces ∧
    (s.clearKnown a).heads = s.heads ∧ (s.clearKnown a).scans = s.scans ∧
    (s.clearKnown a).slots = s.slots ∧ (s.clearKnown a).rovers = s.rovers ∧
    (s.clearKnown a).encodeQueue = s.encodeQueue ∧ (s.clearKnown a).encoder = s.encoder ∧
    (s.clearKnown a).budget = s.budget ∧ (s.clearKnown a).link = s.link ∧
    (s.clearKnown a).relay = s.relay ∧ (s.clearKnown a).counters = s.counters ∧
    (s.clearKnown a).pending = s.pending :=
  by
  let π := fun t : State => (t.straps, t.memoryResetLine, t.channel.following, t.channel.shadow,
    t.channel.writeBursts, t.channel.readBursts, t.descriptors, t.surfaces, t.heads, t.scans, t.slots,
    t.rovers, t.encodeQueue, t.encoder, t.budget, t.link, t.relay, t.counters, t.pending)
  have hk : π (s.clearKnown a) = π s := by
    unfold State.clearKnown
    exact foldl_keeps π _ (fun t a => by simp only [π]; simp) a.ranks s
  simp only [π, Prod.mk.injEq] at hk
  exact hk

/-- Setting a known-closed flag (R13). -/
@[simp] theorem State.setKnown_frame (y : Beyond) :
    (s.setKnown y).straps = s.straps ∧ (s.setKnown y).memoryResetLine = s.memoryResetLine ∧
    (s.setKnown y).channel.following = s.channel.following ∧
    (s.setKnown y).channel.shadow = s.channel.shadow ∧
    (s.setKnown y).channel.writeBursts = s.channel.writeBursts ∧
    (s.setKnown y).channel.readBursts = s.channel.readBursts ∧ (s.setKnown y).descriptors = s.descriptors ∧
    (s.setKnown y).surfaces = s.surfaces ∧ (s.setKnown y).heads = s.heads ∧
    (s.setKnown y).scans = s.scans ∧ (s.setKnown y).slots = s.slots ∧ (s.setKnown y).rovers = s.rovers ∧
    (s.setKnown y).encodeQueue = s.encodeQueue ∧ (s.setKnown y).encoder = s.encoder ∧
    (s.setKnown y).budget = s.budget ∧ (s.setKnown y).link = s.link ∧ (s.setKnown y).relay = s.relay ∧
    (s.setKnown y).counters = s.counters ∧ (s.setKnown y).pending = s.pending :=
  by
  unfold State.setKnown
  (repeat' split) <;> simp

/-- Leaving FOLLOWING (R17). -/
@[simp] theorem State.leaveFollowing_frame  :
    (s.leaveFollowing).straps = s.straps ∧ (s.leaveFollowing).memoryResetLine = s.memoryResetLine ∧
    (s.leaveFollowing).channel.shadow = s.channel.shadow ∧ (s.leaveFollowing).descriptors = s.descriptors ∧
    (s.leaveFollowing).heads = s.heads ∧ (s.leaveFollowing).rovers = s.rovers ∧
    (s.leaveFollowing).encodeQueue = s.encodeQueue ∧ (s.leaveFollowing).encoder = s.encoder ∧
    (s.leaveFollowing).budget = s.budget ∧ (s.leaveFollowing).link.state = s.link.state ∧
    (s.leaveFollowing).link.acquired = s.link.acquired ∧
    (s.leaveFollowing).link.arriving = s.link.arriving ∧ (s.leaveFollowing).link.aligned = s.link.aligned ∧
    (s.leaveFollowing).link.aligningAt = s.link.aligningAt ∧
    (s.leaveFollowing).link.helloAt = s.link.helloAt ∧ (s.leaveFollowing).link.control = s.link.control ∧
    (s.leaveFollowing).link.send = s.link.send ∧ (s.leaveFollowing).link.wire = s.link.wire ∧
    (s.leaveFollowing).link.lastServed = s.link.lastServed ∧
    (s.leaveFollowing).link.staged = s.link.staged ∧ (s.leaveFollowing).link.current = s.link.current ∧
    (s.leaveFollowing).link.applyRequest = s.link.applyRequest ∧ (s.leaveFollowing).relay = s.relay ∧
    (s.leaveFollowing).pending = s.pending :=
  by
  simp [State.leaveFollowing]

/-- Entering FOLLOWING (R21). -/
@[simp] theorem State.enterFollowing_frame  :
    (s.enterFollowing).straps = s.straps ∧ (s.enterFollowing).memoryResetLine = s.memoryResetLine ∧
    (s.enterFollowing).channel.ranks = s.channel.ranks ∧
    (s.enterFollowing).channel.shadow = s.channel.shadow ∧
    (s.enterFollowing).channel.writeBursts = s.channel.writeBursts ∧
    (s.enterFollowing).channel.readBursts = s.channel.readBursts ∧
    (s.enterFollowing).descriptors = s.descriptors ∧ (s.enterFollowing).heads = s.heads ∧
    (s.enterFollowing).scans = s.scans ∧ (s.enterFollowing).rovers = s.rovers ∧
    (s.enterFollowing).encoder = s.encoder ∧ (s.enterFollowing).budget.now = s.budget.now ∧
    (s.enterFollowing).budget.tickAt = s.budget.tickAt ∧
    (s.enterFollowing).budget.epochTicks = s.budget.epochTicks ∧
    (s.enterFollowing).budget.recompute = s.budget.recompute ∧
    (s.enterFollowing).budget.overrideActive = s.budget.overrideActive ∧
    (s.enterFollowing).budget.hold = s.budget.hold ∧ (s.enterFollowing).link.state = s.link.state ∧
    (s.enterFollowing).link.acquired = s.link.acquired ∧
    (s.enterFollowing).link.arriving = s.link.arriving ∧ (s.enterFollowing).link.aligned = s.link.aligned ∧
    (s.enterFollowing).link.aligningAt = s.link.aligningAt ∧
    (s.enterFollowing).link.helloAt = s.link.helloAt ∧ (s.enterFollowing).link.control = s.link.control ∧
    (s.enterFollowing).link.wire = s.link.wire ∧ (s.enterFollowing).link.lastServed = s.link.lastServed ∧
    (s.enterFollowing).link.staged = s.link.staged ∧ (s.enterFollowing).link.current = s.link.current ∧
    (s.enterFollowing).link.applyRequest = s.link.applyRequest ∧ (s.enterFollowing).relay = s.relay ∧
    (s.enterFollowing).pending = s.pending :=
  by
  simp [State.enterFollowing]

/-- The test of R19. -/
@[simp] theorem State.testFollowing_frame  :
    (s.testFollowing).straps = s.straps ∧ (s.testFollowing).memoryResetLine = s.memoryResetLine ∧
    (s.testFollowing).channel.ranks = s.channel.ranks ∧
    (s.testFollowing).channel.shadow = s.channel.shadow ∧
    (s.testFollowing).channel.writeBursts = s.channel.writeBursts ∧
    (s.testFollowing).channel.readBursts = s.channel.readBursts ∧
    (s.testFollowing).descriptors = s.descriptors ∧ (s.testFollowing).heads = s.heads ∧
    (s.testFollowing).scans = s.scans ∧ (s.testFollowing).rovers = s.rovers ∧
    (s.testFollowing).encoder = s.encoder ∧ (s.testFollowing).budget.now = s.budget.now ∧
    (s.testFollowing).budget.tickAt = s.budget.tickAt ∧
    (s.testFollowing).budget.epochTicks = s.budget.epochTicks ∧
    (s.testFollowing).budget.recompute = s.budget.recompute ∧
    (s.testFollowing).budget.overrideActive = s.budget.overrideActive ∧
    (s.testFollowing).budget.hold = s.budget.hold ∧ (s.testFollowing).link.state = s.link.state ∧
    (s.testFollowing).link.acquired = s.link.acquired ∧
    (s.testFollowing).link.arriving = s.link.arriving ∧ (s.testFollowing).link.aligned = s.link.aligned ∧
    (s.testFollowing).link.aligningAt = s.link.aligningAt ∧
    (s.testFollowing).link.helloAt = s.link.helloAt ∧ (s.testFollowing).link.control = s.link.control ∧
    (s.testFollowing).link.wire = s.link.wire ∧ (s.testFollowing).link.lastServed = s.link.lastServed ∧
    (s.testFollowing).link.staged = s.link.staged ∧ (s.testFollowing).link.current = s.link.current ∧
    (s.testFollowing).link.applyRequest = s.link.applyRequest ∧ (s.testFollowing).relay = s.relay ∧
    (s.testFollowing).pending = s.pending :=
  by
  unfold State.testFollowing
  (repeat' split) <;> simp

/-! ### The control FIFO, the arbiter and the STATUS test -/

/-- A frame joins the control FIFO (R143). -/
@[simp] theorem State.pushControl_frame (f : ControlFrame) :
    (s.pushControl f).straps = s.straps ∧ (s.pushControl f).memoryResetLine = s.memoryResetLine ∧
    (s.pushControl f).channel = s.channel ∧ (s.pushControl f).descriptors = s.descriptors ∧
    (s.pushControl f).surfaces = s.surfaces ∧ (s.pushControl f).heads = s.heads ∧
    (s.pushControl f).scans = s.scans ∧ (s.pushControl f).slots = s.slots ∧
    (s.pushControl f).rovers = s.rovers ∧ (s.pushControl f).encodeQueue = s.encodeQueue ∧
    (s.pushControl f).encoder = s.encoder ∧ (s.pushControl f).budget = s.budget ∧
    (s.pushControl f).link.state = s.link.state ∧ (s.pushControl f).link.acquired = s.link.acquired ∧
    (s.pushControl f).link.arriving = s.link.arriving ∧
    (s.pushControl f).link.aligned = s.link.aligned ∧
    (s.pushControl f).link.aligningAt = s.link.aligningAt ∧
    (s.pushControl f).link.helloAt = s.link.helloAt ∧ (s.pushControl f).link.send = s.link.send ∧
    (s.pushControl f).link.wire = s.link.wire ∧ (s.pushControl f).link.lastServed = s.link.lastServed ∧
    (s.pushControl f).link.staged = s.link.staged ∧ (s.pushControl f).link.current = s.link.current ∧
    (s.pushControl f).link.applyRequest = s.link.applyRequest ∧
    (s.pushControl f).link.latches = s.link.latches ∧
    (s.pushControl f).link.statusPending = s.link.statusPending ∧ (s.pushControl f).relay = s.relay ∧
    (s.pushControl f).pending = s.pending :=
  by
  unfold State.pushControl
  (repeat' split) <;> simp

/-- A frame is offered to the control FIFO (R143). -/
@[simp] theorem State.offerHead_frame (h : Fin 4) :
    (s.offerHead h).straps = s.straps ∧ (s.offerHead h).memoryResetLine = s.memoryResetLine ∧
    (s.offerHead h).channel = s.channel ∧ (s.offerHead h).descriptors = s.descriptors ∧
    (s.offerHead h).surfaces = s.surfaces ∧ (s.offerHead h).heads = s.heads ∧
    (s.offerHead h).scans = s.scans ∧ (s.offerHead h).slots = s.slots ∧ (s.offerHead h).rovers = s.rovers ∧
    (s.offerHead h).encodeQueue = s.encodeQueue ∧ (s.offerHead h).encoder = s.encoder ∧
    (s.offerHead h).budget = s.budget ∧ (s.offerHead h).link.state = s.link.state ∧
    (s.offerHead h).link.acquired = s.link.acquired ∧
    (s.offerHead h).link.arriving = s.link.arriving ∧ (s.offerHead h).link.aligned = s.link.aligned ∧
    (s.offerHead h).link.aligningAt = s.link.aligningAt ∧ (s.offerHead h).link.helloAt = s.link.helloAt ∧
    (s.offerHead h).link.send = s.link.send ∧ (s.offerHead h).link.wire = s.link.wire ∧
    (s.offerHead h).link.lastServed = s.link.lastServed ∧ (s.offerHead h).link.staged = s.link.staged ∧
    (s.offerHead h).link.current = s.link.current ∧
    (s.offerHead h).link.applyRequest = s.link.applyRequest ∧
    (s.offerHead h).link.latches = s.link.latches ∧
    (s.offerHead h).link.statusPending = s.link.statusPending ∧ (s.offerHead h).relay = s.relay ∧
    (s.offerHead h).pending = s.pending :=
  by
  unfold State.offerHead
  (repeat' split) <;> simp

/-- A frame is offered to the control FIFO (R143). -/
@[simp] theorem State.offerLamp_frame (w : Byte) :
    (s.offerLamp w).straps = s.straps ∧ (s.offerLamp w).memoryResetLine = s.memoryResetLine ∧
    (s.offerLamp w).channel = s.channel ∧ (s.offerLamp w).descriptors = s.descriptors ∧
    (s.offerLamp w).surfaces = s.surfaces ∧ (s.offerLamp w).heads = s.heads ∧
    (s.offerLamp w).scans = s.scans ∧ (s.offerLamp w).slots = s.slots ∧ (s.offerLamp w).rovers = s.rovers ∧
    (s.offerLamp w).encodeQueue = s.encodeQueue ∧ (s.offerLamp w).encoder = s.encoder ∧
    (s.offerLamp w).budget = s.budget ∧ (s.offerLamp w).link.state = s.link.state ∧
    (s.offerLamp w).link.acquired = s.link.acquired ∧
    (s.offerLamp w).link.arriving = s.link.arriving ∧ (s.offerLamp w).link.aligned = s.link.aligned ∧
    (s.offerLamp w).link.aligningAt = s.link.aligningAt ∧ (s.offerLamp w).link.helloAt = s.link.helloAt ∧
    (s.offerLamp w).link.send = s.link.send ∧ (s.offerLamp w).link.wire = s.link.wire ∧
    (s.offerLamp w).link.lastServed = s.link.lastServed ∧ (s.offerLamp w).link.staged = s.link.staged ∧
    (s.offerLamp w).link.current = s.link.current ∧
    (s.offerLamp w).link.applyRequest = s.link.applyRequest ∧
    (s.offerLamp w).link.latches = s.link.latches ∧
    (s.offerLamp w).link.statusPending = s.link.statusPending ∧ (s.offerLamp w).relay = s.relay ∧
    (s.offerLamp w).pending = s.pending :=
  by
  unfold State.offerLamp
  (repeat' split) <;> simp

/-- A frame is offered to the control FIFO (R143). -/
@[simp] theorem State.offerStatus_frame  :
    (s.offerStatus).straps = s.straps ∧ (s.offerStatus).memoryResetLine = s.memoryResetLine ∧
    (s.offerStatus).channel = s.channel ∧ (s.offerStatus).descriptors = s.descriptors ∧
    (s.offerStatus).surfaces = s.surfaces ∧ (s.offerStatus).heads = s.heads ∧
    (s.offerStatus).scans = s.scans ∧ (s.offerStatus).slots = s.slots ∧ (s.offerStatus).rovers = s.rovers ∧
    (s.offerStatus).encodeQueue = s.encodeQueue ∧ (s.offerStatus).encoder = s.encoder ∧
    (s.offerStatus).budget = s.budget ∧ (s.offerStatus).link.state = s.link.state ∧
    (s.offerStatus).link.acquired = s.link.acquired ∧
    (s.offerStatus).link.arriving = s.link.arriving ∧ (s.offerStatus).link.aligned = s.link.aligned ∧
    (s.offerStatus).link.aligningAt = s.link.aligningAt ∧ (s.offerStatus).link.helloAt = s.link.helloAt ∧
    (s.offerStatus).link.send = s.link.send ∧ (s.offerStatus).link.wire = s.link.wire ∧
    (s.offerStatus).link.lastServed = s.link.lastServed ∧ (s.offerStatus).link.staged = s.link.staged ∧
    (s.offerStatus).link.current = s.link.current ∧
    (s.offerStatus).link.applyRequest = s.link.applyRequest ∧
    (s.offerStatus).link.latches = s.link.latches ∧
    (s.offerStatus).link.statusPending = s.link.statusPending ∧ (s.offerStatus).relay = s.relay ∧
    (s.offerStatus).pending = s.pending :=
  by
  unfold State.offerStatus
  (repeat' split) <;> simp

/-- A frame is offered to the control FIFO (R143). -/
@[simp] theorem State.offerAnswer_frame (i : BitVec 16) (v : Bool) (x : BitVec 64) :
    (s.offerAnswer i v x).straps = s.straps ∧ (s.offerAnswer i v x).memoryResetLine = s.memoryResetLine ∧
    (s.offerAnswer i v x).channel = s.channel ∧ (s.offerAnswer i v x).descriptors = s.descriptors ∧
    (s.offerAnswer i v x).surfaces = s.surfaces ∧ (s.offerAnswer i v x).heads = s.heads ∧
    (s.offerAnswer i v x).scans = s.scans ∧ (s.offerAnswer i v x).slots = s.slots ∧
    (s.offerAnswer i v x).rovers = s.rovers ∧ (s.offerAnswer i v x).encodeQueue = s.encodeQueue ∧
    (s.offerAnswer i v x).encoder = s.encoder ∧ (s.offerAnswer i v x).budget = s.budget ∧
    (s.offerAnswer i v x).link.state = s.link.state ∧
    (s.offerAnswer i v x).link.acquired = s.link.acquired ∧
    (s.offerAnswer i v x).link.arriving = s.link.arriving ∧
    (s.offerAnswer i v x).link.aligned = s.link.aligned ∧
    (s.offerAnswer i v x).link.aligningAt = s.link.aligningAt ∧
    (s.offerAnswer i v x).link.helloAt = s.link.helloAt ∧ (s.offerAnswer i v x).link.send = s.link.send ∧
    (s.offerAnswer i v x).link.wire = s.link.wire ∧
    (s.offerAnswer i v x).link.lastServed = s.link.lastServed ∧
    (s.offerAnswer i v x).link.staged = s.link.staged ∧
    (s.offerAnswer i v x).link.current = s.link.current ∧
    (s.offerAnswer i v x).link.applyRequest = s.link.applyRequest ∧
    (s.offerAnswer i v x).link.latches = s.link.latches ∧
    (s.offerAnswer i v x).link.statusPending = s.link.statusPending ∧
    (s.offerAnswer i v x).relay = s.relay ∧ (s.offerAnswer i v x).pending = s.pending :=
  by
  unfold State.offerAnswer
  (repeat' split) <;> simp

/-- A frame is offered to the control FIFO (R143). -/
@[simp] theorem State.offerHello_frame  :
    (s.offerHello).straps = s.straps ∧ (s.offerHello).memoryResetLine = s.memoryResetLine ∧
    (s.offerHello).channel = s.channel ∧ (s.offerHello).descriptors = s.descriptors ∧
    (s.offerHello).surfaces = s.surfaces ∧ (s.offerHello).heads = s.heads ∧
    (s.offerHello).scans = s.scans ∧ (s.offerHello).slots = s.slots ∧ (s.offerHello).rovers = s.rovers ∧
    (s.offerHello).encodeQueue = s.encodeQueue ∧ (s.offerHello).encoder = s.encoder ∧
    (s.offerHello).budget = s.budget ∧ (s.offerHello).link.state = s.link.state ∧
    (s.offerHello).link.acquired = s.link.acquired ∧
    (s.offerHello).link.arriving = s.link.arriving ∧ (s.offerHello).link.aligned = s.link.aligned ∧
    (s.offerHello).link.aligningAt = s.link.aligningAt ∧ (s.offerHello).link.helloAt = s.link.helloAt ∧
    (s.offerHello).link.send = s.link.send ∧ (s.offerHello).link.wire = s.link.wire ∧
    (s.offerHello).link.lastServed = s.link.lastServed ∧ (s.offerHello).link.staged = s.link.staged ∧
    (s.offerHello).link.current = s.link.current ∧ (s.offerHello).link.applyRequest = s.link.applyRequest ∧
    (s.offerHello).link.latches = s.link.latches ∧
    (s.offerHello).link.statusPending = s.link.statusPending ∧ (s.offerHello).relay = s.relay ∧
    (s.offerHello).pending = s.pending :=
  by
  unfold State.offerHello
  (repeat' split) <;> simp

/-- A control frame begins (R142, R166). -/
@[simp] theorem State.beginControl_frame (f : ControlFrame) :
    (s.beginControl f).straps = s.straps ∧ (s.beginControl f).memoryResetLine = s.memoryResetLine ∧
    (s.beginControl f).channel = s.channel ∧ (s.beginControl f).descriptors = s.descriptors ∧
    (s.beginControl f).surfaces = s.surfaces ∧ (s.beginControl f).heads = s.heads ∧
    (s.beginControl f).scans = s.scans ∧ (s.beginControl f).slots = s.slots ∧
    (s.beginControl f).rovers = s.rovers ∧ (s.beginControl f).encodeQueue = s.encodeQueue ∧
    (s.beginControl f).encoder = s.encoder ∧ (s.beginControl f).budget = s.budget ∧
    (s.beginControl f).link.state = s.link.state ∧ (s.beginControl f).link.acquired = s.link.acquired ∧
    (s.beginControl f).link.arriving = s.link.arriving ∧
    (s.beginControl f).link.aligned = s.link.aligned ∧
    (s.beginControl f).link.aligningAt = s.link.aligningAt ∧
    (s.beginControl f).link.helloAt = s.link.helloAt ∧ (s.beginControl f).link.control = s.link.control ∧
    (s.beginControl f).link.send = s.link.send ∧ (s.beginControl f).link.lastServed = s.link.lastServed ∧
    (s.beginControl f).link.staged = s.link.staged ∧ (s.beginControl f).link.current = s.link.current ∧
    (s.beginControl f).link.applyRequest = s.link.applyRequest ∧
    (s.beginControl f).link.latches = s.link.latches ∧
    (s.beginControl f).link.statusPending = s.link.statusPending ∧
    (s.beginControl f).relay.queue = s.relay.queue ∧ (s.beginControl f).relay.sending = s.relay.sending ∧
    (s.beginControl f).relay.ready = s.relay.ready ∧ (s.beginControl f).relay.lost = s.relay.lost ∧
    (s.beginControl f).relay.heldModifiers = s.relay.heldModifiers ∧
    (s.beginControl f).relay.heldKeys = s.relay.heldKeys ∧
    (s.beginControl f).relay.position = s.relay.position ∧
    (s.beginControl f).relay.buttons = s.relay.buttons ∧ (s.beginControl f).relay.lamps = s.relay.lamps ∧
    (s.beginControl f).relay.receiver = s.relay.receiver ∧ (s.beginControl f).counters = s.counters ∧
    (s.beginControl f).pending = s.pending :=
  by
  unfold State.beginControl
  (repeat' split) <;> simp

/-- A tile frame begins (R145, R146). -/
@[simp] theorem State.beginTile_frame (c : HeadClass) (h : Fin 4) (i : Fin 64) (l : List (Fin 64)) :
    (s.beginTile c h i l).straps = s.straps ∧ (s.beginTile c h i l).memoryResetLine = s.memoryResetLine ∧
    (s.beginTile c h i l).channel = s.channel ∧ (s.beginTile c h i l).descriptors = s.descriptors ∧
    (s.beginTile c h i l).surfaces = s.surfaces ∧ (s.beginTile c h i l).heads = s.heads ∧
    (s.beginTile c h i l).scans = s.scans ∧ (s.beginTile c h i l).rovers = s.rovers ∧
    (s.beginTile c h i l).encodeQueue = s.encodeQueue ∧ (s.beginTile c h i l).encoder = s.encoder ∧
    (s.beginTile c h i l).budget = s.budget ∧ (s.beginTile c h i l).link.state = s.link.state ∧
    (s.beginTile c h i l).link.acquired = s.link.acquired ∧
    (s.beginTile c h i l).link.arriving = s.link.arriving ∧
    (s.beginTile c h i l).link.aligned = s.link.aligned ∧
    (s.beginTile c h i l).link.aligningAt = s.link.aligningAt ∧
    (s.beginTile c h i l).link.helloAt = s.link.helloAt ∧
    (s.beginTile c h i l).link.control = s.link.control ∧
    (s.beginTile c h i l).link.staged = s.link.staged ∧
    (s.beginTile c h i l).link.current = s.link.current ∧
    (s.beginTile c h i l).link.applyRequest = s.link.applyRequest ∧
    (s.beginTile c h i l).link.latches = s.link.latches ∧
    (s.beginTile c h i l).link.statusPending = s.link.statusPending ∧
    (s.beginTile c h i l).relay = s.relay ∧ (s.beginTile c h i l).counters = s.counters ∧
    (s.beginTile c h i l).pending = s.pending :=
  by
  simp [State.beginTile]

/-- The first tile frame of the arbiter's order (R145). -/
@[simp] theorem State.sendTile_frame (cs : List HeadClass) :
    (s.sendTile cs).straps = s.straps ∧ (s.sendTile cs).memoryResetLine = s.memoryResetLine ∧
    (s.sendTile cs).channel = s.channel ∧ (s.sendTile cs).descriptors = s.descriptors ∧
    (s.sendTile cs).surfaces = s.surfaces ∧ (s.sendTile cs).heads = s.heads ∧
    (s.sendTile cs).scans = s.scans ∧ (s.sendTile cs).rovers = s.rovers ∧
    (s.sendTile cs).encodeQueue = s.encodeQueue ∧ (s.sendTile cs).encoder = s.encoder ∧
    (s.sendTile cs).budget = s.budget ∧ (s.sendTile cs).link.state = s.link.state ∧
    (s.sendTile cs).link.acquired = s.link.acquired ∧
    (s.sendTile cs).link.arriving = s.link.arriving ∧ (s.sendTile cs).link.aligned = s.link.aligned ∧
    (s.sendTile cs).link.aligningAt = s.link.aligningAt ∧ (s.sendTile cs).link.helloAt = s.link.helloAt ∧
    (s.sendTile cs).link.control = s.link.control ∧ (s.sendTile cs).link.staged = s.link.staged ∧
    (s.sendTile cs).link.current = s.link.current ∧
    (s.sendTile cs).link.applyRequest = s.link.applyRequest ∧
    (s.sendTile cs).link.latches = s.link.latches ∧
    (s.sendTile cs).link.statusPending = s.link.statusPending ∧ (s.sendTile cs).relay = s.relay ∧
    (s.sendTile cs).counters = s.counters ∧ (s.sendTile cs).pending = s.pending :=
  by
  induction cs with
  | nil => simp [State.sendTile]
  | cons c cs ih =>
    unfold State.sendTile
    (repeat' split) <;> simp [ih]

/-- The send decision (R145). -/
@[simp] theorem State.sendDecision_frame  :
    (s.sendDecision).straps = s.straps ∧ (s.sendDecision).memoryResetLine = s.memoryResetLine ∧
    (s.sendDecision).channel = s.channel ∧ (s.sendDecision).descriptors = s.descriptors ∧
    (s.sendDecision).surfaces = s.surfaces ∧ (s.sendDecision).heads = s.heads ∧
    (s.sendDecision).scans = s.scans ∧ (s.sendDecision).rovers = s.rovers ∧
    (s.sendDecision).encodeQueue = s.encodeQueue ∧ (s.sendDecision).encoder = s.encoder ∧
    (s.sendDecision).budget = s.budget ∧ (s.sendDecision).link.state = s.link.state ∧
    (s.sendDecision).link.acquired = s.link.acquired ∧
    (s.sendDecision).link.arriving = s.link.arriving ∧ (s.sendDecision).link.aligned = s.link.aligned ∧
    (s.sendDecision).link.aligningAt = s.link.aligningAt ∧ (s.sendDecision).link.helloAt = s.link.helloAt ∧
    (s.sendDecision).link.staged = s.link.staged ∧ (s.sendDecision).link.current = s.link.current ∧
    (s.sendDecision).link.applyRequest = s.link.applyRequest ∧
    (s.sendDecision).link.latches = s.link.latches ∧
    (s.sendDecision).link.statusPending = s.link.statusPending ∧
    (s.sendDecision).relay.queue = s.relay.queue ∧ (s.sendDecision).relay.sending = s.relay.sending ∧
    (s.sendDecision).relay.ready = s.relay.ready ∧ (s.sendDecision).relay.lost = s.relay.lost ∧
    (s.sendDecision).relay.heldModifiers = s.relay.heldModifiers ∧
    (s.sendDecision).relay.heldKeys = s.relay.heldKeys ∧
    (s.sendDecision).relay.position = s.relay.position ∧ (s.sendDecision).relay.buttons = s.relay.buttons ∧
    (s.sendDecision).relay.lamps = s.relay.lamps ∧ (s.sendDecision).relay.receiver = s.relay.receiver ∧
    (s.sendDecision).counters = s.counters ∧ (s.sendDecision).pending = s.pending :=
  by
  unfold State.sendDecision
  (repeat' split) <;> simp

/-- The STATUS test (R153). -/
@[simp] theorem State.statusTest_frame  :
    (s.statusTest).straps = s.straps ∧ (s.statusTest).memoryResetLine = s.memoryResetLine ∧
    (s.statusTest).channel = s.channel ∧ (s.statusTest).descriptors = s.descriptors ∧
    (s.statusTest).surfaces = s.surfaces ∧ (s.statusTest).heads = s.heads ∧
    (s.statusTest).scans = s.scans ∧ (s.statusTest).slots = s.slots ∧ (s.statusTest).rovers = s.rovers ∧
    (s.statusTest).encodeQueue = s.encodeQueue ∧ (s.statusTest).encoder = s.encoder ∧
    (s.statusTest).budget = s.budget ∧ (s.statusTest).link.state = s.link.state ∧
    (s.statusTest).link.acquired = s.link.acquired ∧
    (s.statusTest).link.arriving = s.link.arriving ∧ (s.statusTest).link.aligned = s.link.aligned ∧
    (s.statusTest).link.aligningAt = s.link.aligningAt ∧ (s.statusTest).link.helloAt = s.link.helloAt ∧
    (s.statusTest).link.send = s.link.send ∧ (s.statusTest).link.wire = s.link.wire ∧
    (s.statusTest).link.lastServed = s.link.lastServed ∧ (s.statusTest).link.staged = s.link.staged ∧
    (s.statusTest).link.current = s.link.current ∧ (s.statusTest).link.applyRequest = s.link.applyRequest ∧
    (s.statusTest).link.latches = s.link.latches ∧ (s.statusTest).relay = s.relay ∧
    (s.statusTest).pending = s.pending :=
  by
  unfold State.statusTest
  (repeat' split) <;> simp

/-! ### The Budget Unit -/

/-- A record joins a send FIFO (R144, R145). -/
@[simp] theorem State.joinSendFifo_frame (h : Fin 4) (i : Fin 64) :
    (s.joinSendFifo h i).straps = s.straps ∧ (s.joinSendFifo h i).memoryResetLine = s.memoryResetLine ∧
    (s.joinSendFifo h i).channel = s.channel ∧ (s.joinSendFifo h i).descriptors = s.descriptors ∧
    (s.joinSendFifo h i).surfaces = s.surfaces ∧ (s.joinSendFifo h i).heads = s.heads ∧
    (s.joinSendFifo h i).scans = s.scans ∧ (s.joinSendFifo h i).rovers = s.rovers ∧
    (s.joinSendFifo h i).encodeQueue = s.encodeQueue ∧ (s.joinSendFifo h i).encoder = s.encoder ∧
    (s.joinSendFifo h i).budget = s.budget ∧ (s.joinSendFifo h i).link.state = s.link.state ∧
    (s.joinSendFifo h i).link.acquired = s.link.acquired ∧
    (s.joinSendFifo h i).link.arriving = s.link.arriving ∧
    (s.joinSendFifo h i).link.aligned = s.link.aligned ∧
    (s.joinSendFifo h i).link.aligningAt = s.link.aligningAt ∧
    (s.joinSendFifo h i).link.helloAt = s.link.helloAt ∧ (s.joinSendFifo h i).link.staged = s.link.staged ∧
    (s.joinSendFifo h i).link.current = s.link.current ∧
    (s.joinSendFifo h i).link.applyRequest = s.link.applyRequest ∧
    (s.joinSendFifo h i).link.latches = s.link.latches ∧
    (s.joinSendFifo h i).link.statusPending = s.link.statusPending ∧
    (s.joinSendFifo h i).relay.queue = s.relay.queue ∧
    (s.joinSendFifo h i).relay.sending = s.relay.sending ∧
    (s.joinSendFifo h i).relay.ready = s.relay.ready ∧ (s.joinSendFifo h i).relay.lost = s.relay.lost ∧
    (s.joinSendFifo h i).relay.heldModifiers = s.relay.heldModifiers ∧
    (s.joinSendFifo h i).relay.heldKeys = s.relay.heldKeys ∧
    (s.joinSendFifo h i).relay.position = s.relay.position ∧
    (s.joinSendFifo h i).relay.buttons = s.relay.buttons ∧
    (s.joinSendFifo h i).relay.lamps = s.relay.lamps ∧
    (s.joinSendFifo h i).relay.receiver = s.relay.receiver ∧ (s.joinSendFifo h i).counters = s.counters ∧
    (s.joinSendFifo h i).pending = s.pending :=
  by
  simp [State.joinSendFifo]

/-- A charge (R128, R130, R144). -/
@[simp] theorem State.charge_frame (h : Fin 4) (i : Fin 64) (d : Decision) :
    (s.charge h i d).straps = s.straps ∧ (s.charge h i d).memoryResetLine = s.memoryResetLine ∧
    (s.charge h i d).channel = s.channel ∧ (s.charge h i d).descriptors = s.descriptors ∧
    (s.charge h i d).surfaces = s.surfaces ∧ (s.charge h i d).heads = s.heads ∧
    (s.charge h i d).scans = s.scans ∧ (s.charge h i d).rovers = s.rovers ∧
    (s.charge h i d).encodeQueue = s.encodeQueue ∧ (s.charge h i d).encoder = s.encoder ∧
    (s.charge h i d).budget.now = s.budget.now ∧ (s.charge h i d).budget.tickAt = s.budget.tickAt ∧
    (s.charge h i d).budget.epochTicks = s.budget.epochTicks ∧
    (s.charge h i d).budget.recompute = s.budget.recompute ∧
    (s.charge h i d).budget.overrideActive = s.budget.overrideActive ∧
    (s.charge h i d).budget.hold = s.budget.hold ∧ (s.charge h i d).link.state = s.link.state ∧
    (s.charge h i d).link.acquired = s.link.acquired ∧
    (s.charge h i d).link.arriving = s.link.arriving ∧ (s.charge h i d).link.aligned = s.link.aligned ∧
    (s.charge h i d).link.aligningAt = s.link.aligningAt ∧ (s.charge h i d).link.helloAt = s.link.helloAt ∧
    (s.charge h i d).link.staged = s.link.staged ∧ (s.charge h i d).link.current = s.link.current ∧
    (s.charge h i d).link.applyRequest = s.link.applyRequest ∧
    (s.charge h i d).link.latches = s.link.latches ∧
    (s.charge h i d).link.statusPending = s.link.statusPending ∧
    (s.charge h i d).relay.queue = s.relay.queue ∧ (s.charge h i d).relay.sending = s.relay.sending ∧
    (s.charge h i d).relay.ready = s.relay.ready ∧ (s.charge h i d).relay.lost = s.relay.lost ∧
    (s.charge h i d).relay.heldModifiers = s.relay.heldModifiers ∧
    (s.charge h i d).relay.heldKeys = s.relay.heldKeys ∧
    (s.charge h i d).relay.position = s.relay.position ∧ (s.charge h i d).relay.buttons = s.relay.buttons ∧
    (s.charge h i d).relay.lamps = s.relay.lamps ∧ (s.charge h i d).relay.receiver = s.relay.receiver ∧
    (s.charge h i d).counters = s.counters ∧ (s.charge h i d).pending = s.pending :=
  by
  simp [State.charge]

/-- The abandonment of a deferral (R134). -/
@[simp] theorem State.abandonDeferral_frame (i : Fin 64) (r : Record) :
    (s.abandonDeferral i r).straps = s.straps ∧
    (s.abandonDeferral i r).memoryResetLine = s.memoryResetLine ∧
    (s.abandonDeferral i r).channel = s.channel ∧ (s.abandonDeferral i r).descriptors = s.descriptors ∧
    (s.abandonDeferral i r).heads = s.heads ∧ (s.abandonDeferral i r).scans = s.scans ∧
    (s.abandonDeferral i r).rovers = s.rovers ∧ (s.abandonDeferral i r).encodeQueue = s.encodeQueue ∧
    (s.abandonDeferral i r).encoder = s.encoder ∧ (s.abandonDeferral i r).budget.now = s.budget.now ∧
    (s.abandonDeferral i r).budget.tickAt = s.budget.tickAt ∧
    (s.abandonDeferral i r).budget.epochTicks = s.budget.epochTicks ∧
    (s.abandonDeferral i r).budget.recompute = s.budget.recompute ∧
    (s.abandonDeferral i r).budget.overrideActive = s.budget.overrideActive ∧
    (s.abandonDeferral i r).budget.hold = s.budget.hold ∧
    (s.abandonDeferral i r).link.state = s.link.state ∧
    (s.abandonDeferral i r).link.acquired = s.link.acquired ∧
    (s.abandonDeferral i r).link.arriving = s.link.arriving ∧
    (s.abandonDeferral i r).link.aligned = s.link.aligned ∧
    (s.abandonDeferral i r).link.aligningAt = s.link.aligningAt ∧
    (s.abandonDeferral i r).link.helloAt = s.link.helloAt ∧
    (s.abandonDeferral i r).link.control = s.link.control ∧
    (s.abandonDeferral i r).link.send = s.link.send ∧ (s.abandonDeferral i r).link.wire = s.link.wire ∧
    (s.abandonDeferral i r).link.lastServed = s.link.lastServed ∧
    (s.abandonDeferral i r).link.staged = s.link.staged ∧
    (s.abandonDeferral i r).link.current = s.link.current ∧
    (s.abandonDeferral i r).link.applyRequest = s.link.applyRequest ∧
    (s.abandonDeferral i r).relay = s.relay ∧ (s.abandonDeferral i r).pending = s.pending :=
  by
  simp [State.abandonDeferral]

/-- The freeing of a deferred REFINE record (R135). -/
@[simp] theorem State.freeRefine_frame (i : Fin 64) (r : Record) :
    (s.freeRefine i r).straps = s.straps ∧ (s.freeRefine i r).memoryResetLine = s.memoryResetLine ∧
    (s.freeRefine i r).channel = s.channel ∧ (s.freeRefine i r).descriptors = s.descriptors ∧
    (s.freeRefine i r).surfaces = s.surfaces ∧ (s.freeRefine i r).heads = s.heads ∧
    (s.freeRefine i r).scans = s.scans ∧ (s.freeRefine i r).rovers = s.rovers ∧
    (s.freeRefine i r).encodeQueue = s.encodeQueue ∧ (s.freeRefine i r).encoder = s.encoder ∧
    (s.freeRefine i r).budget.now = s.budget.now ∧ (s.freeRefine i r).budget.tickAt = s.budget.tickAt ∧
    (s.freeRefine i r).budget.epochTicks = s.budget.epochTicks ∧
    (s.freeRefine i r).budget.recompute = s.budget.recompute ∧
    (s.freeRefine i r).budget.overrideActive = s.budget.overrideActive ∧
    (s.freeRefine i r).budget.hold = s.budget.hold ∧ (s.freeRefine i r).link = s.link ∧
    (s.freeRefine i r).relay = s.relay ∧ (s.freeRefine i r).counters = s.counters ∧
    (s.freeRefine i r).pending = s.pending :=
  by
  simp [State.freeRefine]

/-- Step 1 of a re-evaluation (R133). -/
@[simp] theorem State.freeDeferredRefines_frame (h : Fin 4) :
    (s.freeDeferredRefines h).straps = s.straps ∧
    (s.freeDeferredRefines h).memoryResetLine = s.memoryResetLine ∧
    (s.freeDeferredRefines h).channel = s.channel ∧ (s.freeDeferredRefines h).descriptors = s.descriptors ∧
    (s.freeDeferredRefines h).surfaces = s.surfaces ∧ (s.freeDeferredRefines h).heads = s.heads ∧
    (s.freeDeferredRefines h).scans = s.scans ∧ (s.freeDeferredRefines h).rovers = s.rovers ∧
    (s.freeDeferredRefines h).encodeQueue = s.encodeQueue ∧ (s.freeDeferredRefines h).encoder = s.encoder ∧
    (s.freeDeferredRefines h).budget.now = s.budget.now ∧
    (s.freeDeferredRefines h).budget.tickAt = s.budget.tickAt ∧
    (s.freeDeferredRefines h).budget.epochTicks = s.budget.epochTicks ∧
    (s.freeDeferredRefines h).budget.recompute = s.budget.recompute ∧
    (s.freeDeferredRefines h).budget.overrideActive = s.budget.overrideActive ∧
    (s.freeDeferredRefines h).budget.hold = s.budget.hold ∧ (s.freeDeferredRefines h).link = s.link ∧
    (s.freeDeferredRefines h).relay = s.relay ∧ (s.freeDeferredRefines h).counters = s.counters ∧
    (s.freeDeferredRefines h).pending = s.pending :=
  by
  let π := fun t : State => (t.straps, t.memoryResetLine, t.channel, t.descriptors, t.surfaces, t.heads,
    t.scans, t.rovers, t.encodeQueue, t.encoder, t.budget.now, t.budget.tickAt, t.budget.epochTicks,
    t.budget.recompute, t.budget.overrideActive, t.budget.hold, t.link, t.relay, t.counters, t.pending)
  have hk : π (s.freeDeferredRefines h) = π s := by
    unfold State.freeDeferredRefines
    exact foldl_keeps π _ (fun t a => by simp only [π]; (repeat' split) <;> simp) (s.budget.heads.look h).deferred s
  simp only [π, Prod.mk.injEq] at hk
  exact hk

/-- The trials of a re-evaluation (R133). -/
@[simp] theorem State.tryDeferred_frame (h : Fin 4) (l : List (Fin 64)) :
    (s.tryDeferred h l).straps = s.straps ∧ (s.tryDeferred h l).memoryResetLine = s.memoryResetLine ∧
    (s.tryDeferred h l).channel = s.channel ∧ (s.tryDeferred h l).descriptors = s.descriptors ∧
    (s.tryDeferred h l).surfaces = s.surfaces ∧ (s.tryDeferred h l).heads = s.heads ∧
    (s.tryDeferred h l).scans = s.scans ∧ (s.tryDeferred h l).rovers = s.rovers ∧
    (s.tryDeferred h l).encodeQueue = s.encodeQueue ∧ (s.tryDeferred h l).encoder = s.encoder ∧
    (s.tryDeferred h l).budget.now = s.budget.now ∧ (s.tryDeferred h l).budget.tickAt = s.budget.tickAt ∧
    (s.tryDeferred h l).budget.epochTicks = s.budget.epochTicks ∧
    (s.tryDeferred h l).budget.recompute = s.budget.recompute ∧
    (s.tryDeferred h l).budget.overrideActive = s.budget.overrideActive ∧
    (s.tryDeferred h l).budget.hold = s.budget.hold ∧ (s.tryDeferred h l).link.state = s.link.state ∧
    (s.tryDeferred h l).link.acquired = s.link.acquired ∧
    (s.tryDeferred h l).link.arriving = s.link.arriving ∧
    (s.tryDeferred h l).link.aligned = s.link.aligned ∧
    (s.tryDeferred h l).link.aligningAt = s.link.aligningAt ∧
    (s.tryDeferred h l).link.helloAt = s.link.helloAt ∧ (s.tryDeferred h l).link.staged = s.link.staged ∧
    (s.tryDeferred h l).link.current = s.link.current ∧
    (s.tryDeferred h l).link.applyRequest = s.link.applyRequest ∧
    (s.tryDeferred h l).link.latches = s.link.latches ∧
    (s.tryDeferred h l).link.statusPending = s.link.statusPending ∧
    (s.tryDeferred h l).relay.queue = s.relay.queue ∧ (s.tryDeferred h l).relay.sending = s.relay.sending ∧
    (s.tryDeferred h l).relay.ready = s.relay.ready ∧ (s.tryDeferred h l).relay.lost = s.relay.lost ∧
    (s.tryDeferred h l).relay.heldModifiers = s.relay.heldModifiers ∧
    (s.tryDeferred h l).relay.heldKeys = s.relay.heldKeys ∧
    (s.tryDeferred h l).relay.position = s.relay.position ∧
    (s.tryDeferred h l).relay.buttons = s.relay.buttons ∧ (s.tryDeferred h l).relay.lamps = s.relay.lamps ∧
    (s.tryDeferred h l).relay.receiver = s.relay.receiver ∧ (s.tryDeferred h l).counters = s.counters ∧
    (s.tryDeferred h l).pending = s.pending :=
  by
  induction l generalizing s with
  | nil => simp [State.tryDeferred]
  | cons i l ih =>
    unfold State.tryDeferred
    (repeat' split) <;> simp [ih]

/-- One tick of waiting (R133, R134). -/
@[simp] theorem State.ageDeferred_frame (i : Fin 64) :
    (s.ageDeferred i).straps = s.straps ∧ (s.ageDeferred i).memoryResetLine = s.memoryResetLine ∧
    (s.ageDeferred i).channel = s.channel ∧ (s.ageDeferred i).descriptors = s.descriptors ∧
    (s.ageDeferred i).heads = s.heads ∧ (s.ageDeferred i).scans = s.scans ∧
    (s.ageDeferred i).rovers = s.rovers ∧ (s.ageDeferred i).encodeQueue = s.encodeQueue ∧
    (s.ageDeferred i).encoder = s.encoder ∧ (s.ageDeferred i).budget.now = s.budget.now ∧
    (s.ageDeferred i).budget.tickAt = s.budget.tickAt ∧
    (s.ageDeferred i).budget.epochTicks = s.budget.epochTicks ∧
    (s.ageDeferred i).budget.recompute = s.budget.recompute ∧
    (s.ageDeferred i).budget.overrideActive = s.budget.overrideActive ∧
    (s.ageDeferred i).budget.hold = s.budget.hold ∧ (s.ageDeferred i).link.state = s.link.state ∧
    (s.ageDeferred i).link.acquired = s.link.acquired ∧
    (s.ageDeferred i).link.arriving = s.link.arriving ∧ (s.ageDeferred i).link.aligned = s.link.aligned ∧
    (s.ageDeferred i).link.aligningAt = s.link.aligningAt ∧
    (s.ageDeferred i).link.helloAt = s.link.helloAt ∧ (s.ageDeferred i).link.control = s.link.control ∧
    (s.ageDeferred i).link.send = s.link.send ∧ (s.ageDeferred i).link.wire = s.link.wire ∧
    (s.ageDeferred i).link.lastServed = s.link.lastServed ∧ (s.ageDeferred i).link.staged = s.link.staged ∧
    (s.ageDeferred i).link.current = s.link.current ∧
    (s.ageDeferred i).link.applyRequest = s.link.applyRequest ∧ (s.ageDeferred i).relay = s.relay ∧
    (s.ageDeferred i).pending = s.pending :=
  by
  simp only [State.ageDeferred]
  (repeat' split) <;> simp

/-- One tick of waiting for every record of a list. -/
@[simp] theorem State.ageEach_frame (l : List (Fin 64)) :
    (l.foldl (fun t i => t.ageDeferred i) s).straps = s.straps ∧
    (l.foldl (fun t i => t.ageDeferred i) s).memoryResetLine = s.memoryResetLine ∧
    (l.foldl (fun t i => t.ageDeferred i) s).channel = s.channel ∧
    (l.foldl (fun t i => t.ageDeferred i) s).descriptors = s.descriptors ∧
    (l.foldl (fun t i => t.ageDeferred i) s).heads = s.heads ∧
    (l.foldl (fun t i => t.ageDeferred i) s).scans = s.scans ∧
    (l.foldl (fun t i => t.ageDeferred i) s).rovers = s.rovers ∧
    (l.foldl (fun t i => t.ageDeferred i) s).encodeQueue = s.encodeQueue ∧
    (l.foldl (fun t i => t.ageDeferred i) s).encoder = s.encoder ∧
    (l.foldl (fun t i => t.ageDeferred i) s).budget.now = s.budget.now ∧
    (l.foldl (fun t i => t.ageDeferred i) s).budget.tickAt = s.budget.tickAt ∧
    (l.foldl (fun t i => t.ageDeferred i) s).budget.epochTicks = s.budget.epochTicks ∧
    (l.foldl (fun t i => t.ageDeferred i) s).budget.recompute = s.budget.recompute ∧
    (l.foldl (fun t i => t.ageDeferred i) s).budget.overrideActive = s.budget.overrideActive ∧
    (l.foldl (fun t i => t.ageDeferred i) s).budget.hold = s.budget.hold ∧
    (l.foldl (fun t i => t.ageDeferred i) s).link.state = s.link.state ∧
    (l.foldl (fun t i => t.ageDeferred i) s).link.acquired = s.link.acquired ∧
    (l.foldl (fun t i => t.ageDeferred i) s).link.arriving = s.link.arriving ∧
    (l.foldl (fun t i => t.ageDeferred i) s).link.aligned = s.link.aligned ∧
    (l.foldl (fun t i => t.ageDeferred i) s).link.aligningAt = s.link.aligningAt ∧
    (l.foldl (fun t i => t.ageDeferred i) s).link.helloAt = s.link.helloAt ∧
    (l.foldl (fun t i => t.ageDeferred i) s).link.control = s.link.control ∧
    (l.foldl (fun t i => t.ageDeferred i) s).link.send = s.link.send ∧
    (l.foldl (fun t i => t.ageDeferred i) s).link.wire = s.link.wire ∧
    (l.foldl (fun t i => t.ageDeferred i) s).link.lastServed = s.link.lastServed ∧
    (l.foldl (fun t i => t.ageDeferred i) s).link.staged = s.link.staged ∧
    (l.foldl (fun t i => t.ageDeferred i) s).link.current = s.link.current ∧
    (l.foldl (fun t i => t.ageDeferred i) s).link.applyRequest = s.link.applyRequest ∧
    (l.foldl (fun t i => t.ageDeferred i) s).relay = s.relay ∧
    (l.foldl (fun t i => t.ageDeferred i) s).pending = s.pending :=
  by
  let π := fun t : State => (t.straps, t.memoryResetLine, t.channel, t.descriptors, t.heads, t.scans,
    t.rovers, t.encodeQueue, t.encoder, t.budget.now, t.budget.tickAt, t.budget.epochTicks,
    t.budget.recompute, t.budget.overrideActive, t.budget.hold, t.link.state, t.link.acquired, t.link.arriving,
    t.link.aligned, t.link.aligningAt, t.link.helloAt, t.link.control, t.link.send, t.link.wire,
    t.link.lastServed, t.link.staged, t.link.current, t.link.applyRequest, t.relay, t.pending)
  have hk : π (l.foldl (fun t i => t.ageDeferred i) s) = π s := by
    exact foldl_keeps π _ (fun t a => by simp only [π]; simp) l s
  simp only [π, Prod.mk.injEq] at hk
  exact hk

/-- A re-evaluation (R133 to R135). -/
@[simp] theorem State.reevaluate_frame (h : Fin 4) :
    (s.reevaluate h).straps = s.straps ∧ (s.reevaluate h).memoryResetLine = s.memoryResetLine ∧
    (s.reevaluate h).channel = s.channel ∧ (s.reevaluate h).descriptors = s.descriptors ∧
    (s.reevaluate h).heads = s.heads ∧ (s.reevaluate h).scans = s.scans ∧
    (s.reevaluate h).rovers = s.rovers ∧ (s.reevaluate h).encodeQueue = s.encodeQueue ∧
    (s.reevaluate h).encoder = s.encoder ∧ (s.reevaluate h).budget.now = s.budget.now ∧
    (s.reevaluate h).budget.tickAt = s.budget.tickAt ∧
    (s.reevaluate h).budget.epochTicks = s.budget.epochTicks ∧
    (s.reevaluate h).budget.recompute = s.budget.recompute ∧
    (s.reevaluate h).budget.overrideActive = s.budget.overrideActive ∧
    (s.reevaluate h).budget.hold = s.budget.hold ∧ (s.reevaluate h).link.state = s.link.state ∧
    (s.reevaluate h).link.acquired = s.link.acquired ∧
    (s.reevaluate h).link.arriving = s.link.arriving ∧ (s.reevaluate h).link.aligned = s.link.aligned ∧
    (s.reevaluate h).link.aligningAt = s.link.aligningAt ∧ (s.reevaluate h).link.helloAt = s.link.helloAt ∧
    (s.reevaluate h).link.staged = s.link.staged ∧ (s.reevaluate h).link.current = s.link.current ∧
    (s.reevaluate h).link.applyRequest = s.link.applyRequest ∧
    (s.reevaluate h).relay.queue = s.relay.queue ∧ (s.reevaluate h).relay.sending = s.relay.sending ∧
    (s.reevaluate h).relay.ready = s.relay.ready ∧ (s.reevaluate h).relay.lost = s.relay.lost ∧
    (s.reevaluate h).relay.heldModifiers = s.relay.heldModifiers ∧
    (s.reevaluate h).relay.heldKeys = s.relay.heldKeys ∧
    (s.reevaluate h).relay.position = s.relay.position ∧ (s.reevaluate h).relay.buttons = s.relay.buttons ∧
    (s.reevaluate h).relay.lamps = s.relay.lamps ∧ (s.reevaluate h).relay.receiver = s.relay.receiver ∧
    (s.reevaluate h).pending = s.pending :=
  by
  unfold State.reevaluate
  split <;> simp

/-- The re-evaluation of every head (R118). -/
@[simp] theorem State.reevaluateAll_frame  :
    (s.forHeads fun h t => t.reevaluate h).straps = s.straps ∧
    (s.forHeads fun h t => t.reevaluate h).memoryResetLine = s.memoryResetLine ∧
    (s.forHeads fun h t => t.reevaluate h).channel = s.channel ∧
    (s.forHeads fun h t => t.reevaluate h).descriptors = s.descriptors ∧
    (s.forHeads fun h t => t.reevaluate h).heads = s.heads ∧
    (s.forHeads fun h t => t.reevaluate h).scans = s.scans ∧
    (s.forHeads fun h t => t.reevaluate h).rovers = s.rovers ∧
    (s.forHeads fun h t => t.reevaluate h).encodeQueue = s.encodeQueue ∧
    (s.forHeads fun h t => t.reevaluate h).encoder = s.encoder ∧
    (s.forHeads fun h t => t.reevaluate h).budget.now = s.budget.now ∧
    (s.forHeads fun h t => t.reevaluate h).budget.tickAt = s.budget.tickAt ∧
    (s.forHeads fun h t => t.reevaluate h).budget.epochTicks = s.budget.epochTicks ∧
    (s.forHeads fun h t => t.reevaluate h).budget.recompute = s.budget.recompute ∧
    (s.forHeads fun h t => t.reevaluate h).budget.overrideActive = s.budget.overrideActive ∧
    (s.forHeads fun h t => t.reevaluate h).budget.hold = s.budget.hold ∧
    (s.forHeads fun h t => t.reevaluate h).link.state = s.link.state ∧
    (s.forHeads fun h t => t.reevaluate h).link.acquired = s.link.acquired ∧
    (s.forHeads fun h t => t.reevaluate h).link.arriving = s.link.arriving ∧
    (s.forHeads fun h t => t.reevaluate h).link.aligned = s.link.aligned ∧
    (s.forHeads fun h t => t.reevaluate h).link.aligningAt = s.link.aligningAt ∧
    (s.forHeads fun h t => t.reevaluate h).link.helloAt = s.link.helloAt ∧
    (s.forHeads fun h t => t.reevaluate h).link.staged = s.link.staged ∧
    (s.forHeads fun h t => t.reevaluate h).link.current = s.link.current ∧
    (s.forHeads fun h t => t.reevaluate h).link.applyRequest = s.link.applyRequest ∧
    (s.forHeads fun h t => t.reevaluate h).relay.queue = s.relay.queue ∧
    (s.forHeads fun h t => t.reevaluate h).relay.sending = s.relay.sending ∧
    (s.forHeads fun h t => t.reevaluate h).relay.ready = s.relay.ready ∧
    (s.forHeads fun h t => t.reevaluate h).relay.lost = s.relay.lost ∧
    (s.forHeads fun h t => t.reevaluate h).relay.heldModifiers = s.relay.heldModifiers ∧
    (s.forHeads fun h t => t.reevaluate h).relay.heldKeys = s.relay.heldKeys ∧
    (s.forHeads fun h t => t.reevaluate h).relay.position = s.relay.position ∧
    (s.forHeads fun h t => t.reevaluate h).relay.buttons = s.relay.buttons ∧
    (s.forHeads fun h t => t.reevaluate h).relay.lamps = s.relay.lamps ∧
    (s.forHeads fun h t => t.reevaluate h).relay.receiver = s.relay.receiver ∧
    (s.forHeads fun h t => t.reevaluate h).pending = s.pending :=
  by
  let π := fun t : State => (t.straps, t.memoryResetLine, t.channel, t.descriptors, t.heads, t.scans,
    t.rovers, t.encodeQueue, t.encoder, t.budget.now, t.budget.tickAt, t.budget.epochTicks,
    t.budget.recompute, t.budget.overrideActive, t.budget.hold, t.link.state, t.link.acquired, t.link.arriving,
    t.link.aligned, t.link.aligningAt, t.link.helloAt, t.link.staged, t.link.current,
    t.link.applyRequest, t.relay.queue, t.relay.sending, t.relay.ready, t.relay.lost,
    t.relay.heldModifiers, t.relay.heldKeys, t.relay.position, t.relay.buttons, t.relay.lamps,
    t.relay.receiver, t.pending)
  have hk : π (s.forHeads fun h t => t.reevaluate h) = π s := by
    unfold State.forHeads
    exact foldl_keeps π _ (fun t a => by simp only [π]; simp) allHeads s
  simp only [π, Prod.mk.injEq] at hk
  exact hk

/-- The sibling rule's marks (R53). -/
@[simp] theorem State.markSiblings_frame (l : List (Fin 16)) (c r : Nat) :
    (l.foldl (fun t id => t.markStale id c r) s).straps = s.straps ∧
    (l.foldl (fun t id => t.markStale id c r) s).memoryResetLine = s.memoryResetLine ∧
    (l.foldl (fun t id => t.markStale id c r) s).channel = s.channel ∧
    (l.foldl (fun t id => t.markStale id c r) s).descriptors = s.descriptors ∧
    (l.foldl (fun t id => t.markStale id c r) s).heads = s.heads ∧
    (l.foldl (fun t id => t.markStale id c r) s).scans = s.scans ∧
    (l.foldl (fun t id => t.markStale id c r) s).slots = s.slots ∧
    (l.foldl (fun t id => t.markStale id c r) s).rovers = s.rovers ∧
    (l.foldl (fun t id => t.markStale id c r) s).encodeQueue = s.encodeQueue ∧
    (l.foldl (fun t id => t.markStale id c r) s).encoder = s.encoder ∧
    (l.foldl (fun t id => t.markStale id c r) s).budget = s.budget ∧
    (l.foldl (fun t id => t.markStale id c r) s).link = s.link ∧
    (l.foldl (fun t id => t.markStale id c r) s).relay = s.relay ∧
    (l.foldl (fun t id => t.markStale id c r) s).counters = s.counters ∧
    (l.foldl (fun t id => t.markStale id c r) s).pending = s.pending :=
  by
  let π := fun t : State => (t.straps, t.memoryResetLine, t.channel, t.descriptors, t.heads, t.scans,
    t.slots, t.rovers, t.encodeQueue, t.encoder, t.budget, t.link, t.relay, t.counters, t.pending)
  have hk : π (l.foldl (fun t id => t.markStale id c r) s) = π s := by
    exact foldl_keeps π _ (fun t a => by simp only [π]; simp) l s
  simp only [π, Prod.mk.injEq] at hk
  exact hk

/-- The marking of REDUCED tiles (R61). -/
@[simp] theorem State.markReduced_frame (h : Fin 4) :
    (s.markReduced h).straps = s.straps ∧ (s.markReduced h).memoryResetLine = s.memoryResetLine ∧
    (s.markReduced h).channel = s.channel ∧ (s.markReduced h).descriptors = s.descriptors ∧
    (s.markReduced h).heads = s.heads ∧ (s.markReduced h).scans = s.scans ∧
    (s.markReduced h).slots = s.slots ∧ (s.markReduced h).rovers = s.rovers ∧
    (s.markReduced h).encodeQueue = s.encodeQueue ∧ (s.markReduced h).encoder = s.encoder ∧
    (s.markReduced h).budget = s.budget ∧ (s.markReduced h).link = s.link ∧
    (s.markReduced h).relay = s.relay ∧ (s.markReduced h).counters = s.counters ∧
    (s.markReduced h).pending = s.pending :=
  by
  let π := fun t : State => (t.straps, t.memoryResetLine, t.channel, t.descriptors, t.heads, t.scans,
    t.slots, t.rovers, t.encodeQueue, t.encoder, t.budget, t.link, t.relay, t.counters, t.pending)
  have hk : π (s.markReduced h) = π s := by
    unfold State.markReduced
    exact foldl_keeps π _ (fun t a => by simp only [π]; simp) (s.heads.look h).reducedTiles s
  simp only [π, Prod.mk.injEq] at hk
  exact hk

/-- The marking of REDUCED tiles of a list of heads (R61). -/
@[simp] theorem State.markReducedEach_frame (l : List (Fin 4)) :
    (l.foldl (fun t h => t.markReduced h) s).straps = s.straps ∧
    (l.foldl (fun t h => t.markReduced h) s).memoryResetLine = s.memoryResetLine ∧
    (l.foldl (fun t h => t.markReduced h) s).channel = s.channel ∧
    (l.foldl (fun t h => t.markReduced h) s).descriptors = s.descriptors ∧
    (l.foldl (fun t h => t.markReduced h) s).heads = s.heads ∧
    (l.foldl (fun t h => t.markReduced h) s).scans = s.scans ∧
    (l.foldl (fun t h => t.markReduced h) s).slots = s.slots ∧
    (l.foldl (fun t h => t.markReduced h) s).rovers = s.rovers ∧
    (l.foldl (fun t h => t.markReduced h) s).encodeQueue = s.encodeQueue ∧
    (l.foldl (fun t h => t.markReduced h) s).encoder = s.encoder ∧
    (l.foldl (fun t h => t.markReduced h) s).budget = s.budget ∧
    (l.foldl (fun t h => t.markReduced h) s).link = s.link ∧
    (l.foldl (fun t h => t.markReduced h) s).relay = s.relay ∧
    (l.foldl (fun t h => t.markReduced h) s).counters = s.counters ∧
    (l.foldl (fun t h => t.markReduced h) s).pending = s.pending :=
  by
  let π := fun t : State => (t.straps, t.memoryResetLine, t.channel, t.descriptors, t.heads, t.scans,
    t.slots, t.rovers, t.encodeQueue, t.encoder, t.budget, t.link, t.relay, t.counters, t.pending)
  have hk : π (l.foldl (fun t h => t.markReduced h) s) = π s := by
    exact foldl_keeps π _ (fun t a => by simp only [π]; simp) l s
  simp only [π, Prod.mk.injEq] at hk
  exact hk

/-- An apply (R119, R150). -/
@[simp] theorem State.applySettings_frame  :
    (s.applySettings).straps = s.straps ∧ (s.applySettings).memoryResetLine = s.memoryResetLine ∧
    (s.applySettings).channel = s.channel ∧ (s.applySettings).descriptors = s.descriptors ∧
    (s.applySettings).heads = s.heads ∧ (s.applySettings).scans = s.scans ∧
    (s.applySettings).slots = s.slots ∧ (s.applySettings).rovers = s.rovers ∧
    (s.applySettings).encodeQueue = s.encodeQueue ∧ (s.applySettings).encoder = s.encoder ∧
    (s.applySettings).budget = s.budget ∧ (s.applySettings).link.state = s.link.state ∧
    (s.applySettings).link.acquired = s.link.acquired ∧
    (s.applySettings).link.arriving = s.link.arriving ∧ (s.applySettings).link.aligned = s.link.aligned ∧
    (s.applySettings).link.aligningAt = s.link.aligningAt ∧
    (s.applySettings).link.helloAt = s.link.helloAt ∧ (s.applySettings).link.control = s.link.control ∧
    (s.applySettings).link.send = s.link.send ∧ (s.applySettings).link.wire = s.link.wire ∧
    (s.applySettings).link.lastServed = s.link.lastServed ∧ (s.applySettings).link.staged = s.link.staged ∧
    (s.applySettings).link.latches = s.link.latches ∧ (s.applySettings).relay = s.relay ∧
    (s.applySettings).counters = s.counters ∧ (s.applySettings).pending = s.pending :=
  by
  simp [State.applySettings]

/-- Steps 1 to 4 of a tick (R118). -/
@[simp] theorem State.tickBudget_frame  :
    (s.tickBudget).straps = s.straps ∧ (s.tickBudget).memoryResetLine = s.memoryResetLine ∧
    (s.tickBudget).channel = s.channel ∧ (s.tickBudget).descriptors = s.descriptors ∧
    (s.tickBudget).heads = s.heads ∧ (s.tickBudget).scans = s.scans ∧ (s.tickBudget).slots = s.slots ∧
    (s.tickBudget).rovers = s.rovers ∧ (s.tickBudget).encodeQueue = s.encodeQueue ∧
    (s.tickBudget).encoder = s.encoder ∧ (s.tickBudget).budget.now = s.budget.now ∧
    (s.tickBudget).budget.tickAt = s.budget.tickAt ∧
    (s.tickBudget).budget.overrideActive = s.budget.overrideActive ∧
    (s.tickBudget).budget.hold = s.budget.hold ∧ (s.tickBudget).link.state = s.link.state ∧
    (s.tickBudget).link.acquired = s.link.acquired ∧
    (s.tickBudget).link.arriving = s.link.arriving ∧ (s.tickBudget).link.aligned = s.link.aligned ∧
    (s.tickBudget).link.aligningAt = s.link.aligningAt ∧ (s.tickBudget).link.helloAt = s.link.helloAt ∧
    (s.tickBudget).link.control = s.link.control ∧ (s.tickBudget).link.send = s.link.send ∧
    (s.tickBudget).link.wire = s.link.wire ∧ (s.tickBudget).link.lastServed = s.link.lastServed ∧
    (s.tickBudget).link.staged = s.link.staged ∧ (s.tickBudget).link.latches = s.link.latches ∧
    (s.tickBudget).relay = s.relay ∧ (s.tickBudget).counters = s.counters ∧
    (s.tickBudget).pending = s.pending :=
  by
  simp only [State.tickBudget]
  (repeat' split) <;> simp

/-! ### The Tile Coder and the Capture Unit -/

/-- The encoder takes a record (R113). -/
@[simp] theorem State.startEncoder_frame  :
    (s.startEncoder).straps = s.straps ∧ (s.startEncoder).memoryResetLine = s.memoryResetLine ∧
    (s.startEncoder).channel = s.channel ∧ (s.startEncoder).descriptors = s.descriptors ∧
    (s.startEncoder).surfaces = s.surfaces ∧ (s.startEncoder).heads = s.heads ∧
    (s.startEncoder).scans = s.scans ∧ (s.startEncoder).rovers = s.rovers ∧
    (s.startEncoder).budget = s.budget ∧ (s.startEncoder).link = s.link ∧
    (s.startEncoder).relay = s.relay ∧ (s.startEncoder).counters = s.counters ∧
    (s.startEncoder).pending = s.pending :=
  by
  unfold State.startEncoder
  (repeat' split) <;> simp

/-- A record joins the encode queue (R112). -/
@[simp] theorem State.joinEncodeQueue_frame (i : Fin 64) :
    (s.joinEncodeQueue i).straps = s.straps ∧ (s.joinEncodeQueue i).memoryResetLine = s.memoryResetLine ∧
    (s.joinEncodeQueue i).channel = s.channel ∧ (s.joinEncodeQueue i).descriptors = s.descriptors ∧
    (s.joinEncodeQueue i).surfaces = s.surfaces ∧ (s.joinEncodeQueue i).heads = s.heads ∧
    (s.joinEncodeQueue i).scans = s.scans ∧ (s.joinEncodeQueue i).rovers = s.rovers ∧
    (s.joinEncodeQueue i).budget = s.budget ∧ (s.joinEncodeQueue i).link = s.link ∧
    (s.joinEncodeQueue i).relay = s.relay ∧ (s.joinEncodeQueue i).counters = s.counters ∧
    (s.joinEncodeQueue i).pending = s.pending :=
  by
  simp [State.joinEncodeQueue]

/-- The encode decision (R130, R131). -/
@[simp] theorem State.encodeDecision_frame (i : Fin 64) (r : Record) (f : CodedForms) :
    (s.encodeDecision i r f).straps = s.straps ∧
    (s.encodeDecision i r f).memoryResetLine = s.memoryResetLine ∧
    (s.encodeDecision i r f).channel = s.channel ∧ (s.encodeDecision i r f).descriptors = s.descriptors ∧
    (s.encodeDecision i r f).surfaces = s.surfaces ∧ (s.encodeDecision i r f).heads = s.heads ∧
    (s.encodeDecision i r f).scans = s.scans ∧ (s.encodeDecision i r f).rovers = s.rovers ∧
    (s.encodeDecision i r f).encodeQueue = s.encodeQueue ∧ (s.encodeDecision i r f).encoder = s.encoder ∧
    (s.encodeDecision i r f).budget.now = s.budget.now ∧
    (s.encodeDecision i r f).budget.tickAt = s.budget.tickAt ∧
    (s.encodeDecision i r f).budget.epochTicks = s.budget.epochTicks ∧
    (s.encodeDecision i r f).budget.recompute = s.budget.recompute ∧
    (s.encodeDecision i r f).budget.overrideActive = s.budget.overrideActive ∧
    (s.encodeDecision i r f).budget.hold = s.budget.hold ∧
    (s.encodeDecision i r f).link.state = s.link.state ∧
    (s.encodeDecision i r f).link.acquired = s.link.acquired ∧
    (s.encodeDecision i r f).link.arriving = s.link.arriving ∧
    (s.encodeDecision i r f).link.aligned = s.link.aligned ∧
    (s.encodeDecision i r f).link.aligningAt = s.link.aligningAt ∧
    (s.encodeDecision i r f).link.helloAt = s.link.helloAt ∧
    (s.encodeDecision i r f).link.staged = s.link.staged ∧
    (s.encodeDecision i r f).link.current = s.link.current ∧
    (s.encodeDecision i r f).link.applyRequest = s.link.applyRequest ∧
    (s.encodeDecision i r f).link.latches = s.link.latches ∧
    (s.encodeDecision i r f).link.statusPending = s.link.statusPending ∧
    (s.encodeDecision i r f).relay.queue = s.relay.queue ∧
    (s.encodeDecision i r f).relay.sending = s.relay.sending ∧
    (s.encodeDecision i r f).relay.ready = s.relay.ready ∧
    (s.encodeDecision i r f).relay.lost = s.relay.lost ∧
    (s.encodeDecision i r f).relay.heldModifiers = s.relay.heldModifiers ∧
    (s.encodeDecision i r f).relay.heldKeys = s.relay.heldKeys ∧
    (s.encodeDecision i r f).relay.position = s.relay.position ∧
    (s.encodeDecision i r f).relay.buttons = s.relay.buttons ∧
    (s.encodeDecision i r f).relay.lamps = s.relay.lamps ∧
    (s.encodeDecision i r f).relay.receiver = s.relay.receiver ∧
    (s.encodeDecision i r f).counters = s.counters ∧ (s.encodeDecision i r f).pending = s.pending :=
  by
  simp only [State.encodeDecision]
  (repeat' split) <;> simp

/-- Steps 1 to 3 of an encode completion (R114). -/
@[simp] theorem State.finishEncoding_frame (i : Fin 64) :
    (s.finishEncoding i).straps = s.straps ∧ (s.finishEncoding i).memoryResetLine = s.memoryResetLine ∧
    (s.finishEncoding i).channel = s.channel ∧ (s.finishEncoding i).descriptors = s.descriptors ∧
    (s.finishEncoding i).heads = s.heads ∧ (s.finishEncoding i).scans = s.scans ∧
    (s.finishEncoding i).rovers = s.rovers ∧ (s.finishEncoding i).encodeQueue = s.encodeQueue ∧
    (s.finishEncoding i).encoder = s.encoder ∧ (s.finishEncoding i).budget.now = s.budget.now ∧
    (s.finishEncoding i).budget.tickAt = s.budget.tickAt ∧
    (s.finishEncoding i).budget.epochTicks = s.budget.epochTicks ∧
    (s.finishEncoding i).budget.recompute = s.budget.recompute ∧
    (s.finishEncoding i).budget.overrideActive = s.budget.overrideActive ∧
    (s.finishEncoding i).budget.hold = s.budget.hold ∧ (s.finishEncoding i).link.state = s.link.state ∧
    (s.finishEncoding i).link.acquired = s.link.acquired ∧
    (s.finishEncoding i).link.arriving = s.link.arriving ∧
    (s.finishEncoding i).link.aligned = s.link.aligned ∧
    (s.finishEncoding i).link.aligningAt = s.link.aligningAt ∧
    (s.finishEncoding i).link.helloAt = s.link.helloAt ∧ (s.finishEncoding i).link.staged = s.link.staged ∧
    (s.finishEncoding i).link.current = s.link.current ∧
    (s.finishEncoding i).link.applyRequest = s.link.applyRequest ∧
    (s.finishEncoding i).link.latches = s.link.latches ∧
    (s.finishEncoding i).link.statusPending = s.link.statusPending ∧
    (s.finishEncoding i).relay.queue = s.relay.queue ∧
    (s.finishEncoding i).relay.sending = s.relay.sending ∧
    (s.finishEncoding i).relay.ready = s.relay.ready ∧ (s.finishEncoding i).relay.lost = s.relay.lost ∧
    (s.finishEncoding i).relay.heldModifiers = s.relay.heldModifiers ∧
    (s.finishEncoding i).relay.heldKeys = s.relay.heldKeys ∧
    (s.finishEncoding i).relay.position = s.relay.position ∧
    (s.finishEncoding i).relay.buttons = s.relay.buttons ∧
    (s.finishEncoding i).relay.lamps = s.relay.lamps ∧
    (s.finishEncoding i).relay.receiver = s.relay.receiver ∧ (s.finishEncoding i).counters = s.counters ∧
    (s.finishEncoding i).pending = s.pending :=
  by
  simp only [State.finishEncoding]
  (repeat' split) <;> simp

/-- A tear (R96). -/
@[simp] theorem State.tear_frame (id : Fin 16) (c r : Nat) :
    (s.tear id c r).straps = s.straps ∧ (s.tear id c r).memoryResetLine = s.memoryResetLine ∧
    (s.tear id c r).channel = s.channel ∧ (s.tear id c r).descriptors = s.descriptors ∧
    (s.tear id c r).surfaces = s.surfaces ∧ (s.tear id c r).heads = s.heads ∧
    (s.tear id c r).scans = s.scans ∧ (s.tear id c r).rovers = s.rovers ∧
    (s.tear id c r).encodeQueue = s.encodeQueue ∧ (s.tear id c r).encoder = s.encoder ∧
    (s.tear id c r).budget = s.budget ∧ (s.tear id c r).link = s.link ∧ (s.tear id c r).relay = s.relay ∧
    (s.tear id c r).pending = s.pending :=
  by
  unfold State.tear
  (repeat' split) <;> simp

/-- A surface write (R47). -/
@[simp] theorem State.surfaceWrite_frame (id : Fin 16) (c r : Nat) :
    (s.surfaceWrite id c r).straps = s.straps ∧
    (s.surfaceWrite id c r).memoryResetLine = s.memoryResetLine ∧
    (s.surfaceWrite id c r).channel = s.channel ∧ (s.surfaceWrite id c r).descriptors = s.descriptors ∧
    (s.surfaceWrite id c r).heads = s.heads ∧ (s.surfaceWrite id c r).scans = s.scans ∧
    (s.surfaceWrite id c r).rovers = s.rovers ∧ (s.surfaceWrite id c r).encodeQueue = s.encodeQueue ∧
    (s.surfaceWrite id c r).encoder = s.encoder ∧ (s.surfaceWrite id c r).budget = s.budget ∧
    (s.surfaceWrite id c r).link = s.link ∧ (s.surfaceWrite id c r).relay = s.relay ∧
    (s.surfaceWrite id c r).pending = s.pending :=
  by
  simp [State.surfaceWrite]

/-- A scan read used for filling (R94, R95). -/
@[simp] theorem State.fillRead_frame (id : Fin 16) (l x : Nat) (d : List Byte) :
    (s.fillRead id l x d).straps = s.straps ∧ (s.fillRead id l x d).memoryResetLine = s.memoryResetLine ∧
    (s.fillRead id l x d).channel = s.channel ∧ (s.fillRead id l x d).descriptors = s.descriptors ∧
    (s.fillRead id l x d).surfaces = s.surfaces ∧ (s.fillRead id l x d).heads = s.heads ∧
    (s.fillRead id l x d).scans = s.scans ∧ (s.fillRead id l x d).rovers = s.rovers ∧
    (s.fillRead id l x d).budget = s.budget ∧ (s.fillRead id l x d).link = s.link ∧
    (s.fillRead id l x d).relay = s.relay ∧ (s.fillRead id l x d).pending = s.pending :=
  by
  simp only [State.fillRead]
  (repeat' split) <;> simp

/-- One allocation (R91). -/
@[simp] theorem State.allocate_frame (b : BandStart) (i : Fin 64) (c : Candidate) :
    (s.allocate b i c).straps = s.straps ∧ (s.allocate b i c).memoryResetLine = s.memoryResetLine ∧
    (s.allocate b i c).channel = s.channel ∧ (s.allocate b i c).descriptors = s.descriptors ∧
    (s.allocate b i c).heads = s.heads ∧ (s.allocate b i c).scans = s.scans ∧
    (s.allocate b i c).rovers = s.rovers ∧ (s.allocate b i c).encodeQueue = s.encodeQueue ∧
    (s.allocate b i c).encoder = s.encoder ∧ (s.allocate b i c).budget = s.budget ∧
    (s.allocate b i c).link = s.link ∧ (s.allocate b i c).relay = s.relay ∧
    (s.allocate b i c).counters = s.counters ∧ (s.allocate b i c).pending = s.pending :=
  by
  simp [State.allocate]

/-- The allocations of a band start (R91). -/
@[simp] theorem State.serveFold_frame (b : BandStart) (l : List (Fin 64 × Candidate)) :
    (l.foldl (fun t a => t.allocate b a.1 a.2) s).straps = s.straps ∧
    (l.foldl (fun t a => t.allocate b a.1 a.2) s).memoryResetLine = s.memoryResetLine ∧
    (l.foldl (fun t a => t.allocate b a.1 a.2) s).channel = s.channel ∧
    (l.foldl (fun t a => t.allocate b a.1 a.2) s).descriptors = s.descriptors ∧
    (l.foldl (fun t a => t.allocate b a.1 a.2) s).heads = s.heads ∧
    (l.foldl (fun t a => t.allocate b a.1 a.2) s).scans = s.scans ∧
    (l.foldl (fun t a => t.allocate b a.1 a.2) s).rovers = s.rovers ∧
    (l.foldl (fun t a => t.allocate b a.1 a.2) s).encodeQueue = s.encodeQueue ∧
    (l.foldl (fun t a => t.allocate b a.1 a.2) s).encoder = s.encoder ∧
    (l.foldl (fun t a => t.allocate b a.1 a.2) s).budget = s.budget ∧
    (l.foldl (fun t a => t.allocate b a.1 a.2) s).link = s.link ∧
    (l.foldl (fun t a => t.allocate b a.1 a.2) s).relay = s.relay ∧
    (l.foldl (fun t a => t.allocate b a.1 a.2) s).counters = s.counters ∧
    (l.foldl (fun t a => t.allocate b a.1 a.2) s).pending = s.pending :=
  by
  let π := fun t : State => (t.straps, t.memoryResetLine, t.channel, t.descriptors, t.heads, t.scans,
    t.rovers, t.encodeQueue, t.encoder, t.budget, t.link, t.relay, t.counters, t.pending)
  have hk : π (l.foldl (fun t a => t.allocate b a.1 a.2) s) = π s := by
    exact foldl_keeps π _ (fun t a => by simp only [π]; simp) l s
  simp only [π, Prod.mk.injEq] at hk
  exact hk

/-- The allocation of a band start (R91). -/
@[simp] theorem State.serveBand_frame (b : BandStart) :
    (s.serveBand b).straps = s.straps ∧ (s.serveBand b).memoryResetLine = s.memoryResetLine ∧
    (s.serveBand b).channel = s.channel ∧ (s.serveBand b).descriptors = s.descriptors ∧
    (s.serveBand b).heads = s.heads ∧ (s.serveBand b).scans = s.scans ∧
    (s.serveBand b).encodeQueue = s.encodeQueue ∧ (s.serveBand b).encoder = s.encoder ∧
    (s.serveBand b).budget = s.budget ∧ (s.serveBand b).link = s.link ∧ (s.serveBand b).relay = s.relay ∧
    (s.serveBand b).counters = s.counters ∧ (s.serveBand b).pending = s.pending :=
  by
  simp [State.serveBand]

/-- A band start (R88). -/
@[simp] theorem State.bandStart_frame (h : Fin 4) (n : Nat) :
    (s.bandStart h n).straps = s.straps ∧ (s.bandStart h n).memoryResetLine = s.memoryResetLine ∧
    (s.bandStart h n).channel = s.channel ∧ (s.bandStart h n).descriptors = s.descriptors ∧
    (s.bandStart h n).heads = s.heads ∧ (s.bandStart h n).scans = s.scans ∧
    (s.bandStart h n).encodeQueue = s.encodeQueue ∧ (s.bandStart h n).encoder = s.encoder ∧
    (s.bandStart h n).budget = s.budget ∧ (s.bandStart h n).link = s.link ∧
    (s.bandStart h n).relay = s.relay ∧ (s.bandStart h n).counters = s.counters ∧
    (s.bandStart h n).pending = s.pending :=
  by
  unfold State.bandStart
  (repeat' split) <;> simp

/-- A band end (R97). -/
@[simp] theorem State.bandEnd_frame (h : Fin 4) (n : Nat) :
    (s.bandEnd h n).straps = s.straps ∧ (s.bandEnd h n).memoryResetLine = s.memoryResetLine ∧
    (s.bandEnd h n).channel = s.channel ∧ (s.bandEnd h n).descriptors = s.descriptors ∧
    (s.bandEnd h n).heads = s.heads ∧ (s.bandEnd h n).scans = s.scans ∧ (s.bandEnd h n).rovers = s.rovers ∧
    (s.bandEnd h n).encodeQueue = s.encodeQueue ∧ (s.bandEnd h n).encoder = s.encoder ∧
    (s.bandEnd h n).budget = s.budget ∧ (s.bandEnd h n).link = s.link ∧ (s.bandEnd h n).relay = s.relay ∧
    (s.bandEnd h n).pending = s.pending :=
  by
  simp [State.bandEnd]

/-! ### The Scan Follower -/

/-- Step 3 of a frame start (R73). -/
@[simp] theorem State.frameStartHead_frame (h : Fin 4) (id : Fin 16) :
    (s.frameStartHead h id).straps = s.straps ∧
    (s.frameStartHead h id).memoryResetLine = s.memoryResetLine ∧
    (s.frameStartHead h id).channel = s.channel ∧ (s.frameStartHead h id).descriptors = s.descriptors ∧
    (s.frameStartHead h id).scans = s.scans ∧ (s.frameStartHead h id).rovers = s.rovers ∧
    (s.frameStartHead h id).encoder = s.encoder ∧ (s.frameStartHead h id).budget.now = s.budget.now ∧
    (s.frameStartHead h id).budget.tickAt = s.budget.tickAt ∧
    (s.frameStartHead h id).budget.epochTicks = s.budget.epochTicks ∧
    (s.frameStartHead h id).budget.recompute = s.budget.recompute ∧
    (s.frameStartHead h id).budget.overrideActive = s.budget.overrideActive ∧
    (s.frameStartHead h id).budget.hold = s.budget.hold ∧
    (s.frameStartHead h id).link.state = s.link.state ∧
    (s.frameStartHead h id).link.acquired = s.link.acquired ∧
    (s.frameStartHead h id).link.arriving = s.link.arriving ∧
    (s.frameStartHead h id).link.aligned = s.link.aligned ∧
    (s.frameStartHead h id).link.aligningAt = s.link.aligningAt ∧
    (s.frameStartHead h id).link.helloAt = s.link.helloAt ∧
    (s.frameStartHead h id).link.control = s.link.control ∧
    (s.frameStartHead h id).link.wire = s.link.wire ∧
    (s.frameStartHead h id).link.lastServed = s.link.lastServed ∧
    (s.frameStartHead h id).link.staged = s.link.staged ∧
    (s.frameStartHead h id).link.current = s.link.current ∧
    (s.frameStartHead h id).link.applyRequest = s.link.applyRequest ∧
    (s.frameStartHead h id).link.latches = s.link.latches ∧
    (s.frameStartHead h id).link.statusPending = s.link.statusPending ∧
    (s.frameStartHead h id).relay = s.relay ∧ (s.frameStartHead h id).pending = s.pending :=
  by
  simp only [State.frameStartHead]
  (repeat' split) <;> simp

/-- A frame start (R72). -/
@[simp] theorem State.frameStart_frame (h : Fin 4) (id : Fin 16) (x : Nat) (d : List Byte) :
    (s.frameStart h id x d).straps = s.straps ∧
    (s.frameStart h id x d).memoryResetLine = s.memoryResetLine ∧
    (s.frameStart h id x d).channel = s.channel ∧ (s.frameStart h id x d).descriptors = s.descriptors ∧
    (s.frameStart h id x d).budget.now = s.budget.now ∧
    (s.frameStart h id x d).budget.tickAt = s.budget.tickAt ∧
    (s.frameStart h id x d).budget.epochTicks = s.budget.epochTicks ∧
    (s.frameStart h id x d).budget.recompute = s.budget.recompute ∧
    (s.frameStart h id x d).budget.overrideActive = s.budget.overrideActive ∧
    (s.frameStart h id x d).budget.hold = s.budget.hold ∧
    (s.frameStart h id x d).link.state = s.link.state ∧
    (s.frameStart h id x d).link.acquired = s.link.acquired ∧
    (s.frameStart h id x d).link.arriving = s.link.arriving ∧
    (s.frameStart h id x d).link.aligned = s.link.aligned ∧
    (s.frameStart h id x d).link.aligningAt = s.link.aligningAt ∧
    (s.frameStart h id x d).link.helloAt = s.link.helloAt ∧
    (s.frameStart h id x d).link.wire = s.link.wire ∧
    (s.frameStart h id x d).link.lastServed = s.link.lastServed ∧
    (s.frameStart h id x d).link.staged = s.link.staged ∧
    (s.frameStart h id x d).link.current = s.link.current ∧
    (s.frameStart h id x d).link.applyRequest = s.link.applyRequest ∧
    (s.frameStart h id x d).link.latches = s.link.latches ∧
    (s.frameStart h id x d).link.statusPending = s.link.statusPending ∧
    (s.frameStart h id x d).relay = s.relay ∧ (s.frameStart h id x d).pending = s.pending :=
  by
  simp only [State.frameStart]
  (repeat' split) <;> simp

/-- A scan read (R75, R76). -/
@[simp] theorem State.scanRead_frame (h : Fin 4) (id : Fin 16) (l x : Nat) (d : List Byte) :
    (s.scanRead h id l x d).straps = s.straps ∧
    (s.scanRead h id l x d).memoryResetLine = s.memoryResetLine ∧
    (s.scanRead h id l x d).channel = s.channel ∧ (s.scanRead h id l x d).descriptors = s.descriptors ∧
    (s.scanRead h id l x d).heads = s.heads ∧ (s.scanRead h id l x d).budget = s.budget ∧
    (s.scanRead h id l x d).link = s.link ∧ (s.scanRead h id l x d).relay = s.relay ∧
    (s.scanRead h id l x d).pending = s.pending :=
  by
  simp only [State.scanRead]
  (repeat' split) <;> simp

/-- An observed read (R70). -/
@[simp] theorem State.takeRead_frame (g : Nat) (d : List Byte) :
    (s.takeRead g d).straps = s.straps ∧ (s.takeRead g d).memoryResetLine = s.memoryResetLine ∧
    (s.takeRead g d).channel = s.channel ∧ (s.takeRead g d).descriptors = s.descriptors ∧
    (s.takeRead g d).budget.now = s.budget.now ∧ (s.takeRead g d).budget.tickAt = s.budget.tickAt ∧
    (s.takeRead g d).budget.epochTicks = s.budget.epochTicks ∧
    (s.takeRead g d).budget.recompute = s.budget.recompute ∧
    (s.takeRead g d).budget.overrideActive = s.budget.overrideActive ∧
    (s.takeRead g d).budget.hold = s.budget.hold ∧ (s.takeRead g d).link.state = s.link.state ∧
    (s.takeRead g d).link.acquired = s.link.acquired ∧
    (s.takeRead g d).link.arriving = s.link.arriving ∧ (s.takeRead g d).link.aligned = s.link.aligned ∧
    (s.takeRead g d).link.aligningAt = s.link.aligningAt ∧ (s.takeRead g d).link.helloAt = s.link.helloAt ∧
    (s.takeRead g d).link.staged = s.link.staged ∧ (s.takeRead g d).link.current = s.link.current ∧
    (s.takeRead g d).link.applyRequest = s.link.applyRequest ∧
    (s.takeRead g d).link.latches = s.link.latches ∧
    (s.takeRead g d).link.statusPending = s.link.statusPending ∧
    (s.takeRead g d).relay.queue = s.relay.queue ∧ (s.takeRead g d).relay.sending = s.relay.sending ∧
    (s.takeRead g d).relay.ready = s.relay.ready ∧ (s.takeRead g d).relay.lost = s.relay.lost ∧
    (s.takeRead g d).relay.heldModifiers = s.relay.heldModifiers ∧
    (s.takeRead g d).relay.heldKeys = s.relay.heldKeys ∧
    (s.takeRead g d).relay.position = s.relay.position ∧ (s.takeRead g d).relay.buttons = s.relay.buttons ∧
    (s.takeRead g d).relay.lamps = s.relay.lamps ∧ (s.takeRead g d).relay.receiver = s.relay.receiver ∧
    (s.takeRead g d).pending = s.pending :=
  by
  simp only [State.takeRead]
  (repeat' split) <;> simp

/-! ### The Input Relay and the Desk Link -/

/-- A keyboard report is offered (R160). -/
@[simp] theorem State.offerKeyboard_frame (m : Byte) (k : List Byte) :
    (s.offerKeyboard m k).straps = s.straps ∧ (s.offerKeyboard m k).memoryResetLine = s.memoryResetLine ∧
    (s.offerKeyboard m k).channel = s.channel ∧ (s.offerKeyboard m k).descriptors = s.descriptors ∧
    (s.offerKeyboard m k).surfaces = s.surfaces ∧ (s.offerKeyboard m k).heads = s.heads ∧
    (s.offerKeyboard m k).scans = s.scans ∧ (s.offerKeyboard m k).slots = s.slots ∧
    (s.offerKeyboard m k).rovers = s.rovers ∧ (s.offerKeyboard m k).encodeQueue = s.encodeQueue ∧
    (s.offerKeyboard m k).encoder = s.encoder ∧ (s.offerKeyboard m k).budget = s.budget ∧
    (s.offerKeyboard m k).link.state = s.link.state ∧
    (s.offerKeyboard m k).link.acquired = s.link.acquired ∧
    (s.offerKeyboard m k).link.arriving = s.link.arriving ∧
    (s.offerKeyboard m k).link.aligned = s.link.aligned ∧
    (s.offerKeyboard m k).link.aligningAt = s.link.aligningAt ∧
    (s.offerKeyboard m k).link.helloAt = s.link.helloAt ∧
    (s.offerKeyboard m k).link.control = s.link.control ∧ (s.offerKeyboard m k).link.send = s.link.send ∧
    (s.offerKeyboard m k).link.wire = s.link.wire ∧
    (s.offerKeyboard m k).link.lastServed = s.link.lastServed ∧
    (s.offerKeyboard m k).link.staged = s.link.staged ∧
    (s.offerKeyboard m k).link.current = s.link.current ∧
    (s.offerKeyboard m k).link.applyRequest = s.link.applyRequest ∧
    (s.offerKeyboard m k).pending = s.pending :=
  by
  simp only [State.offerKeyboard]
  (repeat' split) <;> simp

/-- A pointer report is offered (R159). -/
@[simp] theorem State.offerPointer_frame (x y : BitVec 15) (b : BitVec 5) (w : Int) :
    (s.offerPointer x y b w).straps = s.straps ∧
    (s.offerPointer x y b w).memoryResetLine = s.memoryResetLine ∧
    (s.offerPointer x y b w).channel = s.channel ∧ (s.offerPointer x y b w).descriptors = s.descriptors ∧
    (s.offerPointer x y b w).surfaces = s.surfaces ∧ (s.offerPointer x y b w).heads = s.heads ∧
    (s.offerPointer x y b w).scans = s.scans ∧ (s.offerPointer x y b w).slots = s.slots ∧
    (s.offerPointer x y b w).rovers = s.rovers ∧ (s.offerPointer x y b w).encodeQueue = s.encodeQueue ∧
    (s.offerPointer x y b w).encoder = s.encoder ∧ (s.offerPointer x y b w).budget = s.budget ∧
    (s.offerPointer x y b w).link.state = s.link.state ∧
    (s.offerPointer x y b w).link.acquired = s.link.acquired ∧
    (s.offerPointer x y b w).link.arriving = s.link.arriving ∧
    (s.offerPointer x y b w).link.aligned = s.link.aligned ∧
    (s.offerPointer x y b w).link.aligningAt = s.link.aligningAt ∧
    (s.offerPointer x y b w).link.helloAt = s.link.helloAt ∧
    (s.offerPointer x y b w).link.control = s.link.control ∧
    (s.offerPointer x y b w).link.send = s.link.send ∧ (s.offerPointer x y b w).link.wire = s.link.wire ∧
    (s.offerPointer x y b w).link.lastServed = s.link.lastServed ∧
    (s.offerPointer x y b w).link.staged = s.link.staged ∧
    (s.offerPointer x y b w).link.current = s.link.current ∧
    (s.offerPointer x y b w).link.applyRequest = s.link.applyRequest ∧
    (s.offerPointer x y b w).pending = s.pending :=
  by
  simp only [State.offerPointer, State.pointerSteps]
  (repeat' split) <;> simp

/-- A pointer release is offered (R162). -/
@[simp] theorem State.offerPointerRelease_frame (x y : BitVec 15) :
    (s.offerPointerRelease x y).straps = s.straps ∧
    (s.offerPointerRelease x y).memoryResetLine = s.memoryResetLine ∧
    (s.offerPointerRelease x y).channel = s.channel ∧
    (s.offerPointerRelease x y).descriptors = s.descriptors ∧
    (s.offerPointerRelease x y).surfaces = s.surfaces ∧ (s.offerPointerRelease x y).heads = s.heads ∧
    (s.offerPointerRelease x y).scans = s.scans ∧ (s.offerPointerRelease x y).slots = s.slots ∧
    (s.offerPointerRelease x y).rovers = s.rovers ∧
    (s.offerPointerRelease x y).encodeQueue = s.encodeQueue ∧
    (s.offerPointerRelease x y).encoder = s.encoder ∧ (s.offerPointerRelease x y).budget = s.budget ∧
    (s.offerPointerRelease x y).link.state = s.link.state ∧
    (s.offerPointerRelease x y).link.acquired = s.link.acquired ∧
    (s.offerPointerRelease x y).link.arriving = s.link.arriving ∧
    (s.offerPointerRelease x y).link.aligned = s.link.aligned ∧
    (s.offerPointerRelease x y).link.aligningAt = s.link.aligningAt ∧
    (s.offerPointerRelease x y).link.helloAt = s.link.helloAt ∧
    (s.offerPointerRelease x y).link.control = s.link.control ∧
    (s.offerPointerRelease x y).link.send = s.link.send ∧
    (s.offerPointerRelease x y).link.wire = s.link.wire ∧
    (s.offerPointerRelease x y).link.lastServed = s.link.lastServed ∧
    (s.offerPointerRelease x y).link.staged = s.link.staged ∧
    (s.offerPointerRelease x y).link.current = s.link.current ∧
    (s.offerPointerRelease x y).link.applyRequest = s.link.applyRequest ∧
    (s.offerPointerRelease x y).pending = s.pending :=
  by
  simp only [State.offerPointerRelease, State.pointerSteps]
  (repeat' split) <;> simp

/-- A notice is offered (R163). -/
@[simp] theorem State.offerNotice_frame (n : Notice) :
    (s.offerNotice n).straps = s.straps ∧ (s.offerNotice n).memoryResetLine = s.memoryResetLine ∧
    (s.offerNotice n).channel = s.channel ∧ (s.offerNotice n).descriptors = s.descriptors ∧
    (s.offerNotice n).surfaces = s.surfaces ∧ (s.offerNotice n).heads = s.heads ∧
    (s.offerNotice n).scans = s.scans ∧ (s.offerNotice n).slots = s.slots ∧
    (s.offerNotice n).rovers = s.rovers ∧ (s.offerNotice n).encodeQueue = s.encodeQueue ∧
    (s.offerNotice n).encoder = s.encoder ∧ (s.offerNotice n).budget = s.budget ∧
    (s.offerNotice n).link = s.link ∧ (s.offerNotice n).counters = s.counters ∧
    (s.offerNotice n).pending = s.pending :=
  by
  simp [State.offerNotice]

/-- The releases at link loss (R162). -/
@[simp] theorem State.releaseHeld_frame  :
    (s.releaseHeld).straps = s.straps ∧ (s.releaseHeld).memoryResetLine = s.memoryResetLine ∧
    (s.releaseHeld).channel = s.channel ∧ (s.releaseHeld).descriptors = s.descriptors ∧
    (s.releaseHeld).surfaces = s.surfaces ∧ (s.releaseHeld).heads = s.heads ∧
    (s.releaseHeld).scans = s.scans ∧ (s.releaseHeld).slots = s.slots ∧ (s.releaseHeld).rovers = s.rovers ∧
    (s.releaseHeld).encodeQueue = s.encodeQueue ∧ (s.releaseHeld).encoder = s.encoder ∧
    (s.releaseHeld).budget = s.budget ∧ (s.releaseHeld).link.state = s.link.state ∧
    (s.releaseHeld).link.acquired = s.link.acquired ∧
    (s.releaseHeld).link.arriving = s.link.arriving ∧ (s.releaseHeld).link.aligned = s.link.aligned ∧
    (s.releaseHeld).link.aligningAt = s.link.aligningAt ∧ (s.releaseHeld).link.helloAt = s.link.helloAt ∧
    (s.releaseHeld).link.control = s.link.control ∧ (s.releaseHeld).link.send = s.link.send ∧
    (s.releaseHeld).link.wire = s.link.wire ∧ (s.releaseHeld).link.lastServed = s.link.lastServed ∧
    (s.releaseHeld).link.staged = s.link.staged ∧ (s.releaseHeld).link.current = s.link.current ∧
    (s.releaseHeld).link.applyRequest = s.link.applyRequest ∧ (s.releaseHeld).pending = s.pending :=
  by
  simp only [State.releaseHeld]
  (repeat' split) <;> simp

/-- Link UP marking (R60). -/
@[simp] theorem State.linkUpMarking_frame  :
    (s.linkUpMarking).straps = s.straps ∧ (s.linkUpMarking).memoryResetLine = s.memoryResetLine ∧
    (s.linkUpMarking).channel = s.channel ∧ (s.linkUpMarking).descriptors = s.descriptors ∧
    (s.linkUpMarking).scans = s.scans ∧ (s.linkUpMarking).slots = s.slots ∧
    (s.linkUpMarking).rovers = s.rovers ∧ (s.linkUpMarking).encodeQueue = s.encodeQueue ∧
    (s.linkUpMarking).encoder = s.encoder ∧ (s.linkUpMarking).budget = s.budget ∧
    (s.linkUpMarking).link = s.link ∧ (s.linkUpMarking).relay = s.relay ∧
    (s.linkUpMarking).counters = s.counters ∧ (s.linkUpMarking).pending = s.pending :=
  by
  let π := fun t : State => (t.straps, t.memoryResetLine, t.channel, t.descriptors, t.scans, t.slots,
    t.rovers, t.encodeQueue, t.encoder, t.budget, t.link, t.relay, t.counters, t.pending)
  have hk : π (s.linkUpMarking) = π s := by
    unfold State.linkUpMarking State.forHeads
    exact foldl_keeps π _ (fun t a => by simp only [π]; (repeat' split) <;> simp) allHeads s
  simp only [π, Prod.mk.injEq] at hk
  exact hk

/-- A discarded upstream frame (R147, R149). -/
@[simp] theorem State.discardUpstream_frame  :
    (s.discardUpstream).straps = s.straps ∧ (s.discardUpstream).memoryResetLine = s.memoryResetLine ∧
    (s.discardUpstream).channel = s.channel ∧ (s.discardUpstream).descriptors = s.descriptors ∧
    (s.discardUpstream).surfaces = s.surfaces ∧ (s.discardUpstream).heads = s.heads ∧
    (s.discardUpstream).scans = s.scans ∧ (s.discardUpstream).slots = s.slots ∧
    (s.discardUpstream).rovers = s.rovers ∧ (s.discardUpstream).encodeQueue = s.encodeQueue ∧
    (s.discardUpstream).encoder = s.encoder ∧ (s.discardUpstream).budget = s.budget ∧
    (s.discardUpstream).link.state = s.link.state ∧ (s.discardUpstream).link.acquired = s.link.acquired ∧
    (s.discardUpstream).link.arriving = s.link.arriving ∧
    (s.discardUpstream).link.aligned = s.link.aligned ∧
    (s.discardUpstream).link.aligningAt = s.link.aligningAt ∧
    (s.discardUpstream).link.helloAt = s.link.helloAt ∧ (s.discardUpstream).link.control = s.link.control ∧
    (s.discardUpstream).link.send = s.link.send ∧ (s.discardUpstream).link.wire = s.link.wire ∧
    (s.discardUpstream).link.lastServed = s.link.lastServed ∧
    (s.discardUpstream).link.staged = s.link.staged ∧ (s.discardUpstream).link.current = s.link.current ∧
    (s.discardUpstream).link.applyRequest = s.link.applyRequest ∧ (s.discardUpstream).relay = s.relay ∧
    (s.discardUpstream).pending = s.pending :=
  by
  simp [State.discardUpstream]

/-- Send completion (R53, R54). -/
@[simp] theorem State.sendCompletion_frame (i : Fin 64) (r : Record) (c : Code) :
    (s.sendCompletion i r c).straps = s.straps ∧
    (s.sendCompletion i r c).memoryResetLine = s.memoryResetLine ∧
    (s.sendCompletion i r c).channel = s.channel ∧ (s.sendCompletion i r c).descriptors = s.descriptors ∧
    (s.sendCompletion i r c).scans = s.scans ∧ (s.sendCompletion i r c).rovers = s.rovers ∧
    (s.sendCompletion i r c).encodeQueue = s.encodeQueue ∧ (s.sendCompletion i r c).encoder = s.encoder ∧
    (s.sendCompletion i r c).budget = s.budget ∧ (s.sendCompletion i r c).link = s.link ∧
    (s.sendCompletion i r c).relay = s.relay ∧ (s.sendCompletion i r c).counters = s.counters ∧
    (s.sendCompletion i r c).pending = s.pending :=
  by
  simp only [State.sendCompletion]
  (repeat' split) <;> simp

/-- The counters of a tile frame (R146). -/
@[simp] theorem State.countTile_frame (d : Decision) :
    (s.countTile d).straps = s.straps ∧ (s.countTile d).memoryResetLine = s.memoryResetLine ∧
    (s.countTile d).channel = s.channel ∧ (s.countTile d).descriptors = s.descriptors ∧
    (s.countTile d).surfaces = s.surfaces ∧ (s.countTile d).heads = s.heads ∧
    (s.countTile d).scans = s.scans ∧ (s.countTile d).slots = s.slots ∧ (s.countTile d).rovers = s.rovers ∧
    (s.countTile d).encodeQueue = s.encodeQueue ∧ (s.countTile d).encoder = s.encoder ∧
    (s.countTile d).budget = s.budget ∧ (s.countTile d).link = s.link ∧ (s.countTile d).relay = s.relay ∧
    (s.countTile d).pending = s.pending :=
  by
  simp [State.countTile]

/-- The end of the frame on the wire (R146). -/
@[simp] theorem State.endFrame_frame  :
    (s.endFrame).straps = s.straps ∧ (s.endFrame).memoryResetLine = s.memoryResetLine ∧
    (s.endFrame).channel = s.channel ∧ (s.endFrame).descriptors = s.descriptors ∧
    (s.endFrame).scans = s.scans ∧ (s.endFrame).rovers = s.rovers ∧
    (s.endFrame).encodeQueue = s.encodeQueue ∧ (s.endFrame).encoder = s.encoder ∧
    (s.endFrame).budget = s.budget ∧ (s.endFrame).link = s.link ∧ (s.endFrame).relay = s.relay ∧
    (s.endFrame).pending = s.pending :=
  by
  unfold State.endFrame
  (repeat' split) <;> simp

end Sys2Proof.Machine
end

