-- ==== Sys2Proof/Laws/InputQueue.lean ====
section
/-! SUPPORT. The lists of the control FIFO and of the input queue: what removing the newest ANSWER, replacing the newest
entry of a kind and joining the input queue make of a list that is given in parts. -/

namespace Sys2Proof.Machine

/-- Joining the input queue as the statements say it. -/
theorem Relay.join_eq_joined (r : Relay) (e : InputEntry) : r.join e = r.joined e := by
  unfold Relay.join Relay.joined Relay.tryBegin Relay.beginFrame
  dsimp only
  cases hs : r.sending <;> cases hr : r.ready <;> simp only [Option.isNone, Bool.and_false,
    Bool.and_true, Bool.false_eq_true, if_true, if_false]
  rcases hl : r.queue ++ [e] with _ | ⟨x, rest⟩
  · simp at hl
  · cases x <;> simp [InputEntry.isNotice]

/-- A list without an ANSWER has none to remove. -/
theorem dropNewestAnswer_none (l : List ControlFrame) (h : ∀ g ∈ l, g.isAnswer = false) :
    dropNewestAnswer l = none := by
  induction l with
  | nil => rfl
  | cons f l ih =>
    have hf := h f (by simp)
    rw [dropNewestAnswer, ih fun g hg => h g (by simp [hg])]
    cases f <;> simp_all [ControlFrame.isAnswer]

/-- The newest ANSWER is the one behind which none stands (R143). -/
theorem dropNewestAnswer_append (a : List ControlFrame) (id : BitVec 16) (v : Bool) (x : BitVec 64)
    (b : List ControlFrame) (h : ∀ g ∈ b, g.isAnswer = false) :
    dropNewestAnswer (a ++ .answer id v x :: b) = some (a ++ b) := by
  induction a with
  | nil => simp [dropNewestAnswer, dropNewestAnswer_none b h]
  | cons f a ih => simp [dropNewestAnswer, ih]

/-- The newest entry of a kind, replaced in its place (R159, R160). -/
theorem replaceNewest_append (p : InputEntry → Bool) (e x : InputEntry) (a b : List InputEntry) (hx : p x = true)
    (hb : ∀ y ∈ b, p y = false) : replaceNewest p e (a ++ x :: b) = a ++ e :: b := by
  induction a with
  | nil =>
    have : b.any p = false := by simpa using hb
    simp [replaceNewest, this, hx]
  | cons f a ih => simp [replaceNewest, hx, ih]

/-- A report that overflows the queue (R159, R160). -/
theorem State.inputOverflow_eq (s : State) : s.inputOverflow = s.overflowed s.relay := rfl

end Sys2Proof.Machine
end

