-- ==== Sys2Proof/Laws/Marks.lean ====
section
/-! SUPPORT. The operations that change the surface table in marks alone (R33, R49): a marking, a release, an abandon,
and a withdrawal of any set of records. -/

namespace Sys2Proof.Machine

/-- A state that keeps the surface table changes no mark. -/
theorem State.onlyMarks_of_eq {s t : State} (h : t.surfaces = s.surfaces) : s.onlyMarks t := by
  intro id
  rw [h]

/-- Changes in marks alone follow one another. -/
theorem State.onlyMarks_trans {s t u : State} (h : s.onlyMarks t) (k : t.onlyMarks u) : s.onlyMarks u :=
  fun id => (k id).trans (h id)

/-- A mark set or cleared leaves the surface what it is without its marks (R49). -/
theorem Surface.unmarked_withMark (f : Surface) (column row : Nat) (mark : Bool) :
    (f.withMark column row mark).unmarked = f.unmarked := by
  unfold Surface.withMark
  split
  · simp only [Surface.unmarked, Surface.mk.injEq, true_and]
    apply List.ext_getElem <;> simp
  · rfl

/-- A marking changes marks alone (R49). -/
theorem State.onlyMarks_markStale (s : State) (id : Fin 16) (column row : Nat) :
    s.onlyMarks (s.markStale id column row) := by
  intro k
  by_cases h : k = id
  · subst h
    cases hs : s.surfaces.look k <;>
      simp [State.markStale, State.updSurface, Table.upd, hs, Surface.unmarked_withMark]
  · simp [State.markStale, State.updSurface, Table.upd, Table.look_put_ne _ h]

/-- A release changes marks alone (R63, R64). -/
theorem State.onlyMarks_release (s : State) (i : Fin 64) (r : Record) : s.onlyMarks (s.release i r) :=
  State.onlyMarks_markStale (s.freeSlot i) r.surface r.column r.row

/-- An abandon changes marks alone (R98). -/
theorem State.onlyMarks_abandonCapture (s : State) (i : Fin 64) (r : Record) :
    s.onlyMarks (s.abandonCapture i r) :=
  State.onlyMarks_trans (s.onlyMarks_release i r) (State.onlyMarks_of_eq (by simp [State.abandonCapture]))

/-- The withdrawal of one record changes marks alone (R63 to R65). -/
theorem State.onlyMarks_withdrawSlot (s : State) (i : Fin 64) : s.onlyMarks (s.withdrawSlot i) := by
  unfold State.withdrawSlot
  repeat' split
  · exact State.onlyMarks_of_eq rfl
  · exact s.onlyMarks_abandonCapture i _
  · exact (s.dropCaptured i).onlyMarks_release i _
  · exact (s.dropDeferred _ i).onlyMarks_release i _
  · exact (s.dropQueued _ i).onlyMarks_release i _
  · exact State.onlyMarks_of_eq rfl
  · exact State.onlyMarks_of_eq rfl

/-- What changes marks alone in each slot does so over all of them. -/
theorem State.onlyMarks_forSlots (f : Fin 64 → State → State) (h : ∀ i (t : State), t.onlyMarks (f i t)) (s : State) :
    s.onlyMarks (s.forSlots f) := by
  unfold State.forSlots
  induction allSlots generalizing s with
  | nil => exact State.onlyMarks_of_eq rfl
  | cons i l ih => exact State.onlyMarks_trans (h i s) (ih (f i s))

/-- The withdrawal of a set of records changes marks alone (R62). -/
theorem State.onlyMarks_withdrawWhere (s : State) (p : Record → Bool) : s.onlyMarks (s.withdrawWhere p) := by
  refine State.onlyMarks_forSlots _ (fun i (t : State) => ?_) s
  split
  · split
    · exact t.onlyMarks_withdrawSlot i
    · exact State.onlyMarks_of_eq rfl
  · exact State.onlyMarks_of_eq rfl

/-- The abandonment of a set of captures changes marks alone (R98). -/
theorem State.onlyMarks_abandonWhere (s : State) (p : Record → Bool) : s.onlyMarks (s.abandonWhere p) := by
  refine State.onlyMarks_forSlots _ (fun i (t : State) => ?_) s
  split
  · split
    · exact t.onlyMarks_abandonCapture i _
    · exact State.onlyMarks_of_eq rfl
  · exact State.onlyMarks_of_eq rfl

end Sys2Proof.Machine
end

