-- ==== Sys2Proof/Laws/Upstream.lean ====
section
/-! SUPPORT. The front ends: what a lane, a frame and a byte of the input line change, each by one record update, and
what the queue of commands becomes. -/

namespace Sys2Proof.Machine

/-- A lane that acquires alignment changes its own flag and the queue. -/
theorem State.acquireLane_eq (lane : Fin 2) (s : State) :
    s.acquireLane lane = { s with
      link := { s.link with acquired := (s.acquireLane lane).link.acquired }
      pending := (s.acquireLane lane).pending } := by
  unfold State.acquireLane
  split
  · dsimp only
    split <;> rfl
  · rfl

/-- A lane that loses alignment changes its own flag, the frame that is arriving and the queue. -/
theorem State.loseLane_eq (lane : Fin 2) (s : State) :
    s.loseLane lane = { s with
      link := { s.link with
        acquired := (s.loseLane lane).link.acquired
        arriving := (s.loseLane lane).link.arriving }
      pending := (s.loseLane lane).pending } := by
  unfold State.loseLane
  split <;> rfl

/-- A lane without alignment loses nothing. -/
theorem State.loseLane_of_acquiring (lane : Fin 2) (s : State) (h : s.link.acquired.look lane = false) :
    s.loseLane lane = s := by
  simp [State.loseLane, h]

/-- Bytes on a lane change the frame that is arriving, and nothing else. -/
theorem State.receiveLaneBytes_eq (lane : Fin 2) (l : List Byte) (s : State) :
    s.receiveLaneBytes lane l = { s with link := { s.link with
      arriving := if s.laneReceives lane then s.link.arriving.map fun b => b.upd lane (· ++ l)
        else s.link.arriving } } := by
  rcases s with ⟨_, _, _, _, _, _, _, _, _, _, _, _, link, _, _, _⟩
  rcases link with ⟨_, _, arriving⟩
  unfold State.receiveLaneBytes
  cases arriving <;> simp
  split <;> simp_all

/-- With no lane aligned no frame begins (R147). -/
theorem State.beginUpstreamFrame_of_none (s : State) (h : s.anyLaneReceives = false) :
    s.beginUpstreamFrame = s := by
  simp [State.beginUpstreamFrame, h]

/-- What the lanes carry from mark to mark is taken as one frame of the aligned lanes' bytes (R138, R147). -/
theorem State.receiveLanes_eq (bytes : Table 2 (List Byte)) (s : State) (hn : s.link.arriving = none)
    (h : s.anyLaneReceives = true) :
    s.receiveLanes bytes = s.receiveFrame (rejoinLanes s.straps.laneCount
      (Table.tab fun l => if s.laneReceives l then bytes.look l else [])) := by
  have hb : s.beginUpstreamFrame = { s with link := { s.link with arriving := some (Table.const []) } } := by
    simp [State.beginUpstreamFrame, h, State.endUpstreamFrame, hn]
  have ends : ∀ c, ({ s with link := { s.link with arriving := some c } } : State).endUpstreamFrame =
      s.receiveFrame (rejoinLanes s.straps.laneCount c) := by
    rcases s with ⟨_, _, _, _, _, _, _, _, _, _, _, _, link, _, _, _⟩
    rcases link with ⟨_, _, arriving⟩
    intro c
    subst hn
    rfl
  have adds : ∀ (l : Fin 2) (d : List Byte) c,
      ({ s with link := { s.link with arriving := some c } } : State).receiveLaneBytes l d =
        { s with link := { s.link with
          arriving := some (if s.laneReceives l then c.upd l (· ++ d) else c) } } := by
    intro l d c
    rw [State.receiveLaneBytes_eq]
    change _ = ({ s with link := { s.link with arriving := _ } } : State)
    rw [show ({ s with link := { s.link with arriving := some c } } : State).laneReceives l =
      s.laneReceives l from rfl]
    split <;> rfl
  unfold State.receiveLanes
  rw [hb, adds, adds, ends]
  congr 2
  apply Table.ext_look
  intro l
  match l with
  | 0 => cases h0 : s.laneReceives 0 <;> cases s.laneReceives 1 <;> simp [h0, Table.look_upd]
  | 1 => cases s.laneReceives 0 <;> cases h1 : s.laneReceives 1 <;> simp [h1, Table.look_upd]

/-- A byte of the input line changes the receiver and the queue. -/
theorem State.receiveLineByte_eq (b : LineByte) (s : State) :
    s.receiveLineByte b = { s with
      relay := { s.relay with receiver := (s.relay.receiver.take b).1 }
      pending := s.pending ++ (s.relay.receiver.take b).2.toList } := rfl

/-- With one lane the frame is what lane 0 carried. -/
theorem rejoinLanes_one (bytes : Table 2 (List Byte)) : rejoinLanes 1 bytes = bytes.look 0 := rfl

/-- With two lanes it is what they carried in turn. -/
theorem rejoinLanes_two (bytes : Table 2 (List Byte)) :
    rejoinLanes 2 bytes = interleave (bytes.look 0) (bytes.look 1) := rfl

/-- Rejoining loses no byte. -/
theorem interleave_length (a b : List Byte) : (interleave a b).length = a.length + b.length := by
  induction a generalizing b with
  | nil => simp [interleave]
  | cons x a ih =>
    cases b with
    | nil => simp [interleave]
    | cons y b =>
      simp only [interleave, List.length_cons, ih]
      omega

end Sys2Proof.Machine
end

