-- ==== Sys2Proof/Tests/Slice0.lean ====
section
/-! SUPPORT. Tests: the smoke tests of WellFormed, values the spec works out, and for each obligation with hypotheses a
theorem (test_witness_…) that a concrete state and operands meet them, clause by clause. -/

set_option synthInstance.maxHeartbeats 400000
set_option synthInstance.maxSize 2000
set_option maxRecDepth 20000
set_option exponentiation.threshold 600

namespace Sys2Proof.Machine.Slice0

/-! ### Small states -/

/-- Straps with one rank and a 16-bit channel. -/
def narrow : Straps := { Config.resetStraps with width := .bits16, ranks := .one }

/-- The state after reset with the follower in a given state. -/
def inState (f : Following) : State :=
  { State.reset with channel := { State.reset.channel with following := f } }

/-- In FOLLOWING, with rank 1's bank 3 OPEN at row 5. -/
def opened : State := (inState .following).updRank 1 fun k => { k with banks := k.banks.put 3 (some 5) }

/-- A geometry of 2 by 2 tiles whose last column and row are cut. -/
def grid : Geometry := { width := 64, height := 33, format := .f32 }

/-- A surface of that geometry. -/
def surfaceAt (base : Nat) (owner : Option (Fin 4)) (stale : List Bool) : Surface :=
  { base := base, pitch := 256, geometry := grid, owner := owner, stale := stale }

/-- FOLLOWING and UP, with surfaces 0 and 1 the flip set of head 0, which shows surface 0; surface 2 without an
owner; and head 1 OFF. -/
def live : State :=
  { inState .following with
    surfaces := ((Table.const none).put 0 (some (surfaceAt 0 (some 0) [true, false, false, false]))
      |>.put 1 (some (surfaceAt 16384 (some 0) [false, false, false, false]))
      |>.put 2 (some (surfaceAt 32768 none [false, false, false, false])))
    heads := (State.reset.heads.put 0
      { state := .showing, flipSet := [0, 1], shown := some 0, geometry := some grid
        quality := [.exact, .reduced, .exact, .exact] })
    scans := State.reset.scans.put 0
      { mode := .track, cursor := 5, lastStart := some 0, period := 16667, frameCount := 1
        stall := some 66668 }
    budget := { State.reset.budget with
      heads := State.reset.budget.heads.put 0
        { share := 1087500, cap := 4350000, credit := 4350000, accumulator := 0, demand := 0, deferred := [] } }
    link := { State.reset.link with state := .up } }

/-- The head of `live` in another state. -/
def headIs (t : HeadState) : State := live.updHead 0 fun d => { d with state := t }

/-- A record of tile (1, 0) of surface 0, of head 0. -/
def record (t : RecordState) : Record :=
  { head := 0, surface := 0, column := 1, row := 0, kind := .new, state := t, withdrawn := false, received := 0
    pixels := [(0, 7)], coded := none, decision := none, age := 0, format := .f32, tw := 32, th := 32 }

/-- A record with its coded forms and a decision. -/
def decided (t : RecordState) (c : Code) : Record :=
  { record t with
    coded := some { exact := [0, 0, 0, 0], reduced := [0, 0, 0] }
    decision := some { code := c, frameSize := 16 } }

/-- `live` with a record in slot 3. -/
def holding (r : Record) : State := { live with slots := live.slots.put 3 (some r) }

/-- `live` with slot 3 in the encoder. -/
def encoding (r : Record) (queue : List (Fin 64)) : State :=
  { holding r with
    slots := (live.slots.put 3 (some r)).put 4
      (if queue = [] then none else some { record .captured with column := 0 })
    encoder := some 3
    encodeQueue := queue }

/-- `live` with a control frame on the wire and frames queued. -/
def onWire (w : Wire) (q : List ControlFrame) : State :=
  { live with link := { live.link with wire := w, control := q } }

/-- A link state, with its timers, on an idle wire. -/
def linkIn (t : LinkState) (hello aligning : Option Time) : State :=
  { live with link := { live.link with state := t, helloAt := hello, aligningAt := aligning } }

/-- `live` with a burst that owes a record. -/
def writing (b : Burst) : State := { live with channel := { live.channel with writeBursts := [b] } }

/-- `live` with a read burst that owes a record. -/
def reading (s : State) (a : Nat) : State :=
  { s with channel := { s.channel with readBursts :=
      [{ address := a, columns := 8, start := 0, exchange := false, latency := 11 }] } }

/-- A burst of 8 columns at an address. -/
def burstAt (a : Nat) : Burst := { address := a, columns := 8, start := 0, exchange := false, latency := 8 }

/-- Beats with the bytes of one beat enabled. -/
def oneBeat (k : Fin 8) (data : BitVec 32) : Table 8 WriteBeat :=
  Table.tab fun i => { data := if i = k then data else 0, enables := if i = k then 0xF else 0 }

/-- Beats with no byte enabled. -/
def noBeat : Table 8 WriteBeat := Table.const { data := 0, enables := 0 }

/-- `live` with an input queue, the transmitter IDLE or sending. -/
def queued (q : List InputEntry) (sending : Option InputFrame) (ready : Bool) : State :=
  { live with relay := { live.relay with queue := q, sending := sending, ready := ready } }

/-- A KEYBOARD, a POINTER and a NOTICE entry. -/
def keyEntry : InputEntry := .keyboard 0 [4]
@[inherit_doc keyEntry] def pointEntry : InputEntry := .pointer 1 2 0 3
@[inherit_doc keyEntry] def noteEntry : InputEntry := .notice .restart

/-- A descriptor slot that holds bytes at offsets, all seen. -/
def descriptor (bytes : List (Nat × Byte)) : DescriptorSlot :=
  { bytes := Buffer.writeAll [] bytes, seen := 0xFFFFFFFFFFFFFFFF, generation := 0 }

/-- A SURFACE descriptor of `grid` for an id at a base. -/
def surfaceBytes (id : Byte) (base : Byte) (pitch : Byte) : DescriptorSlot :=
  descriptor [(0, 1), (1, 9), (4, id), (5, 1), (6, 64), (8, 33), (13, pitch), (17, base), (56, 9)]

/-- A HEAD descriptor for head `h` with ids 0 and 1. -/
def headBytes (h : Byte) : DescriptorSlot :=
  descriptor [(0, 2), (1, 9), (4, h), (5, 2), (6, 0), (7, 1), (56, 9)]

/-! ### WellFormed, and values the spec works out -/

theorem test_rank_one_is_well_formed : Instr.wellFormed (.activate 1 0 0) = true := by decide

theorem test_rank_two_is_refused : Instr.wellFormed (.activate 2 0 0) = false := by decide

theorem test_no_word_spells_a_command : decodeTableWord 16 0x1234 = none := by decide

theorem test_reset_budget : Config.resetStraps.resetBudget = 1087500 := by decide

/-- R37: ten surfaces of 4,096 by 2,304 pixels fit, an eleventh does not. -/
theorem test_tile_counts :
    ({ width := 4096, height := 2304, format := .f32 } : Geometry).tileCount = 9216 ∧
    ({ width := 2560, height := 1440, format := .f16 } : Geometry).tileCount = 3600 := by decide

/-- R104 and TABLE 23. -/
theorem test_quantiser_ranges :
    (quantise 8 4 8, quantise 8 4 9, quantise 8 4 25, quantise 8 4 246, quantise 8 4 247) = (0, 1, 1, 14, 15) ∧
    (quantise 5 3 2, quantise 5 3 3, quantise 5 3 28, quantise 5 3 29) = (0, 1, 6, 7) ∧
    (quantise 6 3 4, quantise 6 3 5, quantise 6 3 58, quantise 6 3 59) = (0, 1, 6, 7) ∧
    (quantise 5 2 5, quantise 5 2 6, quantise 5 2 25, quantise 5 2 26) = (0, 1, 2, 3) := by decide

/-- Two rows of four equal pixels are one SAME token, and the desk reads them back. -/
theorem test_one_colour_tile :
    payloadOf 4 (List.replicate 8 [1, 2]) = [0x47, 1, 2] ∧
    rebuildPixels 4 (deskTokens 3 2 [0x47, 1, 2]) [] = List.replicate 8 [1, 2] := by decide

/-- A row that repeats the one above it is an ABOVE token (R107, R108). -/
theorem test_row_above :
    payloadOf 3 [[1], [2], [3], [1], [2], [3]] = [0x02, 1, 2, 3, 0x82] := by decide

/-- The usual test string of a check with these parameters (log 17). -/
theorem test_check :
    crc32 [0x31, 0x32, 0x33, 0x34, 0x35, 0x36, 0x37, 0x38, 0x39] = 0xCBF43926 := by decide

/-- TABLE 8: the columns of each beat, rows 1, 2, 4 and 6, linear and exchange. -/
theorem test_burst_orders :
    let beats := fun (x : Bool) (n s : Nat) => (List.range n).map (beatOffset x n s)
    beats false 8 5 = [5, 6, 7, 0, 1, 2, 3, 4] ∧ beats true 8 5 = [5, 4, 7, 6, 1, 0, 3, 2] ∧
    beats false 8 2 = [2, 3, 4, 5, 6, 7, 0, 1] ∧ beats true 8 2 = [2, 3, 0, 1, 6, 7, 4, 5] ∧
    beats false 4 2 = [2, 3, 0, 1] ∧ beats true 4 2 = [2, 3, 0, 1] ∧
    beats false 4 1 = [1, 2, 3, 0] ∧ beats true 4 1 = [1, 0, 3, 2] := by decide

/-- Chapter 2: slot 3 of the announcement area of the 1 GiB channel with area select 0. -/
theorem test_announcement_slot :
    Config.resetStraps.channelSize = 1073741824 ∧ Config.resetStraps.areaBase + 64 * 3 = 1073676480 ∧
    groupBase 101 8 = 96 ∧ 101 % 8 = 5 ∧ groupBase 13 4 = 12 ∧ 13 % 4 = 1 := by decide

/-- TABLE 13: the two surfaces, and the tiles its first three rows map to. -/
theorem test_mapping_writes :
    let f : Surface :=
      { base := 268435456, pitch := 10240, owner := none, stale := []
        geometry := { width := 2560, height := 1440, format := .f32 } }
    let g : Surface :=
      { base := 301989888, pitch := 2048, owner := none, stale := []
        geometry := { width := 1000, height := 600, format := .f16 } }
    let s : State := { State.reset with surfaces := ((Table.const none).put 0 (some f)).put 2 (some g) }
    s.tileOfByte 270488448 = some (0, 39, 6) ∧ s.tileOfByte 301991872 = some (2, 31, 0) ∧
    s.tileOfByte (301991872 + 15) = some (2, 31, 0) ∧ s.tileOfByte (301991872 + 16) = none ∧
    s.tileOfByte 301991888 = none ∧ g.geometry.tileColumns = 32 ∧ g.geometry.tileRows = 19 ∧
    g.geometry.tileWidth 31 = 8 ∧ g.geometry.tileHeight 18 = 24 := by decide

/-- Chapter 5: the edge tile (31, 18) needs units 0 and 1 of its 24 lines, and a read of one of its lines stores 16
bytes and marks 4 units. -/
theorem test_edge_tile_fill :
    let r : Record := { record .capturing with format := .f16, tw := 8, th := 24, pixels := [] }
    let q := r.fill 0 0 (List.replicate 32 (1 : Byte))
    r.lineUnits = 2 ∧ q.pixels.length = 16 ∧ q.received = 0xF := by decide

/-- TABLE 26: the edge tile's tokens in both codes, 17 and 9 bytes. -/
theorem test_edge_tile_tokens :
    let row : List (Byte × Byte) :=
      [(0, 0), (0x41, 0x08), (0xFF, 0xFF), (0xFF, 0xFF), (0xFF, 0xFF), (0x10, 0x84), (0x31, 0x8C), (0x31, 0x8C)]
    let tile := (List.replicate 24 row).flatten
    payloadOf 8 (tile.map fun v => exactPixel16 v.1 v.2) =
      [0x01, 0, 0, 0x41, 0x08, 0x42, 0xFF, 0xFF, 0x00, 0x10, 0x84, 0x41, 0x31, 0x8C, 0xBF, 0xBF, 0xB7] ∧
    payloadOf 8 (tile.map fun v => reducedPixel16 v.1 v.2) =
      [0x41, 0x00, 0x42, 0xFF, 0x42, 0x92, 0xBF, 0xBF, 0xB7] := by decide

/-- Chapter 6: the two colours of the full tile, reduced and rebuilt. -/
theorem test_reduced_colours :
    reducedPixel32 0x1E 0x1E 0x1E = [0x22, 0x20] ∧ reducedPixel32 0x10 0xA0 0xF0 = [0xE9, 0x10] ∧
    (rebuild 8 4 2, rebuild 8 4 14, rebuild 8 4 9, rebuild 8 4 1) = (34, 238, 153, 17) := by decide

/-- Chapter 9: the pointer's tile on head 0. -/
theorem test_pointer_tile :
    let g : Geometry := { width := 2560, height := 1440, format := .f32 }
    let d : Desktop := { x0 := 0, y0 := 0, x1 := 16383, y1 := 16383 }
    pointerTileIn g d 8000 12000 = (39, 32) ∧ (pointerTileIn g d 16383 100).1 = 79 ∧
    d.contains 16383 100 = true ∧ d.contains 16384 0 = false := by decide

/-- TABLE 29 and TABLE 30: the shares of the two worked cases, and case 1 in static mode. -/
theorem test_shares :
    let one : List Claim := [⟨0, .critical, 8, 300000⟩, ⟨1, .high, 4, 700000⟩, ⟨2, .normal, 4, 400000⟩]
    let two : List Claim :=
      [⟨0, .critical, 8, 100000⟩, ⟨1, .high, 4, 400000⟩, ⟨2, .high, 2, 200000⟩, ⟨3, .normal, 4, 150000⟩]
    one.map (shareOf .dynamic 1160000 one) = [300000, 700000, 160000] ∧
    two.map (shareOf .dynamic 580000 two) = [100001, 313288, 157649, 9062] ∧
    one.map (shareOf .static 1160000 one) = [580000, 290000, 290000] := by decide

/-- TABLE 33, events 3 and 4: a REDUCED decision and a deferral, with credit and accumulator. -/
theorem test_encode_decisions :
    let f := fun e q : Nat => ({ exact := List.replicate e 0, reduced := List.replicate q 0 } : CodedForms)
    let s := (holding (record .encoding)).updBudget 0 fun b =>
      { b with credit := 954, accumulator := 8108, deferred := [] }
    let t := s.encodeDecision 3 (record .encoding) (f 2000 800)
    let u := t.encodeDecision 5 (record .encoding) (f 1200 400)
    ((t.budget.heads.look 0).credit, (t.budget.heads.look 0).accumulator) = (142, 8920) ∧
    (u.budget.heads.look 0).deferred = [5] ∧
    ((u.budget.heads.look 0).credit, (u.budget.heads.look 0).accumulator) = (142, 10132) := by decide

/-- An input-line LAMP frame with lamp set 5 gives its command (R165). -/
theorem test_lamp_frame :
    (Receiver.check 5).take { value := 0x85, stopOk := true } = (.hunting, some (.lamp 5)) := by decide

/-! ### The machine -/

theorem test_witness_StepRunsTheFrontCommand :
    ({ State.reset with pending := [.noOp] } : State).pending = .noOp :: [] := by decide

/-- The tick, the hold timer, the HELLO repeat timer, the aligning timer and a stall timer are due at 1,000 µs. -/
theorem test_witness_EmptyQueuePassesAMicrosecond :
    let s : State := { linkIn .aligning (some 1000) (some 1000) with
      budget := { live.budget with now := 999, hold := some 1000 }
      scans := live.scans.upd 0 fun c => { c with stall := some 1000 } }
    s.pending = [] ∧ s.passMicrosecond.pending =
      [.tick, .stallTimerExpiry 0, .overrideHoldExpiry, .helloRepeatTimerExpiry, .aligningTimerExpiry] := by
  decide

theorem test_witness_PartReset :
    let t := match execPartReset narrow true true live with
      | .next t => t
      | _ => live
    t.straps = narrow ∧ t.channel.following = .waitModes ∧ t.relay.sending ≠ none := by decide

theorem test_witness_CommandsWithoutEffect :
    Instr.rank? (.activate 2 0 0) = some 2 ∧ State.reset.straps.rankCount ≤ 2 ∧
    Instr.rank? (.refresh 1) = some 1 ∧ narrow.rankCount ≤ 1 := by decide

theorem test_witness_CommandsInFollowing :
    opened.channel.following = .following ∧ opened.memoryResetLine = false ∧
    (1 : Fin 2).1 < opened.straps.rankCount ∧ (opened.channel.ranks.look 1).power = .active ∧
    (opened.channel.ranks.look 1).banks.look 7 = none := by decide

/-- The three burst modes, at the last column. -/
theorem test_witness_BurstCommandsInFollowing :
    (opened.channel.ranks.look 1).banks.look 3 = some 5 ∧ opened.channel.burstMode = .fixed8 ∧
    1023 = (0x7FF#11).toNat % opened.straps.columnCount ∧ opened.channel.diversion = false ∧
    opened.channel.writeTraining = false ∧
    (∀ v ∈ [(0x1000#16, BurstMode.perCommandChop), (0x2000#16, BurstMode.fixedChop)],
      ({ opened.channel with shadow := opened.channel.shadow.put 0 { value := v.1, valid := true } } :
        Channel).burstMode = v.2) := by decide

theorem test_witness_CommandsInFollowing_power :
    (∀ b, (opened.channel.ranks.look 0).banks.look b = none) ∧ (opened.channel.ranks.look 0).power = .active ∧
    (∀ p ∈ [PowerState.powerDown, .selfRefresh],
      ((opened.updRank 0 fun k => { k with power := p }).channel.ranks.look 0).power = p) := by decide

theorem test_witness_CommandsInFollowing_modeSet :
    let s := inState .following
    s.channel.following = .following ∧ s.memoryResetLine = false ∧
    (∀ r : Fin 2, (s.channel.ranks.look r).power = .active ∧ ∀ b, (s.channel.ranks.look r).banks.look b = none) ∧
    ({ s.channel with shadow := s.channel.shadow.put 3 { value := 1, valid := true } } :
      Channel).shadowSupported = true := by decide

/-- An anomaly, a command that is none, a MODE SET with a bank OPEN, and one that is not supported. -/
theorem test_witness_FollowingIsLeftAtAnAnomaly :
    (Instr.activate 1 3 0).rank? = some (1 : Fin 2).1 ∧ Instr.activate 1 3 0 ≠ .calibrate 1 ∧
    (1 : Fin 2).1 < opened.straps.rankCount ∧ opened.memoryResetLine = false ∧
    (Instr.activate 1 3 0).rankAnomalous (opened.channel.ranks.look 1) = true ∧
    (Instr.activate 1 4 0).rankAnomalous (opened.channel.ranks.look 1) = false ∧
    (Instr.activate 1 4 0).modeAnomalous opened.channel = false ∧
    ((opened.channel.ranks.look 1).banks.look 3 ≠ none) ∧
    (let c := (inState .following).channel
     ({ c with shadow := c.shadow.put 0 { value := 0x3000, valid := true } } : Channel).shadowSupported = false ∧
     ({ c with shadow := c.shadow.put 0 { value := 0x000B, valid := true } } : Channel).shadowSupported = true) ∧
    (holding (record .capturing)).channel.following = .following ∧
    (holding (record .capturing)).surfaces.look 0 = some (surfaceAt 0 (some 0) [true, false, false, false]) ∧
    grid.hasTile 1 0 = true ∧ [true, false, false, false].length = grid.tileCount := by
  decide

/-- A REFRESH that enters FOLLOWING, one that does not, an anomaly that is counted in RESYNC and one that is not. -/
theorem test_witness_CommandsInABlindInterval :
    let k (b : Bool) : State := (inState .resync).updRanks fun k => { k with knownClosed := b }
    (k true).channel.following ≠ .following ∧ (Instr.refresh 1).closesRank = true ∧
    (k true).channel.shadowSupported = true ∧
    (∀ q : Fin 2, ((k true).channel.ranks.look q).knownClosed = true) ∧
    ((k false).channel.ranks.look 0).knownClosed = false ∧
    (Instr.read 1 0 0 false).rankAnomalous ((k true).channel.ranks.look 1) = true := by decide

theorem test_witness_CommandsInABlindInterval_modeSet :
    let s := (inState .waitModes).updRanks fun k => { k with knownClosed := true }
    s.memoryResetLine = false ∧ s.channel.following ≠ .following ∧
    (∀ r : Fin 2, (s.channel.ranks.look r).power = .active ∧ (s.channel.ranks.look r).knownClosed = true) ∧
    ({ s.channel with shadow := s.channel.shadow.put 3 { value := 0, valid := true } } :
      Channel).shadowSupported = true ∧
    (let o := s.updRank 1 fun k => { k with banks := k.banks.put 0 (some 0) }
     (o.channel.ranks.look 1).banks.look 0 ≠ none) ∧
    (let o := s.updRank 1 fun k => { k with power := .powerDown }
     (1 : Fin 2).1 < o.straps.rankCount ∧ (o.channel.ranks.look 1).power ≠ .active) := by decide

theorem test_witness_MemoryResetLine :
    ({ live with memoryResetLine := true } : State).memoryResetLine = true ∧
    (Instr.refresh 0).rank? ≠ none ∧ live.isOn 0 = true ∧
    (∃ r, (holding (record .capturing)).slots.look 3 = some r ∧ r.state = .capturing) := by
  refine ⟨by decide, by decide, by decide, record .capturing, by decide, by decide⟩

/-! ### Addresses and bursts -/

theorem test_witness_ChannelAddressIsABijection :
    let p := Config.resetStraps
    p.order = .rrbc ∧ ({ p with order := .rbrc } : Straps).order = .rbrc ∧
    p.address 1 7 16383 1023 + 3 = p.channelSize - 1 ∧ 1 < p.rankCount ∧ 16383 < p.rowCount ∧
    1023 < p.columnCount ∧ 3 < p.beatBytes := by decide

theorem test_witness_ReadBeatsAreReordered :
    (let b : Burst := { burstAt 0 with columns := 4, start := 3, exchange := true }
     (b.columns = 8 ∨ b.columns = 4) ∧ b.start < b.columns ∧
     reorderedBytes 2 b (Table.tab fun k => BitVec.ofNat 32 k.1) = [3, 0, 2, 0, 1, 0, 0, 0]) := by decide

/-- R7 and R26: of two READ commands to line 4 and line 5 of the shown surface, with a MODE SET between them that lowers
the read latency from 11 to 5, the later one's burst completes first and is delivered first. -/
theorem test_later_burst_completes_first :
    let early : Burst := { address := 1024, columns := 8, start := 0, exchange := false, latency := 11 }
    let late : Burst := { early with address := 1280, latency := 5 }
    let s := { live with channel := { live.channel with readBursts := [early, late] } }
    let t := match exec (.observedRead { burst := 1, beats := Table.const 0 }) s with
      | .next t => t
      | _ => s
    t.channel.readBursts = [early] ∧ t.counters.strayReads = 0 ∧ (t.scans.look 0).cursor = 5 := by decide

/-- Bytes into slot 15: the last bytes of a slot, the commit byte, and an offset before it. -/
theorem test_witness_DescriptorBytesAssemble :
    let b := burstAt (live.straps.areaBase + 64 * 15 + 32)
    (writing b).channel.writeBursts[0]? = some b ∧ (writing b).channel.writeBursts[1]? = none ∧ (writing b).channel.following = .following ∧
    enabledBytes 4 8 (oneBeat 6 0x09) = [(24, 9), (25, 0), (26, 0), (27, 0)] ∧
    enabledBytes 4 8 (oneBeat 7 0x09) = [(28, 9), (29, 0), (30, 0), (31, 0)] ∧ enabledBytes 4 8 noBeat = [] ∧
    ((writing b).descriptors.look 15).bytes.wf ∧
    (let e := ((writing b).descriptors.look 15).assemble 32 (enabledBytes 4 8 (oneBeat 6 0x09))
     e.byte 56 ≠ ((writing b).descriptors.look 15).generation) := by decide

/-! ### Commits -/

/-- A TAKEN commit and a refused one of kind 1, complete ones of kinds 2 to 4, an unknown kind, byte 1 unlike byte 56,
both 0, and a required byte not seen: the last one of a kind. -/
theorem test_witness_CommitIsConcluded :
    live.checkCommit (surfaceBytes 3 0xB0 1) = .taken ∧ live.checkCommit (surfaceBytes 16 0xB0 1) = .badValue ∧
    (∀ v ∈ [(headBytes 0, CommitOutcome.taken), (descriptor [(0, 3), (1, 9), (4, 2), (56, 9)], .taken),
        (descriptor [(0, 4), (1, 9), (4, 0), (56, 9)], .taken), (descriptor [(1, 9), (56, 9)], .badKind),
        (descriptor [(0, 5), (1, 9), (56, 9)], .badKind), (descriptor [(0, 3), (1, 9), (4, 2), (56, 8)], .incomplete),
        (descriptor [(0, 3), (4, 2)], .incomplete),
        ({ surfaceBytes 3 0xB0 1 with seen := ~~~(1 <<< 23) }, .incomplete),
        ({ headBytes 0 with seen := ~~~(1 <<< 7) }, .incomplete),
        ({ headBytes 0 with seen := ~~~(1 <<< 8) }, .taken)], live.checkCommit v.1 = v.2) := by
  decide

/-- In range, and each field out of range. -/
theorem test_witness_SurfaceFieldChecks :
    live.checkSurface (surfaceBytes 15 0xB0 1) = .taken ∧ live.checkSurface (surfaceBytes 16 0xB0 1) = .badValue ∧
    live.checkSurface (surfaceBytes 3 0xB0 0) = .badValue ∧
    live.checkSurface (descriptor [(4, 3), (5, 3), (6, 64), (8, 33), (13, 1)]) = .badValue ∧
    live.checkSurface (descriptor [(4, 3), (5, 2), (6, 63), (8, 33), (13, 1)]) = .badValue ∧
    live.checkSurface (descriptor [(4, 3), (5, 2), (6, 64), (8, 31), (13, 1)]) = .badValue ∧
    live.checkSurface (descriptor [(4, 3), (5, 2), (6, 64), (8, 33), (13, 1), (16, 1)]) = .badValue := by decide

theorem test_witness_surfacesSound : live.surfacesSound := by decide

/-- Each outcome of the table checks; the surface at base 0x8000 is surface 2. -/
theorem test_witness_SurfaceTableChecks :
    live.checkSurface (surfaceBytes 3 0xB0 1) = .taken ∧ live.checkSurface (surfaceBytes 3 0x80 1) = .overlap ∧
    live.checkSurface (surfaceBytes 2 0x81 1) = .taken ∧
    live.checkSurface (descriptor [(4, 1), (5, 2), (6, 64), (8, 33), (13, 1), (17, 0xB0)]) = .mismatch := by decide

/-- A stale map of 9,216 marks. -/
@[irreducible] def bigMap : List Bool := List.replicate 9216 true

theorem bigMap_length : bigMap.length = 9216 := by
  unfold bigMap
  exact List.length_replicate

/-- Ten surfaces of 9,216 tiles, one behind the other. -/
def big (i : Nat) : Surface :=
  { base := 18874368 * i, pitch := 8192, geometry := { width := 4096, height := 2304, format := .f16 }
    owner := none, stale := bigMap }

/-- `live` with ten of them and no other surface. -/
def crowded : State := { live with surfaces := Table.tab fun i => if i.1 < 10 then some (big i.1) else none }

theorem big_limit (n : Nat) : (big n).limit = 18874368 * n + 18874368 := by
  have h : 8192 * 2304 = 18874368 := by norm_num
  exact congrArg (18874368 * n + ·) h

theorem crowded_look (j : Fin 16) (g : Surface) (h : crowded.surfaces.look j = some g) :
    j.1 < 10 ∧ g = big j.1 := by
  simp only [crowded, Table.look_tab] at h
  split at h
  · exact ⟨by assumption, by simpa using h.symm⟩
  · cases h

theorem crowded_size : crowded.straps.channelSize = 1073741824 ∧ crowded.straps.areaBase = 1073676288 := by decide

theorem big_sound (n : Nat) (h : n < 10) : (big n).sound crowded.straps := by
  refine ⟨?_, ?_, ?_, ?_, ?_, ?_, ?_, ?_, ?_, ?_⟩
  · show 18874368 * n % 256 = 0
    omega
  · simp [big]
  · simp [big, Geometry.lineBytes, PixelFormat.bytesPerPixel]
  · simp [big]
  · simp [big]
  · simp [big]
  · simp [big]
  · simp [big]
  · rw [crowded_size.1, big_limit]
    omega
  · refine Eq.trans bigMap_length ?_
    simp only [big, Geometry.tileCount, Geometry.tileColumns, Geometry.tileRows]

theorem big_apart (n m : Nat) (h : m ≠ n) :
    rangesMeet (big n).base (big n).limit (big m).base (big m).limit = false := by
  have hn : ∀ k, (big k).base = 18874368 * k := fun _ => rfl
  simp only [rangesMeet, big_limit, hn]
  simp
  omega

theorem big_below (n : Nat) (h : n < 10) : rangesMeet (big n).base (big n).limit crowded.straps.areaBase
    (crowded.straps.areaBase + areaSize) = false := by
  simp only [rangesMeet, big_limit, crowded_size.2]
  simp
  omega

theorem crowded_sound : crowded.surfacesSound := by
  refine ⟨?_, by decide⟩
  intro i f hf
  obtain ⟨hi, rfl⟩ := crowded_look i f hf
  refine ⟨big_sound i.1 hi, big_below i.1 hi, ?_⟩
  intro j hj g hg
  obtain ⟨-, rfl⟩ := crowded_look j g hg
  exact big_apart i.1 j.1 fun e => hj (Fin.ext e)

/-- They leave no room for an eleventh of a valid SURFACE descriptor. -/
theorem test_witness_SurfaceTableChecks_capacity :
    crowded.checkSurface (descriptor [(4, 10), (5, 2), (7, 16), (9, 9), (13, 32), (19, 32)]) = .capacity := by decide

theorem test_witness_headsSound : live.headsSound := by decide

/-- An EMPTY id, an unowned one, the shown surface with the same and with another geometry in a set of one, and the
link UP. -/
theorem test_witness_SurfaceDescriptorTaken :
    live.headsSound ∧ live.link.state = .up ∧ live.surfaces.look 3 = none ∧
    (surfaceBytes 3 0xB0 1).surfaceFields.checked live.straps ≠ none ∧
    live.surfaces.look 2 = some (surfaceAt 32768 none [false, false, false, false]) ∧
    (live.heads.look 0).shown = some 0 ∧
    (let s := (live.updHead 0 fun d => { d with flipSet := [0] }).updSurface 1 fun f => { f with owner := none }
     let d := descriptor [(4, 0), (5, 1), (6, 64), (8, 64), (13, 1)]
     s.headsSound ∧ s.checkSurface d = .taken ∧
     (s.takeSurface d).heads.look 0 =
       { state := .waiting, flipSet := [0], shown := none
         geometry := some { width := 64, height := 64, format := .f32 }
         quality := [.exact, .exact, .exact, .exact] } ∧
     (s.takeSurface d).link.control =
       [.head { head := 0, state := .waiting, flipSet := [0], geometry := some grid, period := 16667 }]) := by decide

/-- Each outcome of the checks, at boundary values. -/
theorem test_witness_HeadDescriptorChecks :
    live.headsSound ∧
    (let s := { live with surfaces := live.surfaces.put 4 (some
       { surfaceAt 65536 none [true, true, true, true] with geometry := { grid with height := 34 } }) }
     s.headsSound ∧
     ∀ v ∈ [([(4, 4), (5, 1), (6, 2)], CommitOutcome.badValue), ([(4, 3), (6, 2)], .badValue),
        ([(4, 3), (5, 4), (6, 2)], .badValue), ([(4, 3), (5, 1), (6, 16)], .badValue),
        ([(4, 3), (5, 1), (6, 15)], .noSurface), ([(4, 3), (5, 2), (6, 2), (7, 2)], .badValue),
        ([(4, 3), (5, 2), (6, 2), (7, 4)], .mismatch), ([(4, 3), (5, 2), (6, 2), (7, 1)], .inUse),
        ([(4, 0), (5, 3), (6, 0), (7, 1), (8, 2)], .taken)], s.checkHead (descriptor v.1) = v.2) := by decide

/-- A head that is SHOWING, and one that is OFF, both with a set the checks take. -/
theorem test_witness_HeadDescriptorTaken :
    (headBytes 0).headFields = some (0, [0, 1]) ∧ live.checkHead (headBytes 0) = .taken ∧
    (let s := { live with surfaces := live.surfaces.put 3 (some (surfaceAt 65536 none [true, true, true, true])) }
     let d := descriptor [(4, 3), (5, 2), (6, 2), (7, 3)]
     s.headsSound ∧ d.headFields = some (3, [2, 3]) ∧ s.checkHead d = .taken ∧ (s.heads.look 3).state = .off) := by decide

theorem test_witness_WithdrawalsTaken :
    live.checkWithdrawSurface (descriptor [(4, 16)]) = .badValue ∧
    live.checkWithdrawSurface (descriptor [(4, 15)]) = .noSurface ∧
    live.checkWithdrawSurface (descriptor [(4, 0)]) = .inUse ∧
    live.checkWithdrawSurface (descriptor [(4, 2)]) = .taken ∧
    checkWithdrawHead (descriptor [(4, 4)]) = .badValue ∧ checkWithdrawHead (descriptor [(4, 3)]) = .taken ∧
    (live.heads.look 3).state = .off ∧ (live.heads.look 0).state ≠ .off ∧
    (0 : Fin 16) ∈ (live.heads.look 0).flipSet ∧ (2 : Fin 16) ∉ (live.heads.look 0).flipSet := by decide

/-- A record of each state in the lists its state says, a flip and none. -/
theorem test_witness_WithdrawalOfRecords :
    (live.heads.look 0).shown = some 0 ∧ (0 : Fin 16) ≠ 1 ∧
    (∀ t ∈ [RecordState.capturing, .captured, .encoding, .deferred, .queued, .sending],
      (holding (decided t .exact)).slots.look 3 = some (decided t .exact)) ∧
    (let s := { live with
       slots := live.slots.put 3 (some (decided .queued .exact))
       link := { live.link with send := live.link.send.put 0 [3] } }
     let t := s.withdrawWhere fun r => r.surface == 0
     s.slotsInPlace ∧ t.slots.look 3 = none ∧ t.link.send.look 0 = [] ∧ t.isStale 0 1 0 = true) := by decide

/-! ### Change tracking -/

/-- A visible byte of tile (1, 0) of surface 0, with a CAPTURING record of it and without; a byte in no surface. -/
theorem test_witness_SurfaceWriteMarksItsTile :
    (writing (burstAt 128)).channel.writeBursts[0]? = some (burstAt 128) ∧ (writing (burstAt 128)).recordsUnique ∧
    live.straps.inArea 128 = false ∧ live.tileOfByte 128 = some (0, 1, 0) ∧ live.tileOfByte 1000000 = none ∧
    ((enabledBytes 4 8 (oneBeat 0 5)).findSome? fun x => live.tileOfByte (128 + x.1)) = some (0, 1, 0) ∧
    (record .capturing).column = 1 ∧ (record .capturing).row = 0 := by decide

/-! ### Scan following -/

/-- From TRACK past line 0, and from SEEK on a head that waits; line 0 of surface 1 begins at 16,384. -/
theorem test_witness_FrameStartOnARead :
    let s := reading live 16384
    let w := reading ((headIs .waiting).updScan 0 Scan.toSeek) 16384
    s.channel.following = .following ∧ s.surfaceAt 16384 = some 1 ∧ (s.scans.look 0).mode = .track ∧
    1 ≤ (s.scans.look 0).cursor ∧ (w.scans.look 0).mode = .seek ∧ s.link.state = .up ∧
    (w.heads.look 0).state ≠ .showing ∧ (surfaceAt 16384 (some 0) []).owner = some 0 ∧
    (let e := { reading (encoding (record .encoding) []) 16384 with channel := s.channel }
     e.slotsInPlace ∧ (e.heads.look 0).shown = some (record .encoding).surface ∧ (record .encoding).surface ≠ 1) := by
  decide

/-- A scan read, the three stray reads, a read without an owner, in no surface and outside FOLLOWING. -/
theorem test_witness_ReadsInsideAFrame :
    let seek := live.updScan 0 Scan.toSeek
    live.surfaceAt 1280 = some 0 ∧ live.surfaceAt 1024 = some 0 ∧ live.surfaceAt (16384 + 256) = some 1 ∧
    (live.scans.look 0).mode = .track ∧ (live.heads.look 0).shown = some 0 ∧ (live.scans.look 0).cursor = 5 ∧
    (1280 - 0) / 256 = 5 ∧ (1024 - 0) / 256 = 4 ∧ (live.heads.look 0).shown ≠ some 1 ∧
    (seek.scans.look 0).mode = .seek ∧ seek.surfaceAt 256 = some 0 ∧ (256 - 0) / 256 ≠ 0 ∧
    (reading live 1280).channel.following = .following ∧
    live.surfaceAt 32768 = some 2 ∧ live.surfaceAt 1000000 = none ∧ live.channel.readBursts[0]? = none ∧
    (reading (inState .resync) 0).channel.following ≠ .following := by decide

theorem test_witness_StallTimerExpiry :
    let late (s : State) : State := { s with budget := { s.budget with now := 66668 } }
    (live.scans.look 1).stall = none ∧ (live.scans.look 0).stall = some 66668 ∧
    timeReached (late live).budget.now 66668 = true ∧ ((late (headIs .waiting)).heads.look 0).state = .waiting ∧
    ((late live).heads.look 0).state = .showing ∧ live.link.state = .up := by decide

/-! ### Capture -/

/-- A band start that allocates a NEW and a REFINE record, and one without a candidate. -/
theorem test_witness_BandStartAllocates :
    (live.heads.look 0).state = .showing ∧ live.link.state = .up ∧ (live.heads.look 0).shown = some 0 ∧
    (live.heads.look 1).state ≠ .showing ∧ (live.bandStart 0 0).held 0 = 2 ∧ (live.bandStart 0 1).held 0 = 0 := by
  decide

/-- The last group of a tile line, on the last line; a scan read of line 32, which enters the band that starts there,
and one of line 5; an abandoned record in the band left; and a group in the padding, in a tile with a CAPTURING
record and in one without, with the encoder IDLE and busy. -/
theorem test_witness_ScanReadFillsARecord :
    (record .capturing).pixels.wf ∧ (31 : Nat) < 32 ∧ (8 : Nat) ∣ 96 ∧
    8 ∣ (List.replicate 32 (1 : Byte)).length ∧ 96 + (List.replicate 32 (1 : Byte)).length ≤ 128 ∧
    (∀ a ∈ [1280, 8192], (reading live a).surfaceAt a = some 0 ∧ (live.scans.look 0).cursor ≤ a / 256) ∧
    (5 : Nat) / 32 < 8192 / 256 / 32 ∧ 8192 / 256 % 32 = 0 ∧ (live.scans.look 0).mode = .track ∧
    (live.heads.look 0).shown = some 0 ∧ (holding (record .capturing)).recordsUnique ∧
    (holding (record .capturing)).slots.look 3 = some (record .capturing) ∧ (record .capturing).head = 0 ∧
    (record .capturing).row = 0 ∧ grid.width * 4 ≤ 256 ∧ ¬ grid.width * 4 ≤ 128 ∧ 128 / 4 / 32 = (record .capturing).column ∧
    96 / 4 / 32 ≠ (record .capturing).column ∧ (holding (record .capturing)).encoder = none ∧
    (holding (record .capturing)).encodeQueue = [] ∧ (encoding (record .encoding) [4]).encoder ≠ none := by decide

/-! ### Coding and the budget -/

/-- Each case of R130, for frames of 32 and 22 bytes: behind a deferred record, exact, reduced, and deferred. -/
theorem test_witness_EncodeDecision :
    let f : CodedForms := { exact := List.replicate 20 0, reduced := List.replicate 10 0 }
    let b (credit : Nat) (l : List (Fin 64)) : HeadBudget :=
      (live.updBudget 0 fun b => { b with credit := credit, deferred := l }).budget.heads.look 0
    f.exact.length + 12 = 32 ∧ f.reduced.length + 12 = 22 ∧ (b 32 [9]).deferred ≠ [] ∧
    ((b 32 []).deferred = [] ∧ 32 ≤ (b 32 []).credit) ∧
    ((b 31 []).deferred = [] ∧ ¬ 32 ≤ (b 31 []).credit ∧ 22 ≤ (b 31 []).credit) ∧
    ((b 21 []).deferred = [] ∧ ¬ 32 ≤ (b 21 []).credit ∧ ¬ 22 ≤ (b 21 []).credit) ∧
    (record .encoding).kind = .new ∧ live.exactOnly 0 = false := by decide

/-- A withdrawn record and one that is not; the queue empty and not; and credit for the exact frame of 16 bytes, the
reduced one of 15, and neither. -/
theorem test_witness_EncodeCompletion :
    let r := { record .encoding with tw := 1, th := 1 }
    let b (credit : Nat) : State := (encoding r []).updBudget 0 fun b => { b with credit := credit }
    live.encoder = none ∧ (∀ c ∈ [16, 15, 14], (b c).slotsInPlace) ∧ (b 16).encoder = some 3 ∧
    (b 16).slots.look 3 = some r ∧ (b 16).encodeQueue = [] ∧ r.withdrawn = false ∧
    (r.payload .exact).length + 12 = 16 ∧ (r.payload .reduced).length + 12 = 15 ∧
    ((b 16).budget.heads.look 0).deferred = [] ∧ ((b 14).budget.heads.look 0).credit = 14 ∧
    (let w := encoding { r with withdrawn := true } [4]
     w.slotsInPlace ∧ w.encodeQueue = [4] ∧ w.slots.look 3 = some { r with withdrawn := true } ∧
     w.surfaces.look 0 = some (surfaceAt 0 (some 0) [true, false, false, false])) := by decide

theorem test_witness_TokensCoverTheTile :
    (∀ x ∈ ([[1, 2], [3, 4]] : List Pixel), x.length = 2) ∧ (record .encoding).tw ≤ 32 ∧
    (record .encoding).th ≤ 32 ∧ (record .encoding).format = .f32 ∧
    ({ record .encoding with format := .f16 } : Record).format = .f16 ∧
    (31 : Nat) < (record .encoding).tw ∧ (31 : Nat) < (record .encoding).th := by decide

/-- An ABOVE, a SAME and a LITERAL token, with the two runs at their positions. -/
theorem test_witness_TokensCoverTheTile_runs :
    let ps : List Pixel := [[1], [1], [2], [1], [1], [3]]
    let above := fun i : Nat => runOf (min 64 (6 - i)) (fun j => decide (3 ≤ j) && ps[j]? == ps[j - 3]?) i
    let same := fun i : Nat => runOf (min 64 (6 - i)) (fun j => ps[j]? == ps[i]?) i
    tokens 6 (positions 3 ps) = [.same 2 [1], .literal [[2]], .above 2, .literal [[3]]] ∧
    (above 0, same 0) = (0, 2) ∧ (above 2, same 2) = (0, 1) ∧ (above 3, same 3) = (2, 2) ∧
    (above 5, same 5) = (0, 1) := by decide

theorem test_witness_DeskRebuildsTheTile :
    (1 : Nat) ≤ 2 ∧ ∀ x ∈ ([[1, 2], [3, 4], [1, 2]] : List Pixel), x.length = 2 := by decide

theorem test_witness_RecomputationAndEpochEnd :
    live.link.current.mode = .dynamic ∧ live.isOn 0 = true ∧ (live.recomputeShares.budget.heads.look 0).share = 1087500 := by
  decide

theorem test_witness_SharesByMode :
    let s : State := { live with link := { live.link with current := { live.link.current with mode := .static } } }
    s.link.current.mode = .static ∧ s.isOn 0 = true ∧ (s.recomputeShares.budget.heads.look 0).share = 1087500 ∧
    live.link.current.mode = .dynamic ∧ live.isOn 0 = true ∧ (∃ h, live.isOn h) := by
  decide

/-- The end of an epoch, an apply and a recompute request, and a tick with none of them. -/
theorem test_witness_TickStepsInOrder :
    let s : State := { live with
      budget := { live.budget with epochTicks := 15, recompute := true }
      link := { live.link with applyRequest := true } }
    15 ≤ s.budget.epochTicks ∧ s.link.applyRequest = true ∧ s.budget.recompute = true ∧
    ¬ 15 ≤ live.budget.epochTicks ∧ live.link.applyRequest = false ∧ live.budget.recompute = false ∧
    (live.budget.heads.look 0).deferred = [] ∧
    (let heads := s.link.staged.heads.upd 0 fun d => { d with exactOnly := true }
     let x : State := { s with link := { s.link with
       staged := { s.link.staged with heads := heads, mask := 0 }
       current := { s.link.current with mask := 1 }, latches := 1 } }
     x.link.latches &&& x.link.current.mask &&& ~~~x.link.staged.mask ≠ 0 ∧ (x.heads.look 0).state ≠ .off ∧
     (x.link.current.heads.look 0).exactOnly = false ∧ (x.link.staged.heads.look 0).exactOnly = true ∧
     (x.heads.look 0).qualityOf 1 0 = some .reduced ∧ (0 : Fin 16) ∈ (x.heads.look 0).flipSet ∧
     x.takeTick.isStale 0 1 0 = true ∧ x.takeTick.link.wire = .status 1) ∧
    (let p := onWire (.control (.hello 1)) []
     let v : State := { p with link := { p.link with statusPending := true, latches := 1 } }
     v.link.statusPending = true ∧ v.link.latches &&& ~~~v.link.current.mask ≠ 0 ∧
     ControlFrame.status ∉ v.link.control ∧ v.link.control.length < 16 ∧ live.link.statusPending = false) := by decide

/-- R143 at a full FIFO: a STATUS frame removes the newest ANSWER, which counts. -/
theorem test_full_fifo_removes_the_newest_answer :
    let q := .answer 1 true 0 :: .answer 2 true 0 :: .lamp 1 :: List.replicate 13 (.hello 1)
    let s := onWire (.control (.hello 1)) q
    let t := ({ s with link := { s.link with statusPending := true, latches := 1 } } : State).statusTest
    q.length = 16 ∧ t.link.control = .answer 1 true 0 :: .lamp 1 :: List.replicate 13 (.hello 1) ++ [.status] ∧
    t.counters.answersDropped = 1 ∧ t.link.statusPending = false := by decide

/-- `live` with head 0's deferral list holding slots 3 and 4, of ages 31 and 5 and kinds given, at a credit. -/
def deferring (k k' : RecordKind) (credit : Nat) (w : Wire) : State :=
  { (live.updBudget 0 fun b => { b with credit := credit, deferred := [3, 4] }) with
    slots := (live.slots.put 3 (some { decided .deferred .exact with age := 31, kind := k, decision := none })).put 4
      (some { decided .deferred .exact with age := 5, kind := k', decision := none, column := 0 })
    link := { live.link with wire := w } }

/-- Both charged, the first only, neither (the first then abandoned and the second aged), and a REFINE record freed
under the override; the wire busy and idle. -/
theorem test_witness_Reevaluation :
    (∀ c ∈ [32, 31, 16, 15, 14], ∀ w ∈ [Wire.idle, .control (.hello 1)], (deferring .new .new c w).slotsInPlace) ∧
    (∀ v ∈ [(32, some 0), (31, some 0), (16, some 0), (15, some 0), (14, none)],
      (((deferring .new .new v.1 .idle).slots.look 3).bind fun r => r.test false v.1).map (fun _ => (0 : Nat)) = v.2) ∧
    (let s : State := { deferring .refine .new 14 .idle with
       budget := { (deferring .refine .new 14 .idle).budget with overrideActive := true } }
     s.slotsInPlace ∧ s.budget.overrideActive = true ∧
     (s.slots.look 3).map (·.kind) = some .refine ∧ (s.reevaluate 0).slots.look 3 = none ∧
     ((s.reevaluate 0).slots.look 4).map (·.age) = some 6) ∧
    (let t := (deferring .new .new 14 .idle).reevaluate 0
     t.slots.look 3 = none ∧ (t.slots.look 4).map (·.age) = some 6 ∧ t.counters.deferralsAbandoned = 1) ∧
    (let t := (deferring .new .new 31 .idle).reevaluate 0
     t.link.wire = .tile 3 ∧ t.link.send.look 0 = [4] ∧ (t.budget.heads.look 0).credit = 0) := by decide

/-- R145: at a tick with the wire idle a charged record begins when it joins its send FIFO, before the STATUS frame
that the same tick offers, and the STATUS frame waits. -/
theorem test_charged_record_begins_before_status :
    let s := deferring .new .new 32 .idle
    let t := ({ s with link := { s.link with statusPending := true, latches := 1 } } : State).takeTick
    t.link.wire = .tile 3 ∧ t.link.control = [.status] ∧ t.link.send.look 0 = [4] := by decide

/-- Ages 30 and 31, a record that is not DEFERRED, and the mark of a declared and of an EMPTY surface. -/
theorem test_witness_DeferralAbandonment :
    let r (n : Nat) : Record := { decided .deferred .exact with age := n }
    (holding (r 30)).slots.look 3 = some (r 30) ∧ (r 30).age < 31 ∧ 31 ≤ (r 31).age ∧
    (holding (record .capturing)).slots.look 3 = some (record .capturing) ∧
    live.surfaces.look 0 = some (surfaceAt 0 (some 0) [true, false, false, false]) ∧ live.surfaces.look 9 = none ∧
    grid.hasTile 1 0 = true ∧ ([true, false, false, false] : List Bool).length = grid.tileCount ∧
    (let q : Record := { r 31 with column := 2 }
     (holding q).slots.look 3 = some q ∧ grid.hasTile q.column q.row = false) := by decide

theorem test_witness_OverrideAndPointer :
    live.link.current.enables .motion = true ∧
    ({ live.link.current with motionEnable := false } : Settings).enables .motion = false ∧
    live.budget.hold = none ∧
    ({ live.budget with hold := some 5 } : Budget).hold = some 5 ∧ live.relay.position = none ∧
    (let on (d : Desktop) : State := { live with
       relay := { live.relay with position := some (100, 7) }
       link := { live.link with current := { live.link.current with
         heads := live.link.current.heads.upd 0 fun x => { x with desktop := some d } } } }
     (on { x0 := 0, y0 := 7, x1 := 100, y1 := 8 }).pointerTile = some (0, 1, 0) ∧
     (on { x0 := 0, y0 := 8, x1 := 100, y1 := 9 }).pointerTile = none) := by decide

/-! ### The desk link -/

theorem test_witness_LinkStateTable :
    (linkIn .down none none).link.state = .down ∧ (linkIn .down none none).link.wire = .idle ∧
    (linkIn .down none none).link.control = [] ∧
    (linkIn .aligning (some 0) (some 0)).link.helloAt = some 0 ∧
    (linkIn .aligning (some 0) (some 0)).link.aligningAt = some 0 ∧
    timeReached (linkIn .aligning (some 0) (some 0)).budget.now 0 = true ∧
    (onWire (.control (.hello 1)) [.hello 1]).link.wire ≠ .idle ∧
    (onWire (.control (.hello 1)) [.hello 1]).link.control.any ControlFrame.isHello = true ∧
    (0 : Fin 2).1 < live.straps.laneCount ∧ (0 : Byte) ≠ 1 ∧ live.link.acquired.look 0 = false ∧
    live.straps.laneCount ≤ (1 : Fin 2).1 := by decide

/-- A part with two lanes, DOWN. -/
def twoLanes : State :=
  { State.reset with straps := { State.reset.straps with lanes := .two } }

/-- Each lane acquires alignment on its own (R138): LANES_ALIGNED waits once the second has it, and the loss of one
lane by LANE_ALIGNMENT_LOST of that lane. -/
theorem test_lanes_acquire_one_by_one :
    (twoLanes.acquireLane 1).pending = [] ∧ (twoLanes.acquireLane 1).link.acquired.look 1 = true ∧
    ((twoLanes.acquireLane 1).acquireLane 0).pending = [.lanesAligned] ∧
    (((twoLanes.acquireLane 1).acquireLane 0).loseLane 1).pending = [.lanesAligned, .laneAlignmentLost 1] ∧
    (State.reset.acquireLane 0).pending = [.lanesAligned] ∧ (State.reset.loseLane 0).pending = [] := by decide

/-- Two lanes, of which lane 1 alone or both have acquired alignment. -/
def oneAligned : State := { twoLanes with link := { twoLanes.link with acquired := (Table.const false).put 1 true } }
def bothAligned : State := { twoLanes with link := { twoLanes.link with acquired := Table.const true } }

/-- The bytes of an APPLY frame, carried by two aligned lanes in turn, spell it; with one lane aligned its bytes alone
are a bad frame; with none nothing is received (R138, R147, R168). -/
theorem test_lane_bytes_rejoined :
    let f := [0x14#8] ++ littleEndian 4 (crc32 [0x14]).toNat
    let lanes : Table 2 (List Byte) := Table.tab fun l => laneBytes 2 l.1 f
    (laneBytes 2 0 f).length = 3 ∧ (laneBytes 2 1 f).length = 2 ∧
    (bothAligned.receiveLanes lanes).pending = [.apply] ∧
    (oneAligned.receiveLanes lanes).pending = [.badUpstreamFrame .wrongLength] ∧
    twoLanes.receiveLanes lanes = twoLanes := by decide

/-- A frame that a loss of alignment cuts off is not taken; one that the next frame's beginning cuts off is bad
(R147). -/
theorem test_frame_cut_off :
    let f := [0x14#8] ++ littleEndian 4 (crc32 [0x14]).toNat
    let half := (bothAligned.beginUpstreamFrame.receiveLaneBytes 0 (laneBytes 2 0 f)).receiveLaneBytes 1 [5]
    (((half.loseLane 0).receiveLaneBytes 1 [6]).endUpstreamFrame).pending = [.laneAlignmentLost 0] ∧
    half.beginUpstreamFrame.pending = [.badUpstreamFrame .wrongLength] ∧
    half.beginUpstreamFrame.link.arriving = some (Table.const []) := by decide

/-- With a record ENCODING, one that is QUEUED, and an ANSWER on the wire. -/
theorem test_witness_LinkLoss :
    let s := encoding (record .encoding) []
    s.slotsInPlace ∧ s.link.state = .up ∧ (0 : Fin 2).1 < s.straps.laneCount ∧
    (let q : State := { holding (decided .queued .exact) with
       link := { live.link with send := live.link.send.put 0 [3], wire := .control (.answer 1 true 2) } }
     q.slotsInPlace ∧ q.slots.look 3 = some (decided .queued .exact)) ∧
    (let r : State := { holding (decided .sending .exact) with link := { live.link with wire := .tile 3 } }
     r.slotsInPlace ∧ r.slots.look 3 = some (decided .sending .exact)) ∧
    (holding (record .capturing)).slotsInPlace ∧
    live.surfaces.look 0 = some (surfaceAt 0 (some 0) [true, false, false, false]) ∧ grid.hasTile 1 0 = true := by decide

/-- A key held and a button set at link loss: the empty KEYBOARD report, the POINTER release and the LINK notice join
the queue; with a full queue of NOTICE entries both reports shed one. -/
theorem test_release_at_link_loss :
    let held (q : List InputEntry) : State := { live with relay := { live.relay with
      queue := q, heldKeys := [4], position := some (1, 2), buttons := 3 } }
    let loss (q : List InputEntry) : State := match exec (.laneAlignmentLost 0) (held q) with
      | .next t => t
      | _ => held q
    (loss []).relay.queue = [.keyboard 0 [], .pointer 1 2 0 0, .notice (.link false)] ∧
    (loss (List.replicate 32 noteEntry)).relay.queue =
      List.replicate 30 noteEntry ++ [.keyboard 0 [], .pointer 1 2 0 0] ∧
    (loss (List.replicate 32 noteEntry)).relay.lost = true ∧
    (loss (List.replicate 32 noteEntry)).counters.inputDropped = 2 := by decide

theorem test_witness_LinkUp :
    let s : State := { linkIn .aligning none none with
      link := { live.link with state := .aligning, control := [.hello 1], latches := 1 } }
    s.link.state = .aligning ∧ (∀ f ∈ s.link.control, f.isHello = true) ∧
    s.link.latches &&& ~~~s.link.current.mask ≠ 0 ∧ s.link.wire = .idle ∧
    (s.heads.look 0).state ≠ .off ∧ (s.heads.look 1).state = .off ∧
    (onWire (.control (.hello 1)) []).link.wire ≠ .idle := by decide

/-- `live` with a record of a code on the wire, and its head changed. -/
def sending (c : Code) (f : Head → Head) : State :=
  ({ holding (decided .sending c) with link := { live.link with wire := .tile 3 } }).updHead 0 f

/-- An EXACT and a REDUCED record, an OFF head, a flip set the surface has left, and an exact-only head. -/
theorem test_witness_TileFrameEnds :
    (∀ c ∈ [Code.exact, .reduced], (sending c id).surfacesSound ∧ (sending c id).link.wire = .tile 3 ∧
      (sending c id).slots.look 3 = some (decided .sending c) ∧
      (decided .sending c).decision = some { code := c, frameSize := 16 } ∧
      ((sending c id).heads.look 0).geometry = some grid ∧ grid.hasTile 1 0 = true ∧
      ((sending c id).heads.look 0).flipSet = [0, 1]) ∧
    ((sending .exact fun d => { d with state := .off }).heads.look 0).state = .off ∧
    ((sending .exact fun d => { d with flipSet := [1] }).heads.look 0).flipSet = [1] ∧
    (let s := sending .reduced id
     let heads := s.link.current.heads.upd 0 fun d => { d with exactOnly := true }
     let t : State := { s with link := { s.link with current := { s.link.current with heads := heads } } }
     t.surfacesSound ∧ (t.link.current.heads.look 0).exactOnly = true ∧ t.link.wire = .tile 3) := by decide

/-- A frame of each kind behind the one that ends, an empty FIFO, and a tile frame of the only head that waits. -/
theorem test_witness_SendArbiter :
    (∀ q ∈ [[ControlFrame.hello 1], [.status], [.lamp 3], []],
      (onWire (.control (.lamp 1)) q).link.wire = .control (.lamp 1) ∧
      (onWire (.control (.lamp 1)) q).link.control = q ∧ (onWire (.control (.lamp 1)) q).link.state ≠ .down) ∧
    live.link.wire = .idle ∧ (∀ h, (onWire (.control (.lamp 1)) []).link.send.look h = []) ∧
    (let l := (onWire (.control (.lamp 1)) []).link
     let s : State := { live with link := { l with send := l.send.put 2 [3] } }
     s.link.wire = .control (.lamp 1) ∧ s.link.control = [] ∧ s.link.state = .up ∧ s.link.send.look 2 ≠ []) ∧
    (onWire (.status 5) [.hello 1]).link.wire = .status 5 ∧ (onWire .idle [.hello 1]).link.wire = .idle ∧
    (linkIn .down none none).link.state = .down ∧
    (let q := List.replicate 15 (ControlFrame.hello 1) ++ [.answer 1 true 0]
     16 ≤ q.length ∧ (∀ g ∈ q, g.isLamp = false) ∧ q = List.replicate 15 (.hello 1) ++ .answer 1 true 0 :: [] ∧
     (∃ g ∈ (onWire .idle [.lamp 1]).link.control, g.isLamp = true)) := by
  decide

/-- Values at the ends of their ranges. -/
theorem test_witness_SettingsWritten :
    live.link.state = .up ∧ 2 ≤ (2 : BitVec 64).toNat ∧ 3 ≤ (3 : BitVec 64).toNat ∧ (3 : Byte).toNat = (3 : Fin 4).1 ∧
    4 ≤ (4 : Byte).toNat ∧ 12 ≤ (0x0C : Byte).toNat ∧
    (let q (n : Nat) : Settings := { live.link.current with
       heads := live.link.current.heads.upd 3 fun d => { d with quota := n } }
     ((q 16).reduceQuotas.heads.look 3).quota = 16 ∧ ((q 17).reduceQuotas.heads.look 3).quota = 16) := by decide

/-- The wire idle and busy, and the FIFO full. -/
theorem test_witness_ReadAnswers :
    live.link.state = .up ∧ live.link.wire = .idle ∧ live.link.control = [] ∧
    (onWire (.control (.hello 1)) []).link.wire ≠ .idle ∧
    (onWire (.control (.hello 1)) (List.replicate 16 (.answer 0 false 0))).link.control.length = 16 ∧
    Counter.ofIndex 13 = some .answersDropped ∧ (3 : Byte).toNat = (3 : Fin 4).1 ∧ 4 ≤ (4 : Byte).toNat := by decide

theorem test_witness_UpstreamFrames :
    live.link.state = .up ∧ (linkIn .down none none).link.state ≠ .up ∧
    upstreamLength (frameByte [0x14] 0) = some ([0x14#8].length + 4) ∧
    receiveFrame (withCheck [0x17, 2]) = .resync 2 ∧
    receiveFrame [0x17, 2, 0, 0, 0, 0] = .badUpstreamFrame .badCheck ∧ upstreamLength 0x18 = none ∧
    upstreamLength 0x0F = none ∧ receiveFrame (withCheck [0x18]) = .badUpstreamFrame .unknownKind ∧
    receiveFrame (withCheck [0x17]) = .badUpstreamFrame .wrongLength ∧
    receiveFrame [0x17, 2, 0, 0] = .badUpstreamFrame .wrongLength ∧
    bothAligned.link.arriving = none ∧ oneAligned.link.arriving = none ∧ twoLanes.link.arriving = none ∧
    (∀ l : Fin 2, l.1 < bothAligned.straps.laneCount ∧ bothAligned.link.acquired.look l = true) ∧
    (1 < oneAligned.straps.laneCount ∧ oneAligned.link.acquired.look 1 = true ∧
      oneAligned.link.acquired.look 0 = false) ∧
    (∀ l : Fin 2, twoLanes.link.acquired.look l = false) ∧
    oneAligned.beginUpstreamFrame.link.arriving = some (Table.const []) := by decide

/-- A tile frame and an ANSWER on the wire, a NOTICE on the input line, and an odd frame on two lanes. -/
theorem test_witness_OutboundBytes :
    (let s : State := { holding { decided .sending .exact with tw := 1, th := 1 } with
       link := { live.link with wire := .tile 3 } }
     s.link.wire = .tile 3 ∧ s.wireBytes.length = (12 + 4 : Nat)) ∧
    (onWire (.control (.answer 1 true 2)) []).wireBytes.length = 16 ∧
    (onWire (.status 5) []).wireBytes.length = 7 ∧
    (queued [] (some { entry := noteEntry, lost := true }) true).lineBytes.length = 8 ∧
    laneBytes 2 0 [1, 2, 3] = [1, 3] ∧ laneBytes 2 1 [1, 2, 3] = [2] ∧
    (linkIn .down none none).wireBytes = [] := by decide

theorem test_witness_DeskResyncRequest :
    live.link.state = .up ∧ 4 ≤ (4 : Byte).toNat ∧ (3 : Byte).toNat = (3 : Fin 4).1 ∧
    (live.heads.look 3).state = .off ∧ (0 : Byte).toNat = (0 : Fin 4).1 ∧ (live.heads.look 0).state ≠ .off ∧
    (live.heads.look 0).geometry = some grid := by decide

/-- A latch set and clear, an event masked and not, and a counter at its stop. -/
theorem test_witness_EventsAndCounters :
    live.latched .lampOverrun = false ∧ (live.raise .lampOverrun).latched .lampOverrun = true ∧
    live.link.current.mask &&& Event.lampOverrun.bit = 0 ∧ (0x100#10 : BitVec 10) &&& Event.lampOverrun.bit ≠ 0 ∧
    saturatingAdd 0xFFFFFFFF 1 = 0xFFFFFFFF ∧ saturatingAdd 0xFFFFFFFE 1 = 0xFFFFFFFF := by decide

/-! ### The input relay -/

/-- A queue with room, and full queues with a KEYBOARD entry, without one, and of NOTICE entries. -/
theorem test_witness_KeyboardReport :
    live.link.state = .up ∧ (queued [] none false).relay.ready = false ∧
    (queued [] (some { entry := keyEntry, lost := false }) true).relay.sending ≠ none ∧
    (List.replicate 31 keyEntry).length < 32 ∧
    32 ≤ (List.replicate 31 noteEntry ++ [keyEntry]).length ∧ keyEntry.isKeyboard = true ∧
    32 ≤ (pointEntry :: List.replicate 31 noteEntry).length ∧
    (∀ y ∈ pointEntry :: List.replicate 31 noteEntry, y.isKeyboard = false) ∧ pointEntry.isPointer = true ∧
    32 ≤ (List.replicate 32 noteEntry).length ∧ (∀ y ∈ List.replicate 32 noteEntry, y.isNotice = true) ∧
    (queued [] none true).relay.joined keyEntry =
      { live.relay with queue := [], sending := some { entry := keyEntry, lost := false }, ready := true } := by decide

/-- A merge, a queue with room, and full queues with a POINTER entry and without one. -/
theorem test_witness_PointerReport :
    (0 : Byte).extractLsb' 0 5 = 0#5 ∧ [keyEntry, pointEntry] = [keyEntry] ++ [.pointer 1 2 0 3] ∧
    mergePointer 5 6 0 4 [keyEntry, pointEntry] = some [keyEntry, .pointer 5 6 0 7] ∧
    mergePointer 5 6 1 4 [keyEntry, pointEntry] = none ∧ [keyEntry, pointEntry].length < 32 ∧
    32 ≤ (pointEntry :: List.replicate 31 keyEntry).length ∧
    (∀ z ∈ List.replicate 31 keyEntry, z.isPointer = false) ∧ 32 ≤ (List.replicate 32 keyEntry).length ∧
    keyEntry.isKeyboard = true ∧ (∃ z ∈ List.replicate 31 keyEntry, z.isKeyboard = true) ∧
    (∀ z ∈ List.replicate 32 noteEntry, z.isPointer = false) ∧ noteEntry.isNotice = true ∧
    (List.replicate 31 noteEntry ++ [keyEntry]).countP InputEntry.isKeyboard ≤ 1 := by decide

theorem test_witness_InputLine :
    (queued [keyEntry] none false).relay.sending = none ∧ (queued [keyEntry] none false).relay.queue = [keyEntry] ∧
    (let s := queued [noteEntry] (some { entry := keyEntry, lost := false }) true
     s.relay.sending ≠ none ∧ s.relay.ready = true ∧ s.relay.queue = [noteEntry]) ∧
    (queued [] (some { entry := keyEntry, lost := false }) false).relay.ready = false ∧
    32 ≤ (List.replicate 32 noteEntry).length ∧ (List.replicate 31 noteEntry).length < 32 := by decide

/-- Not UP; UP with the wire busy, without and with a queued LAMP frame; and a wrong check byte. -/
theorem test_witness_InputLine_lamps :
    (linkIn .down none none).link.state ≠ .up ∧ (onWire (.control (.hello 1)) []).link.state = .up ∧
    (onWire (.control (.hello 1)) []).link.wire ≠ .idle ∧
    (∀ f ∈ (onWire (.control (.hello 1)) [.status]).link.control, f.isLamp = false) ∧
    (∃ f ∈ (onWire (.control (.hello 1)) [.lamp 1]).link.control, f.isLamp = true) ∧
    (0 : Byte) ≠ 0x81 ^^^ 0x01 ^^^ 5 ∧ live.link.state = .up ∧ live.link.wire = .idle ∧ live.link.control = [] ∧
    (queued [] none true).relay.queue = [] ∧ (queued [] none true).relay.sending = none ∧
    (queued [] none true).relay.ready = true := by decide

/-- R165: 0xA5 with a bad stop bit begins a frame while hunting; a wrong kind is discarded after the length byte, so a
0xA5 in its place begins none (log 30); and a LAMP that waits in the queue leaves a frame begun behind it alone. -/
theorem test_receiver :
    let byte (v : Byte) (ok : Bool) : LineByte := { value := v, stopOk := ok }
    let take (s : State) (l : List (Byte × Bool)) : State := l.foldl (fun s v => s.receiveLineByte (byte v.1 v.2)) s
    (take live [(0xA5, false), (0x81, true), (0x01, true), (0x05, true), (0x85, true)]).pending = [.lamp 5] ∧
    (take live [(0xA5, true), (0x80, true), (0xA5, true), (0x81, true), (0x01, true)]).pending =
      [.inputLineBadFrame .wrongKind] ∧
    (let s := take live [(0xA5, true), (0x81, true), (0x01, true), (0x05, true), (0x85, true), (0xA5, true)]
     let t := match step s with
       | .next t => t
       | _ => s
     t.relay.lamps = 5 ∧ (take t [(0x81, true), (0x01, true), (0x06, true), (0x86, true)]).pending = [.lamp 6]) := by
  decide

/-! ### Invariants -/

/-- A state that is not the reset state meets the premises of the invariants, and steps. -/
theorem test_witness_invariants :
    live.inputQueueBounded ∧ live.controlFifoBounded ∧ live.creditsWithinCaps ∧ live.surfacesSound ∧
    live.trackingIsShowing ∧ live.sharesSpendTheBudget ∧ live.recordsUnique ∧ live.tilesOnlyWhileUp ∧
    live.buffersCanonical ∧ live.openRowsInRange := by decide

theorem test_witness_slotsInPlace : (holding (record .capturing)).slotsInPlace := by decide

end Sys2Proof.Machine.Slice0
end

section
-- The theorems below are elaborated one after another: with many of them under way at once the check's memory limit
-- leaves no room for the threads that wait for each other.
set_option Elab.async false

section
/-! SUPPORT. What every step keeps of the records' tiles, the byte buffers and the OPEN rows (R91, R3, log 16). One
relation between two states says it of the state before and the state after, each operation is shown to be in the
relation once, and a step is a chain of operations. -/

namespace Sys2Proof.Machine

/-- The records in the slots have their pixel stores in canonical form. -/
def State.pixelsCanonical (s : State) : Prop := ∀ i : Fin 64, ∀ r ∈ s.slots.look i, r.pixels.wf

/-- The descriptor slots have their bytes in canonical form. -/
def State.descriptorsCanonical (s : State) : Prop := ∀ i : Fin 16, (s.descriptors.look i).bytes.wf

/-- From `s` to `t` the sentences about records, byte buffers and OPEN rows carry over. -/
structure State.Carries (s t : State) : Prop where
  unique : s.recordsUnique → t.recordsUnique
  pixels : s.pixelsCanonical → t.pixelsCanonical
  descriptors : s.descriptorsCanonical → t.descriptorsCanonical
  rows : s.openRowsInRange → t.openRowsInRange

/-- A record stands for the tile of another one, and its pixel store is in canonical form when the other's is. -/
structure Record.Continues (r q : Record) : Prop where
  surface : r.surface = q.surface
  column : r.column = q.column
  row : r.row = q.row
  pixels : q.pixels.wf → r.pixels.wf

/-- A record that keeps its tile and its pixel store continues the one it was. -/
theorem Record.Continues.of_eq {r q : Record} (hs : r.surface = q.surface) (hc : r.column = q.column)
    (hr : r.row = q.row) (hp : r.pixels = q.pixels) : r.Continues q :=
  ⟨hs, hc, hr, fun h => hp ▸ h⟩

namespace State.Carries

variable {s t u : State}

theorem refl (s : State) : s.Carries s := ⟨id, id, id, id⟩

theorem trans (h : s.Carries t) (k : t.Carries u) : s.Carries u :=
  ⟨k.unique ∘ h.unique, k.pixels ∘ h.pixels, k.descriptors ∘ h.descriptors, k.rows ∘ h.rows⟩

/-- A change of the slots alone carries everything over when each record continues the one that stood in its slot. -/
theorem of_slots (hslots : ∀ i, ∀ r ∈ t.slots.look i, ∃ q ∈ s.slots.look i, r.Continues q)
    (hd : t.descriptors = s.descriptors) (hr : t.channel.ranks = s.channel.ranks) (hp : t.straps = s.straps) :
    s.Carries t where
  unique h i j r hr q hq es ec ew := by
    obtain ⟨r', hr', cr⟩ := hslots i r hr
    obtain ⟨q', hq', cq⟩ := hslots j q hq
    refine h i j r' hr' q' hq' ?_ ?_ ?_
    · rw [← cr.surface, ← cq.surface, es]
    · rw [← cr.column, ← cq.column, ec]
    · rw [← cr.row, ← cq.row, ew]
  pixels h i r hr := by
    obtain ⟨q, hq, c⟩ := hslots i r hr
    exact c.pixels (h i q hq)
  descriptors h := by rwa [State.descriptorsCanonical, hd]
  rows h := by rwa [State.openRowsInRange, hr, hp]

/-- A change of anything but slots, descriptors, ranks and straps carries everything over. -/
theorem of_eq (hs : t.slots = s.slots) (hd : t.descriptors = s.descriptors)
    (hr : t.channel.ranks = s.channel.ranks) (hp : t.straps = s.straps) : s.Carries t :=
  of_slots (fun _ r h => ⟨r, hs ▸ h, .of_eq rfl rfl rfl rfl⟩) hd hr hp

/-- Before an operation, a change of anything but slots, descriptors, ranks and straps does no harm. -/
theorem after (k : t.Carries u) (hs : t.slots = s.slots := by simp) (hd : t.descriptors = s.descriptors := by simp)
    (hr : t.channel.ranks = s.channel.ranks := by simp) (hp : t.straps = s.straps := by simp) : s.Carries u :=
  (of_eq hs hd hr hp).trans k

/-- Nor does it after an operation. -/
theorem before (k : s.Carries t) (hs : u.slots = t.slots := by simp) (hd : u.descriptors = t.descriptors := by simp)
    (hr : u.channel.ranks = t.channel.ranks := by simp) (hp : u.straps = t.straps := by simp) : s.Carries u :=
  k.trans (of_eq hs hd hr hp)

theorem ite {c : Prop} {_ : Decidable c} (h : s.Carries t) (k : s.Carries u) : s.Carries (if c then t else u) := by
  split
  · exact h
  · exact k

/-- A fold whose every step carries over does. -/
theorem foldl {α : Type} (f : State → α → State) (h : ∀ (v : State) a, v.Carries (f v a)) (l : List α)
    (s : State) :
    s.Carries (l.foldl f s) := by
  induction l generalizing s with
  | nil => exact refl s
  | cons a l ih => exact (h s a).trans (ih (f s a))

theorem forSlots {f : Fin 64 → State → State} (h : ∀ i (v : State), v.Carries (f i v)) (s : State) :
    s.Carries (s.forSlots f) :=
  foldl (fun v i => f i v) (fun v i => h i v) allSlots s

theorem forHeads {f : Fin 4 → State → State} (h : ∀ i (v : State), v.Carries (f i v)) (s : State) :
    s.Carries (s.forHeads f) :=
  foldl (fun v i => f i v) (fun v i => h i v) allHeads s

end State.Carries

/-! ### Operations on slots -/

/-- A change to one record that keeps its tile. -/
theorem State.updRecord_carries (s : State) (i : Fin 64) (f : Record → Record)
    (hf : ∀ q ∈ s.slots.look i, (f q).Continues q) : s.Carries (s.updRecord i f) := by
  refine .of_slots (fun j r hr => ?_) rfl rfl rfl
  by_cases hj : j = i
  · subst hj
    simp only [State.updRecord, Table.look_upd_self, Option.mem_def, Option.map_eq_some_iff] at hr
    obtain ⟨q, hq, rfl⟩ := hr
    exact ⟨q, hq, hf q hq⟩
  · simp only [State.updRecord, Table.look_upd_ne _ hj] at hr
    exact ⟨r, hr, .of_eq rfl rfl rfl rfl⟩

/-- A freed slot holds no record, and every other slot keeps its own. -/
theorem State.freeSlot_carries (s : State) (i : Fin 64) : s.Carries (s.freeSlot i) := by
  refine .of_slots (fun j r hr => ?_) rfl rfl rfl
  by_cases hj : j = i
  · subst hj
    simp [State.freeSlot] at hr
  · simp only [State.freeSlot, Table.look_put_ne _ hj] at hr
    exact ⟨r, hr, .of_eq rfl rfl rfl rfl⟩

theorem State.release_carries (s : State) (i : Fin 64) (r : Record) : s.Carries (s.release i r) :=
  .before (s.freeSlot_carries i)

theorem State.abandonCapture_carries (s : State) (i : Fin 64) (r : Record) : s.Carries (s.abandonCapture i r) :=
  (s.release_carries i r).before

theorem State.withdrawSlot_carries (s : State) (i : Fin 64) : s.Carries (s.withdrawSlot i) := by
  unfold State.withdrawSlot
  split
  next => exact .refl s
  next r _ =>
    split
    · exact s.abandonCapture_carries i r
    · exact .after ((s.dropCaptured i).release_carries i r)
    · exact .after ((s.dropDeferred r.head i).release_carries i r)
    · exact .after ((s.dropQueued r.head i).release_carries i r)
    · exact s.updRecord_carries i _ fun q _ => .of_eq rfl rfl rfl rfl
    · exact .refl s

theorem State.withdrawWhere_carries (s : State) (p : Record → Bool) : s.Carries (s.withdrawWhere p) := by
  refine .forSlots (fun i v => ?_) s
  split
  · split
    · exact v.withdrawSlot_carries i
    · exact .refl v
  · exact .refl v

theorem State.withdrawAtLinkLoss_carries (s : State) : s.Carries s.withdrawAtLinkLoss := by
  refine .forSlots (fun i v => ?_) s
  split
  next r _ =>
    split
    · exact v.release_carries i r
    · exact v.withdrawSlot_carries i
  next => exact .refl v

theorem State.abandonWhere_carries (s : State) (p : Record → Bool) : s.Carries (s.abandonWhere p) := by
  refine .forSlots (fun i v => ?_) s
  split
  next r _ =>
    split
    · exact v.abandonCapture_carries i r
    · exact .refl v
  next => exact .refl v

/-! ### The send arbiter and the Budget Unit -/

theorem State.beginTile_carries (s : State) (c : HeadClass) (h : Fin 4) (i : Fin 64) (rest : List (Fin 64)) :
    s.Carries (s.beginTile c h i rest) :=
  .after (State.updRecord_carries _ i _ fun _ _ => .of_eq rfl rfl rfl rfl)

theorem State.sendTile_carries (s : State) (l : List HeadClass) : s.Carries (s.sendTile l) := by
  induction l with
  | nil => exact .refl s
  | cons c l ih =>
    rw [State.sendTile]
    split
    · split
      · exact s.beginTile_carries ..
      · exact .refl s
    · exact ih

theorem State.beginControl_carries (s : State) (f : ControlFrame) : s.Carries (s.beginControl f) := by
  cases f <;> exact .of_eq rfl rfl rfl rfl

theorem State.sendDecision_carries (s : State) : s.Carries s.sendDecision := by
  unfold State.sendDecision
  split
  · exact .refl s
  · split
    next f rest _ => exact .after (State.beginControl_carries _ f)
    next =>
      split
      · exact s.sendTile_carries _
      · exact .refl s
  · exact .refl s

theorem State.joinSendFifo_carries (s : State) (h : Fin 4) (i : Fin 64) : s.Carries (s.joinSendFifo h i) :=
  .after (State.sendDecision_carries _)

theorem State.charge_carries (s : State) (h : Fin 4) (i : Fin 64) (d : Decision) : s.Carries (s.charge h i d) := by
  unfold State.charge
  refine .trans ?_ (State.joinSendFifo_carries _ h i)
  exact .after (State.updRecord_carries _ i _ fun _ _ => .of_eq rfl rfl rfl rfl)

theorem State.defer_carries (s : State) (h : Fin 4) (i : Fin 64) (f : CodedForms) : s.Carries (s.defer h i f) := by
  refine .before (s.updRecord_carries i (fun r => { r with state := .deferred, age := 0 })
    fun _ _ => .of_eq rfl rfl rfl rfl) ?_
  simp [State.defer]

theorem State.encodeDecision_carries (s : State) (i : Fin 64) (r : Record) (f : CodedForms) :
    s.Carries (s.encodeDecision i r f) := by
  unfold State.encodeDecision
  dsimp only
  split
  · exact s.defer_carries r.head i f
  · split
    next d _ => exact .after ((s.addDemand r.head d.frameSize).charge_carries r.head i d)
    next => exact s.defer_carries r.head i f

theorem State.abandonDeferral_carries (s : State) (i : Fin 64) (r : Record) : s.Carries (s.abandonDeferral i r) := by
  unfold State.abandonDeferral
  exact .before (.after ((s.dropDeferred r.head i).release_carries i r))

theorem State.freeDeferredRefines_carries (s : State) (h : Fin 4) : s.Carries (s.freeDeferredRefines h) := by
  refine .foldl _ (fun v i => ?_) _ s
  split
  next r _ =>
    split
    · exact .after ((v.dropDeferred r.head i).freeSlot_carries i)
    · exact .refl v
  next => exact .refl v

theorem State.tryDeferred_carries (s : State) (h : Fin 4) (l : List (Fin 64)) : s.Carries (s.tryDeferred h l) := by
  induction l generalizing s with
  | nil => exact .refl s
  | cons i l ih =>
    rw [State.tryDeferred]
    repeat' split
    next d _ =>
      exact .after (((s.dropDeferred h i).charge_carries h i d).trans (ih _))
    all_goals exact .refl s

theorem State.ageDeferred_carries (s : State) (i : Fin 64) : s.Carries (s.ageDeferred i) := by
  unfold State.ageDeferred
  split
  next r hr =>
    dsimp only
    split
    · exact s.abandonDeferral_carries i _
    · refine s.updRecord_carries i _ fun q hq => ?_
      obtain rfl : r = q := Option.some.inj (hr.symm.trans hq)
      exact .of_eq rfl rfl rfl rfl
  next => exact .refl s

theorem State.reevaluate_carries (s : State) (h : Fin 4) : s.Carries (s.reevaluate h) := by
  unfold State.reevaluate
  dsimp only
  refine .trans (t := if s.budget.overrideActive then s.freeDeferredRefines h else s) ?_
    (.trans (State.tryDeferred_carries _ h _) (.foldl _ (fun v i => v.ageDeferred_carries i) _ _))
  split
  · exact s.freeDeferredRefines_carries h
  · exact .refl s

/-! ### The Tile Coder and the Capture Unit -/

theorem State.startEncoder_carries (s : State) : s.Carries s.startEncoder := by
  unfold State.startEncoder
  split
  · exact .after (State.updRecord_carries _ _ _ fun _ _ => .of_eq rfl rfl rfl rfl)
  · exact .refl s

theorem State.joinEncodeQueue_carries (s : State) (i : Fin 64) : s.Carries (s.joinEncodeQueue i) :=
  .after (State.startEncoder_carries _)

theorem State.finishEncoding_carries (s : State) (i : Fin 64) : s.Carries (s.finishEncoding i) := by
  unfold State.finishEncoding
  split
  next r _ =>
    dsimp only
    split
    · exact s.release_carries i r
    · refine .trans ?_ (State.encodeDecision_carries _ i _ _)
      exact s.updRecord_carries i _ fun _ _ => .of_eq rfl rfl rfl rfl
  next => exact .refl s

theorem State.tear_carries (s : State) (id : Fin 16) (c w : Nat) : s.Carries (s.tear id c w) := by
  unfold State.tear
  split
  next => exact .refl s
  next i _ =>
    split
    next r _ =>
      split
      · exact .before (s.freeSlot_carries i)
      · exact .refl s
    next => exact .refl s

/-- A fill keeps the tile and writes the pixel store by writes that keep the canonical form. -/
theorem Record.fill_continues (r : Record) (l off : Nat) (data : List Byte) : (r.fill l off data).Continues r :=
  ⟨rfl, rfl, rfl, fun h => Buffer.writeAll_wf h _⟩

theorem State.fillRead_carries (s : State) (id : Fin 16) (line xb : Nat) (data : List Byte) :
    s.Carries (s.fillRead id line xb data) := by
  unfold State.fillRead
  split
  next => exact .refl s
  next f _ =>
    split
    · exact .refl s
    · dsimp only
      split
      next => exact .refl s
      next i _ =>
        split
        next => exact .refl s
        next r hr =>
          have fills : ∀ q ∈ s.slots.look i,
              (r.fill (line % 32) (xb % (32 * f.geometry.format.bytesPerPixel)) data).Continues q := by
            intro q hq
            obtain rfl : r = q := Option.some.inj (hr.symm.trans hq)
            exact r.fill_continues _ _ _
          split
          · split
            · refine .trans (.before (s.updRecord_carries i (fun _ => { r.fill (line % 32)
                (xb % (32 * f.geometry.format.bytesPerPixel)) data with state := .captured }) fun q hq => ?_))
                (State.joinEncodeQueue_carries _ i)
              exact ⟨(fills q hq).surface, (fills q hq).column, (fills q hq).row, (fills q hq).pixels⟩
            · exact s.updRecord_carries i _ fills
          · exact .refl s

end Sys2Proof.Machine
end

section
/-! SUPPORT. The band start keeps the tiles of the live records distinct (R89, R91): its candidates are tiles of
distinct columns without a live record. -/

namespace Sys2Proof.Machine

/-- No live record stands for a tile. -/
def State.noRecordAt (id : Fin 16) (column row : Nat) (s : State) : Prop :=
  ∀ i, ∀ r ∈ s.slots.look i, ¬ (r.surface = id ∧ r.column = column ∧ r.row = row)

/-- No slot is found for a tile exactly when no live record stands for it. -/
theorem State.liveSlot_eq_none_iff (id : Fin 16) (column row : Nat) (s : State) :
    s.liveSlot id column row = none ↔ s.noRecordAt id column row := by
  simp only [State.liveSlot, State.noRecordAt, allSlots, List.find?_eq_none, List.mem_finRange, true_imp_iff,
    Option.mem_def]
  refine forall_congr' fun i => ?_
  cases s.slots.look i <;> simp [and_assoc]

theorem State.unserved_iff (b : BandStart) (s : State) (column : Nat) :
    s.unserved b column = true ↔ s.noRecordAt b.surface column b.band := by
  rw [← State.liveSlot_eq_none_iff, State.unserved, Option.isNone_iff_eq_none]

/-! ### The candidates -/

/-- The rover order names each column once. -/
theorem BandStart.columns_nodup (b : BandStart) : b.columns.Nodup := by
  refine (List.nodup_range.filter _).append (List.nodup_range.filter _) fun c hge hlt => ?_
  simp only [List.mem_filter, decide_eq_true_eq] at hge hlt
  omega

theorem State.neighbourCandidates_nodup (b : BandStart) (s : State) : (s.neighbourCandidates b).Nodup := by
  unfold State.neighbourCandidates
  split
  · split
    · exact List.nodup_range.filter _
    · exact List.nodup_nil
  · exact List.nodup_nil

theorem State.staleCandidate_of_mem_neighbours {b : BandStart} {s : State} {c : Nat}
    (h : c ∈ s.neighbourCandidates b) : s.staleCandidate b c = true := by
  unfold State.neighbourCandidates at h
  split at h
  · split at h
    · simp only [List.mem_filter, Bool.and_eq_true] at h
      exact h.2.2
    · simp at h
  · simp at h

theorem State.mem_roverCandidates {b : BandStart} {s : State} {c : Nat} (h : c ∈ s.roverCandidates b) :
    s.staleCandidate b c = true ∧ c ∉ s.neighbourCandidates b := by
  simpa using (List.mem_filter.1 h).2

theorem State.mem_refineCandidates {b : BandStart} {s : State} {c : Nat} (h : c ∈ s.refineCandidates b) :
    b.entry.isStale c b.band = false ∧ s.unserved b c = true := by
  unfold State.refineCandidates at h
  split at h
  · simp only [List.mem_filter, Bool.and_eq_true, Bool.not_eq_true'] at h
    exact h.2.1
  · simp at h

theorem State.refineCandidates_nodup (b : BandStart) (s : State) : (s.refineCandidates b).Nodup := by
  unfold State.refineCandidates
  split
  · exact b.columns_nodup.filter _
  · exact List.nodup_nil

/-- The columns of the candidates, in order. -/
theorem State.candidates_columns (b : BandStart) (s : State) :
    (s.candidates b).map Candidate.column =
      s.neighbourCandidates b ++ s.roverCandidates b ++ s.refineCandidates b := by
  simp [State.candidates, Function.comp_def]

/-- No two candidates of a band start have one column: step 2 leaves out those of step 1, and step 3 takes tiles that
are not stale, steps 1 and 2 stale ones (R89). -/
theorem State.candidates_columns_nodup (b : BandStart) (s : State) :
    ((s.candidates b).map Candidate.column).Nodup := by
  rw [State.candidates_columns]
  have rover : (s.roverCandidates b).Nodup := b.columns_nodup.filter _
  refine ((s.neighbourCandidates_nodup b).append rover fun c hn hr => (State.mem_roverCandidates hr).2 hn).append
    (s.refineCandidates_nodup b) fun c hs hr => ?_
  have stale : s.staleCandidate b c = true := by
    rcases List.mem_append.1 hs with hn | hv
    · exact State.staleCandidate_of_mem_neighbours hn
    · exact (State.mem_roverCandidates hv).1
  simp [State.staleCandidate, (State.mem_refineCandidates hr).1] at stale

/-- A candidate's tile has no live record (R89). -/
theorem State.candidates_unserved {b : BandStart} {s : State} {c : Candidate} (h : c ∈ s.candidates b) :
    s.noRecordAt b.surface c.column b.band := by
  rw [← State.unserved_iff]
  have hm : c.column ∈ s.neighbourCandidates b ++ s.roverCandidates b ++ s.refineCandidates b :=
    s.candidates_columns b ▸ List.mem_map_of_mem h
  have ofStale : s.staleCandidate b c.column = true → s.unserved b c.column = true := fun h =>
    (Bool.and_eq_true _ _ ▸ h).2
  rcases List.mem_append.1 hm with hm | hm
  · rcases List.mem_append.1 hm with hm | hm
    · exact ofStale (State.staleCandidate_of_mem_neighbours hm)
    · exact ofStale (State.mem_roverCandidates hm).1
  · exact (State.mem_refineCandidates hm).2

/-! ### The allocations -/

/-- The second parts of a zip come from the second list, in its order. -/
theorem map_snd_zip_sublist {α β : Type} (l : List α) (m : List β) : ((l.zip m).map Prod.snd).Sublist m := by
  induction l generalizing m with
  | nil => simp
  | cons a l ih =>
    cases m with
    | nil => simp
    | cons b m => simpa using ih m

theorem State.allocate_slots (s : State) (b : BandStart) (i : Fin 64) (c : Candidate) :
    (s.allocate b i c).slots = s.slots.put i (some (b.record c)) := rfl

/-- A record after an allocation is the one allocated or stood there before. -/
theorem State.mem_allocate {s : State} {b : BandStart} {i j : Fin 64} {c : Candidate} {r : Record}
    (h : r ∈ (s.allocate b i c).slots.look j) : (j = i ∧ r = b.record c) ∨ r ∈ s.slots.look j := by
  rw [State.allocate_slots, Table.look_put] at h
  split at h
  next e => exact .inl ⟨e, (Option.some.inj h).symm⟩
  next => exact .inr h

/-- An allocation of a tile without a live record keeps the tiles distinct. -/
theorem State.allocate_unique {s : State} (b : BandStart) (i : Fin 64) (c : Candidate) (hu : s.recordsUnique)
    (hn : s.noRecordAt b.surface c.column b.band) : (s.allocate b i c).recordsUnique := by
  intro j k r hr q hq es ec ew
  rcases State.mem_allocate hr with ⟨rfl, rfl⟩ | hr' <;> rcases State.mem_allocate hq with ⟨rfl, rfl⟩ | hq'
  · rfl
  · exact absurd ⟨es.symm, ec.symm, ew.symm⟩ (hn k q hq')
  · exact absurd ⟨es, ec, ew⟩ (hn j r hr')
  · exact hu j k r hr' q hq' es ec ew

/-- An allocation leaves the tiles of other columns without a record. -/
theorem State.allocate_noRecordAt {s : State} {b : BandStart} {i : Fin 64} {c : Candidate} {column : Nat}
    (hc : column ≠ c.column) (hn : s.noRecordAt b.surface column b.band) :
    (s.allocate b i c).noRecordAt b.surface column b.band := by
  intro j r hr
  rcases State.mem_allocate hr with ⟨rfl, rfl⟩ | hr
  · exact fun h => hc h.2.1.symm
  · exact hn j r hr

/-- Allocations of distinct columns without live records keep the tiles distinct. -/
theorem State.allocateEach_unique (b : BandStart) (l : List (Fin 64 × Candidate)) (s : State)
    (hu : s.recordsUnique) (hd : (l.map fun a => a.2.column).Nodup)
    (hn : ∀ a ∈ l, s.noRecordAt b.surface a.2.column b.band) :
    (l.foldl (fun s a => s.allocate b a.1 a.2) s).recordsUnique := by
  induction l generalizing s with
  | nil => exact hu
  | cons a l ih =>
    obtain ⟨hfresh, hd⟩ := List.nodup_cons.1 hd
    refine ih _ (State.allocate_unique b a.1 a.2 hu (hn a (by simp))) hd fun e he => ?_
    exact State.allocate_noRecordAt (fun h => hfresh (List.mem_map.2 ⟨e, he, h⟩)) (hn e (by simp [he]))

/-- A new record has an empty pixel store. -/
theorem State.allocate_pixels {s : State} (b : BandStart) (i : Fin 64) (c : Candidate) (h : s.pixelsCanonical) :
    (s.allocate b i c).pixelsCanonical := by
  intro j r hr
  rcases State.mem_allocate hr with ⟨-, rfl⟩ | hr
  · exact Buffer.wf_nil
  · exact h j r hr

theorem State.allocateEach_pixels (b : BandStart) (l : List (Fin 64 × Candidate)) (s : State)
    (h : s.pixelsCanonical) : (l.foldl (fun s a => s.allocate b a.1 a.2) s).pixelsCanonical := by
  induction l generalizing s with
  | nil => exact h
  | cons a l ih => exact ih _ (State.allocate_pixels b a.1 a.2 h)

theorem State.serveBand_carries (s : State) (b : BandStart) : s.Carries (s.serveBand b) where
  unique h := by
    have zipped : ((s.freeSlots.zip ((s.candidates b).take (s.allocationCount b))).map fun a => a.2.column).Sublist
        ((s.candidates b).map Candidate.column) := by
      rw [← Function.comp_def Candidate.column Prod.snd, ← List.map_map]
      exact ((map_snd_zip_sublist _ _).trans (List.take_sublist _ _)).map _
    refine State.allocateEach_unique b _ s h ((s.candidates_columns_nodup b).sublist zipped) fun a ha => ?_
    exact State.candidates_unserved (List.mem_of_mem_take (List.of_mem_zip ha).2)
  pixels h := State.allocateEach_pixels b _ s h
  descriptors h := by
    have hd : (s.serveBand b).descriptors = s.descriptors := by simp
    rwa [State.descriptorsCanonical, hd]
  rows h := by
    have hr : (s.serveBand b).channel = s.channel ∧ (s.serveBand b).straps = s.straps := by simp
    rwa [State.openRowsInRange, hr.1, hr.2]

theorem State.bandStart_carries (s : State) (h : Fin 4) (band : Nat) : s.Carries (s.bandStart h band) := by
  unfold State.bandStart
  split
  · split
    · exact s.serveBand_carries _
    · exact .refl s
  · exact .refl s

end Sys2Proof.Machine
end

section
/-! SUPPORT. Each command carries over what a step keeps of records, byte buffers and OPEN rows, and with them a
step. -/

namespace Sys2Proof.Machine

/-- Every state an outcome leads to carries over from `s`. -/
def State.leadsOnlyTo (s : State) (o : Host.Outcome State Fault Refusal) : Prop := ∀ t, o = .next t → s.Carries t

@[simp] theorem State.leadsOnlyTo_next (s t : State) : s.leadsOnlyTo (.next t) ↔ s.Carries t :=
  ⟨fun h => h t rfl, by rintro h _ ⟨⟩; exact h⟩

/-- A command that changes neither slots, descriptors, ranks nor straps. -/
theorem State.leadsOnlyTo_of_eq {s t : State} (hs : t.slots = s.slots := by simp)
    (hd : t.descriptors = s.descriptors := by simp) (hr : t.channel.ranks = s.channel.ranks := by simp)
    (hp : t.straps = s.straps := by simp) : s.leadsOnlyTo (.next t) :=
  (s.leadsOnlyTo_next t).2 (.of_eq hs hd hr hp)

theorem State.leadsOnlyTo_self (s : State) : s.leadsOnlyTo (.next s) := (s.leadsOnlyTo_next s).2 (.refl s)

theorem State.raise_carries (s : State) (e : Event) : s.Carries (s.raise e) :=
  .of_eq (by simp) (by simp) (by simp) (by simp)

/-! ### The Channel Follower -/

/-- A change to one rank after which every OPEN bank was OPEN with that row before or has a row in range (R3). -/
theorem State.updRank_carries (s : State) (r : Fin 2) (f : Rank → Rank)
    (hf : ∀ b w, (f (s.channel.ranks.look r)).banks.look b = some w →
      (s.channel.ranks.look r).banks.look b = some w ∨ w < s.straps.rowCount) : s.Carries (s.updRank r f) where
  unique := id
  pixels := id
  descriptors := id
  rows h q b w hw := by
    rw [State.updRank_ranks, Table.look_upd] at hw
    split at hw
    next e =>
      rcases hf b w hw with hw | hw
      · exact h r b w hw
      · exact hw
    next => exact h q b w hw

/-- A change to both ranks that opens no bank. -/
theorem State.updRanks_carries (s : State) (f : Rank → Rank)
    (hf : ∀ k b w, (f k).banks.look b = some w → k.banks.look b = some w) : s.Carries (s.updRanks f) where
  unique := id
  pixels := id
  descriptors := id
  rows h q b w hw := by
    rw [Option.mem_def, State.updRanks_ranks] at hw
    exact h q b w (hf _ b w hw)

theorem State.allToSeek_carries (s : State) : s.Carries s.allToSeek := by
  refine .forHeads (fun h v => ?_) s
  split
  · exact .of_eq rfl rfl rfl rfl
  · exact .refl v

theorem State.loseChannel_carries (s : State) : s.Carries s.loseChannel :=
  .after (.trans (State.abandonWhere_carries _ _) (State.allToSeek_carries _))

theorem State.leaveFollowing_carries (s : State) : s.Carries s.leaveFollowing := by
  unfold State.leaveFollowing
  refine .trans (.trans (.trans ?_ (State.updRanks_carries _ _ ?_)) (State.loseChannel_carries _))
    (State.raise_carries _ _)
  · exact .of_eq rfl rfl rfl rfl
  · exact fun _ _ _ h => h

theorem State.blindMarking_carries (s : State) : s.Carries s.blindMarking :=
  .after (State.withdrawWhere_carries _ _)

theorem State.enterFollowing_carries (s : State) : s.Carries s.enterFollowing := by
  unfold State.enterFollowing
  exact .trans (.after (State.blindMarking_carries _)) (State.raise_carries _ _)

theorem State.testFollowing_carries (s : State) : s.Carries s.testFollowing := by
  unfold State.testFollowing
  split
  · exact s.enterFollowing_carries
  · exact .refl s

theorem State.clearKnown_carries (s : State) (a : Anomaly) : s.Carries (s.clearKnown a) :=
  .foldl _ (fun v r => v.updRank_carries r _ fun _ _ h => .inl h) a.ranks s

theorem State.setKnown_carries (s : State) (y : Beyond) : s.Carries (s.setKnown y) := by
  unfold State.setKnown
  split
  · exact s.updRank_carries _ _ fun _ _ h => .inl h
  · exact .refl s

theorem State.takeBlind_carries {s : State} (a : Anomaly) {effect : State → State} (y : Beyond) (counted : Bool)
    (he : s.Carries (effect s)) : s.Carries (s.takeBlind a effect y counted) := by
  have counts : (effect s).Carries (if counted then (effect s).count .anomalies else effect s) := by
    split
    · exact .of_eq rfl rfl rfl rfl
    · exact .refl _
  have flags := (he.trans counts).trans ((State.clearKnown_carries _ a).trans (State.setKnown_carries _ y))
  unfold State.takeBlind
  dsimp only
  split
  · exact flags
  · exact flags.trans (State.testFollowing_carries _)

/-- A command taken by the follower carries over what its effect does. -/
theorem State.takeCommand_carries {s : State} (a : Anomaly) {effect : State → State} (y : Beyond)
    (he : s.Carries (effect s)) : s.Carries (s.takeCommand a effect y) := by
  unfold State.takeCommand
  split
  · dsimp only
    split
    · exact he.trans (State.leaveFollowing_carries _)
    · exact he
  · exact State.takeBlind_carries a y _ he
  · exact State.takeBlind_carries a y _ he

theorem State.onRank_carries (s : State) (rank : Nat) {f : Fin 2 → State → State} (hf : ∀ r, s.Carries (f r s)) :
    s.Carries (s.onRank rank f) := by
  unfold State.onRank
  split
  · exact hf _
  · exact .refl s

/-- A bank that is set becomes CLOSED or takes its new row; the others stay. -/
theorem Rank.look_setBank {k : Rank} {b c : Fin 8} {o : Option Nat} {w : Nat}
    (h : (k.setBank b o).banks.look c = some w) : k.banks.look c = some w ∨ o = some w := by
  rw [Rank.setBank, Table.look_put] at h
  split at h
  · exact .inr h
  · exact .inl h

theorem Straps.rowOf_lt (p : Straps) (row : BitVec 16) : p.rowOf row < p.rowCount :=
  Nat.mod_lt _ (Nat.two_pow_pos _)

/-- The effect of a WRITE or READ on its rank closes a bank or leaves the banks. -/
theorem State.closeOrAwake_carries (s : State) (r : Fin 2) (bank : Fin 8) (close : Bool) :
    s.Carries (s.updRank r fun k => if close then k.awake.setBank bank none else k.awake) := by
  refine s.updRank_carries r _ fun b w h => .inl ?_
  cases close with
  | false => exact h
  | true => exact (Rank.look_setBank h).resolve_right (by simp)

theorem State.takeWriteCommand_carries (s : State) (r : Fin 2) (bank : Fin 8) (column : BitVec 11) (chop close : Bool) :
    s.Carries (s.takeWriteCommand r bank column chop close) := by
  unfold State.takeWriteCommand
  refine State.takeCommand_carries _ _ ?_
  dsimp only
  split
  · split
    · exact .before (s.closeOrAwake_carries r bank close)
    · exact s.closeOrAwake_carries r bank close
  · exact s.closeOrAwake_carries r bank close

theorem State.takeReadCommand_carries (s : State) (r : Fin 2) (bank : Fin 8) (column : BitVec 11) (chop close : Bool) :
    s.Carries (s.takeReadCommand r bank column chop close) := by
  unfold State.takeReadCommand
  refine State.takeCommand_carries _ _ ?_
  dsimp only
  split
  · split
    · exact .before (s.closeOrAwake_carries r bank close)
    · exact s.closeOrAwake_carries r bank close
  · exact s.closeOrAwake_carries r bank close

theorem execActivate_carries (rank : Nat) (bank : Fin 8) (row : BitVec 16) (s : State) :
    s.leadsOnlyTo (execActivate rank bank row s) := by
  refine (s.leadsOnlyTo_next _).2 (s.onRank_carries rank fun r => State.takeCommand_carries _ _ ?_)
  refine s.updRank_carries r _ fun b w h => (Rank.look_setBank h).imp_right fun e => ?_
  rw [← Option.some.inj e]
  exact Straps.rowOf_lt _ _

theorem execPrecharge_carries (rank : Nat) (bank : Fin 8) (s : State) : s.leadsOnlyTo (execPrecharge rank bank s) := by
  refine (s.leadsOnlyTo_next _).2 (s.onRank_carries rank fun r => State.takeCommand_carries _ _ ?_)
  exact s.updRank_carries r _ fun b w h => .inl ((Rank.look_setBank h).resolve_right (by simp))

theorem execPrechargeAll_carries (rank : Nat) (s : State) : s.leadsOnlyTo (execPrechargeAll rank s) := by
  refine (s.leadsOnlyTo_next _).2 (s.onRank_carries rank fun r => State.takeCommand_carries _ _ ?_)
  exact s.updRank_carries r _ fun b w h => by simp [Rank.closeAll] at h

theorem execRefresh_carries (rank : Nat) (s : State) : s.leadsOnlyTo (execRefresh rank s) :=
  (s.leadsOnlyTo_next _).2 (s.onRank_carries rank fun r => State.takeCommand_carries _ _
    (s.updRank_carries r _ fun _ _ h => .inl h))

theorem execPowerDownEntry_carries (rank : Nat) (s : State) : s.leadsOnlyTo (execPowerDownEntry rank s) :=
  (s.leadsOnlyTo_next _).2 (s.onRank_carries rank fun r => State.takeCommand_carries _ _
    (s.updRank_carries r _ fun _ _ h => .inl h))

theorem execPowerDownExit_carries (rank : Nat) (s : State) : s.leadsOnlyTo (execPowerDownExit rank s) :=
  (s.leadsOnlyTo_next _).2 (s.onRank_carries rank fun r => State.takeCommand_carries _ _
    (s.updRank_carries r _ fun _ _ h => .inl h))

theorem execSelfRefreshEntry_carries (rank : Nat) (s : State) : s.leadsOnlyTo (execSelfRefreshEntry rank s) :=
  (s.leadsOnlyTo_next _).2 (s.onRank_carries rank fun r => State.takeCommand_carries _ _
    (s.updRank_carries r _ fun _ _ h => .inl h))

theorem execSelfRefreshExit_carries (rank : Nat) (s : State) : s.leadsOnlyTo (execSelfRefreshExit rank s) :=
  (s.leadsOnlyTo_next _).2 (s.onRank_carries rank fun r => State.takeCommand_carries _ _
    (s.updRank_carries r _ fun _ _ h => .inl h))

theorem execModeSet_carries (register : Fin 4) (value : BitVec 16) (s : State) :
    s.leadsOnlyTo (execModeSet register value s) := by
  unfold execModeSet
  split
  · exact s.leadsOnlyTo_self
  · exact (s.leadsOnlyTo_next _).2 (State.takeCommand_carries _ _
      (.before (s.updRanks_carries Rank.awake fun _ _ _ h => h)))

theorem State.assertMemoryReset_carries (s : State) : s.Carries s.assertMemoryReset := by
  unfold State.assertMemoryReset
  refine .trans (.trans (.trans ?_ (State.updRanks_carries _ _ ?_)) (State.loseChannel_carries _))
    (State.raise_carries _ _)
  · exact .of_eq rfl rfl rfl rfl
  · exact fun k b w h => by simp [Rank.closeAll] at h

/-! ### Part reset -/

/-- A state with every slot FREE, every descriptor slot empty and every bank CLOSED is reached from any. -/
theorem State.carries_initial (s : State) (p : Straps) (line ready : Bool) :
    s.Carries (State.initial p line ready) where
  unique _ i j r hr := by simp [State.initial] at hr
  pixels _ i r hr := by simp [State.initial] at hr
  descriptors _ i := by simp [State.initial, DescriptorSlot.reset, Buffer.wf]
  rows _ r b w hw := by simp [State.initial, Channel.reset, Rank.reset] at hw

theorem execPartReset_carries (p : Straps) (line ready : Bool) (s : State) :
    s.leadsOnlyTo (execPartReset p line ready s) := by
  have fresh : s.Carries { State.initial p line ready with pending := s.pending } :=
    (s.carries_initial p line ready).before
  refine (s.leadsOnlyTo_next _).2 (.before (t := if line then
    State.assertMemoryReset { State.initial p line ready with pending := s.pending }
    else { State.initial p line ready with pending := s.pending }) ?_)
  split
  · exact fresh.trans (State.assertMemoryReset_carries _)
  · exact fresh

/-! ### Observed writes and reads -/

theorem State.offerNotice_carries (s : State) (n : Notice) : s.Carries (s.offerNotice n) :=
  .of_eq rfl rfl rfl rfl

/-- A descriptor slot takes bytes that are in canonical form when those of `s` are. -/
theorem State.Carries.putDescriptor {s t : State} (k : s.Carries t) (i : Fin 16) {d : DescriptorSlot}
    (hd : s.descriptorsCanonical → d.bytes.wf) :
    s.Carries { t with descriptors := t.descriptors.put i d } where
  unique := k.unique
  pixels := k.pixels
  descriptors h j := by
    dsimp only
    rw [Table.look_put]
    split
    · exact hd h
    · exact k.descriptors h j
  rows := k.rows

theorem State.withdrawSurface_carries (s : State) (id : Fin 16) : s.Carries (s.withdrawSurface id) :=
  s.withdrawWhere_carries _

theorem State.withdrawFlipSet_carries (s : State) (ids : List (Fin 16)) : s.Carries (s.withdrawFlipSet ids) :=
  s.withdrawWhere_carries _

theorem State.loseShown_carries (s : State) (h : Fin 4) : s.Carries (s.loseShown h) :=
  .of_eq (by simp [State.loseShown]) (by simp [State.loseShown]) (by simp [State.loseShown])
    (by simp [State.loseShown])

theorem State.regrow_carries (s : State) (h : Fin 4) (g : Geometry) (queued : Bool) :
    s.Carries (s.regrow h g queued) := by
  unfold State.regrow
  dsimp only
  split
  · exact .of_eq rfl rfl rfl rfl
  · exact .of_eq (by simp) (by simp) (by simp) (by simp)

theorem State.declare_carries (s : State) (id : Fin 16) (f : Surface) : s.Carries (s.declare id f) :=
  .of_eq rfl rfl rfl rfl

theorem State.redeclare_carries (s : State) (id : Fin 16) (old f : Surface) : s.Carries (s.redeclare id old f) := by
  have declared : s.Carries ((s.withdrawSurface id).declare id { f with owner := old.owner }) :=
    (s.withdrawSurface_carries id).trans (State.declare_carries _ id _)
  unfold State.redeclare
  dsimp only
  split
  next => exact declared
  next h _ =>
    have waits : s.Carries (if decide ((((s.withdrawSurface id).declare id
        { f with owner := old.owner }).heads.look h).shown = some id) = true
        then ((s.withdrawSurface id).declare id { f with owner := old.owner }).loseShown h
        else (s.withdrawSurface id).declare id { f with owner := old.owner }) := by
      split
      · exact declared.trans (State.loseShown_carries _ h)
      · exact declared
    split
    · exact waits.trans (State.regrow_carries _ h _ _)
    · exact waits

theorem State.takeSurface_carries (s : State) (d : DescriptorSlot) : s.Carries (s.takeSurface d) := by
  unfold State.takeSurface
  split
  · exact .refl s
  · split
    · exact .of_eq rfl rfl rfl rfl
    · exact s.redeclare_carries _ _ _

theorem State.defineHead_carries (s : State) (h : Fin 4) (ids : List (Fin 16)) : s.Carries (s.defineHead h ids) := by
  unfold State.defineHead
  dsimp only
  split
  · exact .before (s.withdrawFlipSet_carries (s.heads.look h).flipSet) (by simp [State.requestRecompute])
      (by simp [State.requestRecompute]) (by simp [State.requestRecompute]) (by simp [State.requestRecompute])
  · exact .before (s.withdrawFlipSet_carries (s.heads.look h).flipSet) (by simp [State.requestRecompute])
      (by simp [State.requestRecompute]) (by simp [State.requestRecompute]) (by simp [State.requestRecompute])

theorem State.removeHead_carries (s : State) (h : Fin 4) : s.Carries (s.removeHead h) :=
  .before (s.withdrawFlipSet_carries (s.heads.look h).flipSet) (by simp [State.removeHead, State.requestRecompute])
    (by simp [State.removeHead, State.requestRecompute]) (by simp [State.removeHead, State.requestRecompute])
    (by simp [State.removeHead, State.requestRecompute])

theorem State.applyDescriptor_carries (s : State) (d : DescriptorSlot) : s.Carries (s.applyDescriptor d) := by
  unfold State.applyDescriptor
  split
  · exact s.takeSurface_carries d
  · unfold State.takeHead
    split
    · exact .refl s
    · exact s.defineHead_carries _ _
  · unfold State.takeWithdrawSurface
    split
    · exact .refl s
    · exact .of_eq rfl rfl rfl rfl
  · unfold State.takeWithdrawHead
    split
    · exact .refl s
    · split
      · exact s.removeHead_carries _
      · exact .refl s
  · exact .refl s

/-- A commit concluded for bytes that are in canonical form when those of `s` are. -/
theorem State.Carries.conclude {s t : State} (k : s.Carries t) (i : Fin 16) {d : DescriptorSlot}
    (hd : s.descriptorsCanonical → d.bytes.wf) : s.Carries (State.conclude i d t) := by
  have applied : s.Carries (if t.checkCommit d = .taken then t.applyDescriptor d else t) :=
    .ite (k.trans (t.applyDescriptor_carries d)) k
  have noticed := (applied.putDescriptor (d := { d with seen := 0, generation := d.byte 56 }) i hd).trans
    (State.offerNotice_carries _ (.outcome i (d.byte 56) (t.checkCommit d)))
  unfold State.conclude
  exact .ite noticed (noticed.trans (State.raise_carries _ .announceRefused))

theorem State.writeSlot_carries (s : State) (i : Fin 16) (off : Nat) (bytes : List (Nat × Byte)) :
    s.Carries (s.writeSlot i off bytes) := by
  have assembled : s.descriptorsCanonical → ((s.descriptors.look i).assemble off bytes).bytes.wf :=
    fun h => Buffer.writeAll_wf (h i) _
  have written := (State.Carries.refl s).putDescriptor i assembled
  unfold State.writeSlot
  exact .ite ((written.conclude i assembled).trans (State.sendDecision_carries _)) written

theorem State.surfaceWrite_carries (s : State) (id : Fin 16) (c w : Nat) : s.Carries (s.surfaceWrite id c w) :=
  .trans (.after ((s.markStale id c w).tear_carries id c w)) (.of_eq rfl rfl rfl rfl)

theorem execObservedWrite_carries (o : WriteCompletion) (s : State) : s.leadsOnlyTo (execObservedWrite o s) := by
  unfold execObservedWrite
  split
  next => exact s.leadsOnlyTo_self
  next b _ =>
    dsimp only
    split
    · refine (s.leadsOnlyTo_next _).2 (.after (t := { s with channel := { s.channel with
        writeBursts := s.channel.writeBursts.eraseIdx o.burst } }) ?_)
      unfold State.takeWrite
      split
      · exact State.writeSlot_carries _ _ _ _
      · unfold State.trackWrite
        split
        · exact State.surfaceWrite_carries _ _ _ _
        · exact .refl _
    · exact State.leadsOnlyTo_of_eq

theorem State.updHead_carries (s : State) (h : Fin 4) (f : Head → Head) : s.Carries (s.updHead h f) :=
  .of_eq rfl rfl rfl rfl

theorem State.frameStartHead_carries (s : State) (h : Fin 4) (id : Fin 16) : s.Carries (s.frameStartHead h id) := by
  unfold State.frameStartHead
  dsimp only
  split
  · split
    · exact .of_eq rfl rfl rfl rfl
    · exact (s.withdrawSurface_carries _).trans (State.updHead_carries _ h _)
  · exact .of_eq rfl rfl rfl rfl

theorem State.offerHead_carries (s : State) (h : Fin 4) : s.Carries (s.offerHead h) :=
  .of_eq (by simp) (by simp) (by simp) (by simp)

theorem State.updScan_carries (s : State) (h : Fin 4) (f : Scan → Scan) : s.Carries (s.updScan h f) :=
  .of_eq rfl rfl rfl rfl

theorem State.frameStart_carries (s : State) (h : Fin 4) (id : Fin 16) (xb : Nat) (data : List Byte) :
    s.Carries (s.frameStart h id xb data) := by
  unfold State.frameStart
  dsimp only
  refine .trans (.trans (.trans (.trans ?_ (State.updScan_carries _ h _)) (State.bandStart_carries _ h 0))
    (State.fillRead_carries _ id 0 xb data)) (State.updScan_carries _ h _)
  have started := ((s.updScan_carries h fun c => { c with
    period := (s.scans.look h).measured s.budget.now, lastStart := some s.budget.now }).trans
    (State.abandonWhere_carries _ fun r => r.head == h)).trans (State.frameStartHead_carries _ h id)
  split
  · exact started.trans (State.offerHead_carries _ h)
  · exact started

theorem State.scanRead_carries (s : State) (h : Fin 4) (id : Fin 16) (line xb : Nat) (data : List Byte) :
    s.Carries (s.scanRead h id line xb data) := by
  unfold State.scanRead
  dsimp only
  refine .trans (.trans ?_ (State.updScan_carries _ h _)) (State.fillRead_carries _ id line xb data)
  split
  · split
    · exact (s.abandonWhere_carries _).trans (State.bandStart_carries _ h _)
    · exact s.abandonWhere_carries _
  · exact .refl s

theorem State.takeRead_carries (s : State) (g : Nat) (data : List Byte) : s.Carries (s.takeRead g data) := by
  unfold State.takeRead
  repeat' split
  · exact .refl s
  · exact .refl s
  · exact .refl s
  · dsimp only
    split
    · exact (s.frameStart_carries _ _ _ _).trans (State.sendDecision_carries _)
    · exact s.scanRead_carries _ _ _ _ _
    · exact .of_eq rfl rfl rfl rfl

theorem execObservedRead_carries (o : ReadCompletion) (s : State) : s.leadsOnlyTo (execObservedRead o s) := by
  unfold execObservedRead
  split
  next => exact s.leadsOnlyTo_self
  next b _ =>
    dsimp only
    split
    · exact (s.leadsOnlyTo_next _).2 (.after (State.takeRead_carries _ _ _))
    · exact State.leadsOnlyTo_of_eq

theorem State.stallHead_carries (s : State) (h : Fin 4) : s.Carries (s.stallHead h) := by
  unfold State.stallHead
  dsimp only
  refine .trans (.trans (.trans (.before (s.abandonWhere_carries fun r => r.head == h) ?_ ?_ ?_ ?_)
    (State.offerHead_carries _ h)) (State.raise_carries _ _)) (State.sendDecision_carries _)
  all_goals simp

theorem execStallTimerExpiry_carries (h : Fin 4) (s : State) : s.leadsOnlyTo (execStallTimerExpiry h s) := by
  unfold execStallTimerExpiry
  split
  · exact s.leadsOnlyTo_self
  · dsimp only
    split
    · exact State.leadsOnlyTo_of_eq
    · exact (s.leadsOnlyTo_next _).2 (.after (State.stallHead_carries _ h))
    · exact State.leadsOnlyTo_of_eq

/-! ### The Tile Coder and the Budget Unit -/

theorem execEncodeCompletion_carries (s : State) : s.leadsOnlyTo (execEncodeCompletion s) := by
  unfold execEncodeCompletion
  split
  next i _ =>
    exact (s.leadsOnlyTo_next _).2
      ((State.Carries.before (s.finishEncoding_carries i)).trans (State.startEncoder_carries _))
  next => exact s.leadsOnlyTo_self

theorem State.tickBudget_carries (s : State) : s.Carries s.tickBudget :=
  .of_eq (by simp) (by simp) (by simp) (by simp)

theorem State.statusTest_carries (s : State) : s.Carries s.statusTest :=
  .of_eq (by simp) (by simp) (by simp) (by simp)

theorem execTick_carries (s : State) : s.leadsOnlyTo (execTick s) := by
  refine (s.leadsOnlyTo_next _).2 ?_
  unfold State.takeTick
  refine .trans (.trans (.trans (.trans ?_ (State.tickBudget_carries _))
    (.forHeads (fun h v => v.reevaluate_carries h) _)) (State.statusTest_carries _)) (State.sendDecision_carries _)
  exact .of_eq (by simp) (by simp) (by simp) (by simp)

theorem execDeferralAbandoned_carries (i : Fin 64) (s : State) : s.leadsOnlyTo (execDeferralAbandoned i s) := by
  unfold execDeferralAbandoned
  split
  · split
    · exact (s.leadsOnlyTo_next _).2 (s.abandonDeferral_carries i _)
    · exact s.leadsOnlyTo_self
  · exact s.leadsOnlyTo_self

theorem execOverrideHoldExpiry_carries (s : State) : s.leadsOnlyTo (execOverrideHoldExpiry s) := by
  unfold execOverrideHoldExpiry
  split
  · exact s.leadsOnlyTo_self
  · exact State.leadsOnlyTo_of_eq

/-! ### The Desk Link -/

theorem execLanesAligned_carries (s : State) : s.leadsOnlyTo (execLanesAligned s) := by
  unfold execLanesAligned
  split
  · exact (s.leadsOnlyTo_next _).2 (.trans (.of_eq (by simp) (by simp) (by simp) (by simp))
      (State.sendDecision_carries _))
  · exact s.leadsOnlyTo_self

theorem State.leaveUp_carries (s : State) : s.Carries s.leaveUp := by
  unfold State.leaveUp
  exact .before s.withdrawAtLinkLoss_carries

theorem execLaneAlignmentLost_carries (lane : Fin 2) (s : State) : s.leadsOnlyTo (execLaneAlignmentLost lane s) := by
  unfold execLaneAlignmentLost
  split
  · dsimp only
    split
    · exact State.leadsOnlyTo_of_eq
    · exact State.leadsOnlyTo_of_eq rfl rfl rfl rfl
    · exact (s.leadsOnlyTo_next _).2 (.after (State.leaveUp_carries _))
  · exact s.leadsOnlyTo_self

theorem execHelloRepeatTimerExpiry_carries (s : State) : s.leadsOnlyTo (execHelloRepeatTimerExpiry s) := by
  unfold execHelloRepeatTimerExpiry
  split
  · exact (s.leadsOnlyTo_next _).2 (.trans (.of_eq (by simp) (by simp) (by simp) (by simp))
      (State.sendDecision_carries _))
  · exact s.leadsOnlyTo_self

theorem execAligningTimerExpiry_carries (s : State) : s.leadsOnlyTo (execAligningTimerExpiry s) := by
  unfold execAligningTimerExpiry
  split
  · exact State.leadsOnlyTo_of_eq (by simp [State.leaveAligning]) (by simp [State.leaveAligning])
      (by simp [State.leaveAligning]) (by simp [State.leaveAligning])
  · exact s.leadsOnlyTo_self

theorem State.offerStatus_carries (s : State) : s.Carries s.offerStatus :=
  .of_eq (by simp) (by simp) (by simp) (by simp)

theorem State.offerLamp_carries (s : State) (set : Byte) : s.Carries (s.offerLamp set) :=
  .of_eq (by simp) (by simp) (by simp) (by simp)

theorem State.linkUpMarking_carries (s : State) : s.Carries s.linkUpMarking :=
  .of_eq (by simp) (by simp) (by simp) (by simp)

theorem State.enterUp_carries (s : State) : s.Carries s.enterUp := by
  unfold State.enterUp
  extract_lets _ up _ cleared marked heads status _ tested lamp notice
  have toMarked : s.Carries marked :=
    .after cleared.linkUpMarking_carries rfl rfl rfl rfl
  have toHeads : s.Carries heads := toMarked.trans (.forHeads (fun h v => v.offerHead_carries h) marked)
  have toTested : s.Carries tested := (toHeads.trans (.ite heads.offerStatus_carries (.refl heads))).trans
    (.of_eq rfl rfl rfl rfl)
  exact ((toTested.trans (tested.offerLamp_carries _)).trans (lamp.offerNotice_carries _)).trans
    notice.sendDecision_carries

theorem execHello_carries (version : Byte) (s : State) : s.leadsOnlyTo (execHello version s) := by
  unfold execHello
  split
  · exact s.leadsOnlyTo_self
  · split
    · exact (s.leadsOnlyTo_next _).2 s.enterUp_carries
    · exact State.leadsOnlyTo_of_eq
  · exact s.leadsOnlyTo_self

theorem State.markStale_carries (s : State) (id : Fin 16) (c w : Nat) : s.Carries (s.markStale id c w) :=
  .of_eq rfl rfl rfl rfl

theorem State.sendCompletion_carries (s : State) (i : Fin 64) (r : Record) (c : Code) :
    s.Carries (s.sendCompletion i r c) := by
  unfold State.sendCompletion
  refine .trans (.trans (s.updHead_carries r.head _) (.ite ?_ (.refl _))) (State.freeSlot_carries _ i)
  exact .trans (.foldl _ (fun v id => v.markStale_carries id r.column r.row) _ _)
    (.ite (State.markStale_carries _ _ _ _) (.refl _))

theorem State.endFrame_carries (s : State) : s.Carries s.endFrame := by
  unfold State.endFrame
  split
  next i _ =>
    split
    next r _ =>
      split
      next d _ => exact (s.sendCompletion_carries i r d.code).trans (.of_eq (by simp) (by simp) (by simp) (by simp))
      next => exact .refl s
    next => exact .refl s
  next => exact .refl s

theorem execFrameEnd_carries (s : State) : s.leadsOnlyTo (execFrameEnd s) := by
  unfold execFrameEnd
  split
  · exact s.leadsOnlyTo_self
  · exact (s.leadsOnlyTo_next _).2 (.trans (.before s.endFrame_carries) (State.sendDecision_carries _))

theorem execSet_carries (setting head : Byte) (value : BitVec 64) (s : State) :
    s.leadsOnlyTo (execSet setting head value s) := by
  unfold execSet
  repeat' split
  · exact State.leadsOnlyTo_of_eq
  · exact State.leadsOnlyTo_of_eq
  · exact s.leadsOnlyTo_self

theorem execApply_carries (s : State) : s.leadsOnlyTo (execApply s) := by
  unfold execApply
  split
  · exact State.leadsOnlyTo_of_eq
  · exact s.leadsOnlyTo_self

theorem State.clearItem_carries (s : State) (item head : Byte) : s.Carries (s.clearItem item head) := by
  unfold State.clearItem
  repeat' split
  all_goals exact .of_eq rfl rfl rfl rfl

theorem State.offerAnswer_carries (s : State) (id : BitVec 16) (valid : Bool) (value : BitVec 64) :
    s.Carries (s.offerAnswer id valid value) :=
  .of_eq (by simp) (by simp) (by simp) (by simp)

theorem execReadRequest_carries (id : BitVec 16) (item head flags : Byte) (s : State) :
    s.leadsOnlyTo (execReadRequest id item head flags s) := by
  unfold execReadRequest
  split
  · exact (s.leadsOnlyTo_next _).2 (.trans (.trans (.ite (s.clearItem_carries item head) (.refl s))
      (State.offerAnswer_carries _ _ _ _)) (State.sendDecision_carries _))
  · exact s.leadsOnlyTo_self

theorem execClear_carries (events : BitVec 16) (s : State) : s.leadsOnlyTo (execClear events s) := by
  unfold execClear
  split
  · exact State.leadsOnlyTo_of_eq
  · exact s.leadsOnlyTo_self

theorem execResync_carries (head : Byte) (s : State) : s.leadsOnlyTo (execResync head s) := by
  unfold execResync
  split
  · split
    · exact State.leadsOnlyTo_of_eq
    · exact s.leadsOnlyTo_self
  · exact s.leadsOnlyTo_self

/-! ### The Input Relay -/

theorem execKeys_carries (modifiers : Byte) (codes : Table 6 Byte) (s : State) :
    s.leadsOnlyTo (execKeys modifiers codes s) := by
  unfold execKeys
  split
  · dsimp only
    split
    · exact State.leadsOnlyTo_of_eq
    · exact State.leadsOnlyTo_of_eq
  · exact s.leadsOnlyTo_self

theorem execPointer_carries (x y : BitVec 16) (buttons wheel : Byte) (s : State) :
    s.leadsOnlyTo (execPointer x y buttons wheel s) := by
  unfold execPointer
  split
  · dsimp only
    repeat' split
    all_goals exact State.leadsOnlyTo_of_eq
  · exact s.leadsOnlyTo_self

theorem execInputFrameEnd_carries (s : State) : s.leadsOnlyTo (execInputFrameEnd s) := by
  unfold execInputFrameEnd
  split
  · exact s.leadsOnlyTo_self
  · exact State.leadsOnlyTo_of_eq

theorem execLamp_carries (set : Byte) (s : State) : s.leadsOnlyTo (execLamp set s) := by
  have received : s.Carries ((if s.relay.lampPending then s.raise .lampOverrun else s).updRelay
      fun r => { r with lamps := set, lampPending := true }) :=
    .trans (.ite (s.raise_carries _) (.refl s)) (.of_eq rfl rfl rfl rfl)
  unfold execLamp
  dsimp only
  split
  · exact (s.leadsOnlyTo_next _).2 ((received.trans (State.offerLamp_carries _ set)).trans
      (State.sendDecision_carries _))
  · exact (s.leadsOnlyTo_next _).2 received

/-! ### A step -/

/-- Each command carries everything over. -/
theorem exec_carries (c : Instr) (s : State) : s.leadsOnlyTo (exec c s) := by
  cases c with
  | partReset p line ready => exact execPartReset_carries p line ready s
  | activate rank bank row => exact execActivate_carries rank bank row s
  | precharge rank bank => exact execPrecharge_carries rank bank s
  | prechargeAll rank => exact execPrechargeAll_carries rank s
  | write rank bank column chop =>
    exact (s.leadsOnlyTo_next _).2 (s.onRank_carries rank fun r => s.takeWriteCommand_carries r bank column chop false)
  | writeAutoPrecharge rank bank column chop =>
    exact (s.leadsOnlyTo_next _).2 (s.onRank_carries rank fun r => s.takeWriteCommand_carries r bank column chop true)
  | read rank bank column chop =>
    exact (s.leadsOnlyTo_next _).2 (s.onRank_carries rank fun r => s.takeReadCommand_carries r bank column chop false)
  | readAutoPrecharge rank bank column chop =>
    exact (s.leadsOnlyTo_next _).2 (s.onRank_carries rank fun r => s.takeReadCommand_carries r bank column chop true)
  | refresh rank => exact execRefresh_carries rank s
  | modeSet n v => exact execModeSet_carries n v s
  | calibrate rank => exact s.leadsOnlyTo_self
  | powerDownEntry rank => exact execPowerDownEntry_carries rank s
  | powerDownExit rank => exact execPowerDownExit_carries rank s
  | selfRefreshEntry rank => exact execSelfRefreshEntry_carries rank s
  | selfRefreshExit rank => exact execSelfRefreshExit_carries rank s
  | noOp => exact s.leadsOnlyTo_self
  | memoryReset => exact (s.leadsOnlyTo_next _).2 s.assertMemoryReset_carries
  | memoryResetRelease => exact State.leadsOnlyTo_of_eq rfl rfl rfl rfl
  | observedWrite o => exact execObservedWrite_carries o s
  | observedRead o => exact execObservedRead_carries o s
  | encodeCompletion => exact execEncodeCompletion_carries s
  | stallTimerExpiry h => exact execStallTimerExpiry_carries h s
  | tick => exact execTick_carries s
  | epochEnd => exact State.leadsOnlyTo_of_eq
  | deferralAbandoned i => exact execDeferralAbandoned_carries i s
  | overrideHoldExpiry => exact execOverrideHoldExpiry_carries s
  | lanesAligned => exact execLanesAligned_carries s
  | laneAlignmentLost lane => exact execLaneAlignmentLost_carries lane s
  | helloRepeatTimerExpiry => exact execHelloRepeatTimerExpiry_carries s
  | aligningTimerExpiry => exact execAligningTimerExpiry_carries s
  | frameEnd => exact execFrameEnd_carries s
  | hello version => exact execHello_carries version s
  | keys modifiers codes => exact execKeys_carries modifiers codes s
  | pointer x y buttons wheel => exact execPointer_carries x y buttons wheel s
  | set setting head value => exact execSet_carries setting head value s
  | apply => exact execApply_carries s
  | readRequest id item head flags => exact execReadRequest_carries id item head flags s
  | clear events => exact execClear_carries events s
  | resync head => exact execResync_carries head s
  | badUpstreamFrame defect => exact State.leadsOnlyTo_of_eq
  | readyLevelRise => exact State.leadsOnlyTo_of_eq rfl rfl rfl rfl
  | readyLevelFall => exact State.leadsOnlyTo_of_eq rfl rfl rfl rfl
  | inputFrameEnd => exact execInputFrameEnd_carries s
  | lamp set => exact execLamp_carries set s
  | inputLineBadFrame defect => exact State.leadsOnlyTo_of_eq

/-- A step carries everything over. -/
theorem step_carries {s t : State} (h : step s = .next t) : s.Carries t := by
  unfold step at h
  split at h
  · obtain rfl := Host.Outcome.next.inj h
    exact .of_eq rfl rfl rfl rfl
  next c rest _ => exact .after (exec_carries c { s with pending := rest } t h)

/-- Settles O60: a step is a chain of operations of which each carries the three sentences over. -/
theorem recordsBuffersAndRowsStaySound : Obligations.RecordsBuffersAndRowsStaySound := by
  refine ⟨fun s t h hst => (step_carries hst).unique h, fun s t h hst => ?_,
    fun s t h hst => (step_carries hst).rows h⟩
  obtain ⟨hdescriptors, hpixels⟩ := h
  exact ⟨(step_carries hst).descriptors hdescriptors, (step_carries hst).pixels hpixels⟩

end Sys2Proof.Machine
end

section
/-! SUPPORT. Operations taken for each slot in order (R62, R98): when a step changes its own slot alone, what the whole
makes of the slots, of a list of slots and of a count is what the steps make of them one by one. -/

namespace Sys2Proof.Machine

/-! ### Counting (R154) -/

@[simp] theorem saturatingAdd_zero (v : BitVec 32) : saturatingAdd v 0 = v := by
  apply BitVec.eq_of_toNat_eq
  have := v.isLt
  simp only [saturatingAdd, BitVec.toNat_ofNat]
  omega

theorem saturatingAdd_add (v : BitVec 32) (m n : Nat) :
    saturatingAdd (saturatingAdd v m) n = saturatingAdd v (m + n) := by
  apply BitVec.eq_of_toNat_eq
  simp only [saturatingAdd, BitVec.toNat_ofNat]
  omega

/-! ### Steps over the slots -/

theorem allSlots_nodup : allSlots.Nodup := List.nodup_finRange 64

theorem mem_allSlots (i : Fin 64) : i ∈ allSlots := List.mem_finRange i

section Slots

variable {f : Fin 64 → State → State} {g : Option Record → Option Record}
  (hf : ∀ i (s : State) j, (f i s).slots.look j = if j = i then g (s.slots.look j) else s.slots.look j)

include hf

/-- A slot not yet reached stands as before. -/
theorem step_look_of_notMem {i j : Fin 64} {l : List (Fin 64)} (hi : i ∉ l) (hj : j ∈ l) (s : State) :
    (f i s).slots.look j = s.slots.look j := by
  rw [hf, if_neg]
  rintro rfl
  exact hi hj

theorem foldSlots_look (l : List (Fin 64)) (hl : l.Nodup) (s : State) (j : Fin 64) :
    (l.foldl (fun s i => f i s) s).slots.look j = if j ∈ l then g (s.slots.look j) else s.slots.look j := by
  induction l generalizing s with
  | nil => simp
  | cons i l ih =>
    obtain ⟨hi, hl⟩ := List.nodup_cons.1 hl
    rw [List.foldl_cons, ih hl, hf]
    by_cases hj : j = i
    · subst hj; simp [hi]
    · simp [hj]

/-- A list that each step rids of its own slot, when `Q` holds of what stands there. -/
theorem foldSlots_filter (π : State → List (Fin 64)) (Q : Option Record → Bool)
    (hπ : ∀ i (s : State), π (f i s) = if Q (s.slots.look i) then (π s).filter (· ≠ i) else π s)
    (l : List (Fin 64)) (hl : l.Nodup) (s : State) :
    π (l.foldl (fun s i => f i s) s) = (π s).filter fun j => !(decide (j ∈ l) && Q (s.slots.look j)) := by
  induction l generalizing s with
  | nil => simp
  | cons i l ih =>
    obtain ⟨hi, hl⟩ := List.nodup_cons.1 hl
    have later : ∀ j, (decide (j ∈ l) && Q ((f i s).slots.look j)) = (decide (j ∈ l) && Q (s.slots.look j)) := by
      intro j
      by_cases hj : j ∈ l
      · rw [step_look_of_notMem hf hi hj]
      · simp [hj]
    rw [List.foldl_cons, ih hl, hπ]
    simp only [later]
    split
    next hQ =>
      rw [List.filter_filter]
      refine List.filter_congr fun j _ => ?_
      by_cases hj : j = i
      · subst hj; simp [hQ]
      · simp [hj]
    next hQ =>
      refine List.filter_congr fun j _ => ?_
      by_cases hj : j = i
      · subst hj; simp [hQ, hi]
      · simp [hj]

/-- A count that each step increases when `Q` holds of what stands in its slot. -/
theorem foldSlots_count (k : State → BitVec 32) (Q : Option Record → Bool)
    (hk : ∀ i (s : State), k (f i s) = saturatingAdd (k s) (if Q (s.slots.look i) then 1 else 0))
    (l : List (Fin 64)) (hl : l.Nodup) (s : State) :
    k (l.foldl (fun s i => f i s) s) = saturatingAdd (k s) (l.countP fun i => Q (s.slots.look i)) := by
  induction l generalizing s with
  | nil => simp
  | cons i l ih =>
    obtain ⟨hi, hl⟩ := List.nodup_cons.1 hl
    have later : l.countP (fun j => Q ((f i s).slots.look j)) = l.countP fun j => Q (s.slots.look j) :=
      List.countP_congr fun j hj => by rw [step_look_of_notMem hf hi hj]
    rw [List.foldl_cons, ih hl, hk, later, saturatingAdd_add, List.countP_cons, Nat.add_comm]

theorem forSlots_look (s : State) (j : Fin 64) : (s.forSlots f).slots.look j = g (s.slots.look j) := by
  rw [State.forSlots, foldSlots_look hf allSlots allSlots_nodup, if_pos (mem_allSlots j)]

theorem forSlots_filter (π : State → List (Fin 64)) (Q : Option Record → Bool)
    (hπ : ∀ i (s : State), π (f i s) = if Q (s.slots.look i) then (π s).filter (· ≠ i) else π s) (s : State) :
    π (s.forSlots f) = (π s).filter fun j => !(Q (s.slots.look j)) := by
  rw [State.forSlots, foldSlots_filter hf π Q hπ allSlots allSlots_nodup]
  simp only [mem_allSlots, decide_true, Bool.true_and]

theorem forSlots_count (k : State → BitVec 32) (Q : Option Record → Bool)
    (hk : ∀ i (s : State), k (f i s) = saturatingAdd (k s) (if Q (s.slots.look i) then 1 else 0)) (s : State) :
    k (s.forSlots f) = saturatingAdd (k s) (allSlots.countP fun i => Q (s.slots.look i)) := by
  rw [State.forSlots, foldSlots_count hf k Q hk allSlots allSlots_nodup]

end Slots

/-- Whether a slot holds a record of a state that `p` names, read from the slot. -/
theorem State.holds_eq (t : RecordState) (p : Record → Bool) (i : Fin 64) (s : State) :
    s.holds t p i = (s.slots.look i).any fun r => decide (r.state = t) && p r := by
  unfold State.holds
  cases s.slots.look i <;> rfl

/-! ### Abandonment (R98) -/

/-- The abandonment of the record in one slot, when it is CAPTURING and `p` names it. -/
def State.abandonSlot (p : Record → Bool) (i : Fin 64) (s : State) : State :=
  match s.slots.look i with
  | some r => if r.state = .capturing && p r then s.abandonCapture i r else s
  | none => s

theorem State.abandonWhere_eq (p : Record → Bool) (s : State) : s.abandonWhere p = s.forSlots (State.abandonSlot p) :=
  rfl

/-- What one abandonment makes of the counters. -/
theorem State.abandonCapture_counters (i : Fin 64) (r : Record) (s : State) :
    (s.abandonCapture i r).counters =
      { s.counters with capturesAbandoned := saturatingAdd s.counters.capturesAbandoned 1 } := rfl

theorem State.abandonSlot_look (p : Record → Bool) (i : Fin 64) (s : State) (j : Fin 64) :
    (s.abandonSlot p i).slots.look j =
      if j = i then (s.slots.look j).filter fun r => !(decide (r.state = .capturing) && p r) else s.slots.look j := by
  by_cases hj : j = i
  · subst hj
    unfold State.abandonSlot
    cases h : s.slots.look j with
    | none => simp [h]
    | some r =>
      dsimp only
      split
      next hp => simp only [State.abandonCapture_slots, Table.look_put_self, if_true, Option.filter, hp, Bool.not_true,
        Bool.false_eq_true, if_false]
      next hp => simp only [h, if_true, Option.filter, hp, Bool.not_false]
  · unfold State.abandonSlot
    repeat' split
    all_goals simp_all [Table.look_put]

theorem State.abandonSlot_counters (p : Record → Bool) (i : Fin 64) (s : State) :
    (s.abandonSlot p i).counters =
      { s.counters with
        capturesAbandoned :=
          saturatingAdd s.counters.capturesAbandoned (if s.holds .capturing p i then 1 else 0) } := by
  unfold State.abandonSlot State.holds
  cases s.slots.look i with
  | none => simp
  | some r => by_cases hp : r.state = .capturing && p r <;> simp [hp, State.abandonCapture_counters]

/-- An abandonment does what R98 says of every record it names. -/
theorem State.abandonWhere_abandons (p : Record → Bool) (s : State) : s.abandons p (s.abandonWhere p) := by
  rw [State.abandonWhere_eq]
  constructor
  · exact forSlots_look (State.abandonSlot_look p) s
  · have counted := forSlots_count (State.abandonSlot_look p) (fun s => s.counters.capturesAbandoned)
      (fun o => o.any fun r => decide (r.state = .capturing) && p r)
      (fun i s => by simp only [State.abandonSlot_counters, State.holds_eq]) s
    simpa only [State.holds_eq] using counted

/-- Counters that agree but for the captures abandoned. -/
theorem Counters.eq_of_rest {c d : Counters}
    (h : { c with capturesAbandoned := 0 } = { d with capturesAbandoned := 0 }) :
    c = { d with capturesAbandoned := c.capturesAbandoned } := by
  rw [Counters.mk.injEq] at h
  cases c
  cases d
  simpa using h

/-- An abandonment counts on one counter alone. -/
theorem State.abandonWhere_counters (p : Record → Bool) (s : State) :
    (s.abandonWhere p).counters =
      { s.counters with capturesAbandoned := (s.abandonWhere p).counters.capturesAbandoned } := by
  have rest : ({ (s.abandonWhere p).counters with capturesAbandoned := 0 } : Counters) =
      { s.counters with capturesAbandoned := 0 } := by
    have kept := foldl_keeps (fun s : State => ({ s.counters with capturesAbandoned := 0 } : Counters))
      (fun s i => State.abandonSlot p i s) (fun s i => by simp only [State.abandonSlot_counters]) allSlots s
    rwa [← State.forSlots, ← State.abandonWhere_eq] at kept
  exact Counters.eq_of_rest rest

/-! ### Withdrawal (R62 to R65) -/

/-- The withdrawal of the record in one slot, when `p` names it. -/
def State.withdrawNamed (p : Record → Bool) (i : Fin 64) (s : State) : State :=
  match s.slots.look i with
  | some r => if p r then s.withdrawSlot i else s
  | none => s

theorem State.withdrawWhere_eq (p : Record → Bool) (s : State) :
    s.withdrawWhere p = s.forSlots (State.withdrawNamed p) := rfl

theorem State.withdrawNamed_of_unnamed {p : Record → Bool} {i : Fin 64} {s : State}
    (h : ∀ r ∈ s.slots.look i, p r = false) : s.withdrawNamed p i = s := by
  unfold State.withdrawNamed
  split
  next r hr => simp [h r hr]
  next => rfl

theorem State.withdrawNamed_of_named {p : Record → Bool} {i : Fin 64} {s : State} {r : Record}
    (hr : s.slots.look i = some r) (hp : p r = true) : s.withdrawNamed p i = s.withdrawSlot i := by
  simp [State.withdrawNamed, hr, hp]

/-- The withdrawal of the record `r` in slot `i`, by the record's state. -/
theorem State.withdrawSlot_of_look {i : Fin 64} {s : State} {r : Record} (hr : s.slots.look i = some r) :
    s.withdrawSlot i = match r.state with
      | .capturing => s.abandonCapture i r
      | .captured => (s.dropCaptured i).release i r
      | .deferred => (s.dropDeferred r.head i).release i r
      | .queued => (s.dropQueued r.head i).release i r
      | .encoding => s.updRecord i fun r => { r with withdrawn := true }
      | .sending => s := by
  simp only [State.withdrawSlot, hr] <;> rfl

/-- A deferral list after a slot has left one. -/
theorem State.dropDeferred_look (s : State) (h k : Fin 4) (i : Fin 64) :
    ((s.dropDeferred h i).budget.heads.look k).deferred =
      if h = k then (s.budget.heads.look k).deferred.filter (· ≠ i) else (s.budget.heads.look k).deferred := by
  by_cases hk : k = h
  · subst hk; simp [State.dropDeferred]
  · simp [State.dropDeferred, Table.look_upd_ne _ hk, Ne.symm hk]

/-- A send FIFO after a slot has left one. -/
theorem State.dropQueued_look (s : State) (h k : Fin 4) (i : Fin 64) :
    (s.dropQueued h i).link.send.look k =
      if h = k then (s.link.send.look k).filter (· ≠ i) else s.link.send.look k := by
  by_cases hk : k = h
  · subst hk; simp
  · simp [Table.look_upd_ne _ hk, Ne.symm hk]

section Withdrawn

variable {i : Fin 64} {s : State} {r : Record} (hr : s.slots.look i = some r)

include hr

theorem State.withdrawSlot_look (j : Fin 64) : (s.withdrawSlot i).slots.look j =
    if j = i then Record.afterWithdrawal (fun _ => true) r else s.slots.look j := by
  rw [State.withdrawSlot_of_look hr]
  cases hs : r.state <;> simp [Record.afterWithdrawal, hs, Table.look_put, Table.look_upd, hr]
  rintro rfl
  exact hr

theorem State.withdrawSlot_encodeQueue : (s.withdrawSlot i).encodeQueue =
    if r.state = .captured then s.encodeQueue.filter (· ≠ i) else s.encodeQueue := by
  rw [State.withdrawSlot_of_look hr]
  cases hs : r.state <;> simp

theorem State.withdrawSlot_deferred (h : Fin 4) : ((s.withdrawSlot i).budget.heads.look h).deferred =
    if r.state = .deferred ∧ r.head = h then (s.budget.heads.look h).deferred.filter (· ≠ i)
    else (s.budget.heads.look h).deferred := by
  rw [State.withdrawSlot_of_look hr]
  cases hs : r.state <;> simp [State.dropDeferred_look]

theorem State.withdrawSlot_send (h : Fin 4) : (s.withdrawSlot i).link.send.look h =
    if r.state = .queued ∧ r.head = h then (s.link.send.look h).filter (· ≠ i) else s.link.send.look h := by
  rw [State.withdrawSlot_of_look hr]
  cases hs : r.state
  case queued => simpa using State.dropQueued_look s r.head h i
  all_goals simp

theorem State.withdrawSlot_counters : (s.withdrawSlot i).counters =
    { s.counters with
      capturesAbandoned :=
        saturatingAdd s.counters.capturesAbandoned (if r.state = .capturing then 1 else 0) } := by
  rw [State.withdrawSlot_of_look hr]
  cases hs : r.state <;> simp [State.abandonCapture_counters]

end Withdrawn

/-! What the step of a withdrawal makes of a slot, of the lists and of the count. -/

theorem State.withdrawNamed_look (p : Record → Bool) (i : Fin 64) (s : State) (j : Fin 64) :
    (s.withdrawNamed p i).slots.look j =
      if j = i then (s.slots.look j).bind (Record.afterWithdrawal p) else s.slots.look j := by
  cases hr : s.slots.look i with
  | none =>
    rw [State.withdrawNamed_of_unnamed (by simp [hr])]
    split
    next e => simp [e, hr]
    next => rfl
  | some r =>
    cases hp : p r with
    | false =>
      rw [State.withdrawNamed_of_unnamed (by simp [hr, hp])]
      split
      next e => simp [e, hr, Record.afterWithdrawal, hp]
      next => rfl
    | true =>
      rw [State.withdrawNamed_of_named hr hp, State.withdrawSlot_look hr]
      split
      next e => simp [e, hr, Record.afterWithdrawal, hp]
      next => rfl

theorem State.withdrawNamed_encodeQueue (p : Record → Bool) (i : Fin 64) (s : State) :
    (s.withdrawNamed p i).encodeQueue =
      if (s.slots.look i).any (fun r => decide (r.state = .captured) && p r) then s.encodeQueue.filter (· ≠ i)
      else s.encodeQueue := by
  cases hr : s.slots.look i with
  | none => rw [State.withdrawNamed_of_unnamed (by simp [hr])]; rfl
  | some r =>
    cases hp : p r with
    | false => rw [State.withdrawNamed_of_unnamed (by simp [hr, hp])]; simp [hp]
    | true => rw [State.withdrawNamed_of_named hr hp, State.withdrawSlot_encodeQueue hr]; simp [hp]

theorem State.withdrawNamed_deferred (p : Record → Bool) (h : Fin 4) (i : Fin 64) (s : State) :
    ((s.withdrawNamed p i).budget.heads.look h).deferred =
      if (s.slots.look i).any (fun r => decide (r.state = .deferred) && (p r && r.head == h)) then
        (s.budget.heads.look h).deferred.filter (· ≠ i)
      else (s.budget.heads.look h).deferred := by
  cases hr : s.slots.look i with
  | none => rw [State.withdrawNamed_of_unnamed (by simp [hr])]; rfl
  | some r =>
    cases hp : p r with
    | false => rw [State.withdrawNamed_of_unnamed (by simp [hr, hp])]; simp [hp]
    | true => rw [State.withdrawNamed_of_named hr hp, State.withdrawSlot_deferred hr]; simp [hp]

theorem State.withdrawNamed_send (p : Record → Bool) (h : Fin 4) (i : Fin 64) (s : State) :
    (s.withdrawNamed p i).link.send.look h =
      if (s.slots.look i).any (fun r => decide (r.state = .queued) && (p r && r.head == h)) then
        (s.link.send.look h).filter (· ≠ i)
      else s.link.send.look h := by
  cases hr : s.slots.look i with
  | none => rw [State.withdrawNamed_of_unnamed (by simp [hr])]; rfl
  | some r =>
    cases hp : p r with
    | false => rw [State.withdrawNamed_of_unnamed (by simp [hr, hp])]; simp [hp]
    | true => rw [State.withdrawNamed_of_named hr hp, State.withdrawSlot_send hr]; simp [hp]

theorem State.withdrawNamed_counters (p : Record → Bool) (i : Fin 64) (s : State) :
    (s.withdrawNamed p i).counters =
      { s.counters with
        capturesAbandoned := saturatingAdd s.counters.capturesAbandoned
          (if (s.slots.look i).any (fun r => decide (r.state = .capturing) && p r) then 1 else 0) } := by
  cases hr : s.slots.look i with
  | none => rw [State.withdrawNamed_of_unnamed (by simp [hr])]; simp
  | some r =>
    cases hp : p r with
    | false => rw [State.withdrawNamed_of_unnamed (by simp [hr, hp])]; simp [hp]
    | true => rw [State.withdrawNamed_of_named hr hp, State.withdrawSlot_counters hr]; simp [hp]

/-- A withdrawal does what R62 to R65 say of every record it names. -/
theorem State.withdrawWhere_withdraws (p : Record → Bool) (s : State) : s.withdraws p (s.withdrawWhere p) := by
  have look := forSlots_look (f := State.withdrawNamed p) (g := (·.bind (Record.afterWithdrawal p)))
    (State.withdrawNamed_look p) s
  have queue := forSlots_filter (g := (·.bind (Record.afterWithdrawal p))) (State.withdrawNamed_look p)
    (fun s => s.encodeQueue) _ (State.withdrawNamed_encodeQueue p) s
  have deferred h := forSlots_filter (g := (·.bind (Record.afterWithdrawal p))) (State.withdrawNamed_look p)
    (fun s => (s.budget.heads.look h).deferred) _ (State.withdrawNamed_deferred p h) s
  have send h := forSlots_filter (g := (·.bind (Record.afterWithdrawal p))) (State.withdrawNamed_look p)
    (fun s => s.link.send.look h) _ (State.withdrawNamed_send p h) s
  have count := forSlots_count (g := (·.bind (Record.afterWithdrawal p))) (State.withdrawNamed_look p)
    (fun s => s.counters.capturesAbandoned)
    (fun o => o.any fun r => decide (r.state = .capturing) && p r)
    (fun i s => by rw [State.withdrawNamed_counters]) s
  rw [State.withdrawWhere_eq]
  refine ⟨look, ?_, fun h => ?_, fun h => ?_, ?_⟩
  · simpa only [State.holds_eq] using queue
  · simpa only [State.holds_eq] using deferred h
  · simpa only [State.holds_eq] using send h
  · simpa only [State.holds_eq] using count

/-- A withdrawal counts on one counter alone. -/
theorem State.withdrawWhere_counters (p : Record → Bool) (s : State) :
    (s.withdrawWhere p).counters =
      { s.counters with capturesAbandoned := (s.withdrawWhere p).counters.capturesAbandoned } := by
  have rest : ({ (s.withdrawWhere p).counters with capturesAbandoned := 0 } : Counters) =
      { s.counters with capturesAbandoned := 0 } := by
    have kept := foldl_keeps (fun s : State => ({ s.counters with capturesAbandoned := 0 } : Counters))
      (fun s i => State.withdrawNamed p i s) (fun s i => by simp only [State.withdrawNamed_counters]) allSlots s
    rwa [← State.forSlots, ← State.withdrawWhere_eq] at kept
  exact Counters.eq_of_rest rest

/-! ### Marks (R49, R98) -/

/-- Surface `id` is declared with one mark for each tile, and the tile lies in its grid. -/
def State.hasTileAt (id : Fin 16) (column row : Nat) (s : State) : Prop :=
  ∃ f, s.surfaces.look id = some f ∧ f.stale.length = f.geometry.tileCount ∧ f.geometry.hasTile column row = true

/-- A surface's geometry and the length of its map can be read without its marks. -/
theorem Surface.unmarked_eq {f g : Surface} (h : f.unmarked = g.unmarked) :
    f.geometry = g.geometry ∧ f.stale.length = g.stale.length := by
  simp only [Surface.unmarked, Surface.mk.injEq] at h
  obtain ⟨-, -, hg, -, hs⟩ := h
  exact ⟨hg, by simpa using congrArg List.length hs⟩

theorem State.hasTileAt_of_onlyMarks {s t : State} {id : Fin 16} {column row : Nat} (h : s.onlyMarks t)
    (ht : s.hasTileAt id column row) : t.hasTileAt id column row := by
  obtain ⟨f, hf, hl, hg⟩ := ht
  have hid := h id
  rw [hf, Option.map_some, Option.map_eq_some_iff] at hid
  obtain ⟨g, hgt, e⟩ := hid
  obtain ⟨eg, el⟩ := Surface.unmarked_eq e
  exact ⟨g, hgt, by rw [el, hl, eg], by rw [eg, hg]⟩

theorem Geometry.hasTile_iff (g : Geometry) (column row : Nat) :
    g.hasTile column row = true ↔ column < g.tileColumns ∧ row < g.tileRows := by
  simp [Geometry.hasTile]

/-- Tiles of the grid have places of their own in the map. -/
theorem Geometry.tileIndex_inj {g : Geometry} {c w c' w' : Nat} (h : g.hasTile c w = true)
    (h' : g.hasTile c' w' = true) (e : g.tileIndex c w = g.tileIndex c' w') : c = c' ∧ w = w' := by
  rw [Geometry.hasTile_iff] at h h'
  have hw : w = w' := by
    have rows := congrArg (· / g.tileColumns) e
    have pos : 0 < g.tileColumns := Nat.zero_lt_of_lt h.1
    simpa only [Geometry.tileIndex, Nat.add_comm (_ * _), Nat.add_mul_div_right _ _ pos, Nat.div_eq_of_lt h.1,
      Nat.div_eq_of_lt h'.1, Nat.zero_add] using rows
  subst hw
  exact ⟨Nat.add_left_cancel e, rfl⟩

theorem Geometry.tileIndex_lt {g : Geometry} {c w : Nat} (h : g.hasTile c w = true) :
    g.tileIndex c w < g.tileCount := by
  rw [Geometry.hasTile_iff] at h
  calc g.tileIndex c w < w * g.tileColumns + g.tileColumns := Nat.add_lt_add_left h.1 _
    _ = (w + 1) * g.tileColumns := (Nat.succ_mul _ _).symm
    _ ≤ g.tileRows * g.tileColumns := Nat.mul_le_mul_right _ h.2
    _ = g.tileCount := Nat.mul_comm _ _

/-- A marking sets its own tile's mark and no other's. -/
theorem Surface.isStale_withMark {f : Surface} {c w c' w' : Nat} (hl : f.stale.length = f.geometry.tileCount)
    (h : f.geometry.hasTile c w = true) :
    (f.withMark c' w' true).isStale c w = true ↔ f.isStale c w = true ∨ (c' = c ∧ w' = w) := by
  by_cases h' : f.geometry.hasTile c' w' = true
  · have lt := hl ▸ Geometry.tileIndex_lt h'
    by_cases e : c' = c ∧ w' = w
    · obtain ⟨rfl, rfl⟩ := e
      simp [Surface.withMark, Surface.isStale, h', lt]
    · have ne : f.geometry.tileIndex c' w' ≠ f.geometry.tileIndex c w := fun k => e (Geometry.tileIndex_inj h' h k)
      simp [Surface.withMark, Surface.isStale, h, h', e, List.getElem?_set_ne ne]
  · have e : ¬ (c' = c ∧ w' = w) := by
      rintro ⟨rfl, rfl⟩
      exact h' h
    simp [Surface.withMark, h', e]

theorem State.isStale_markStale {s : State} {id id' : Fin 16} {c w c' w' : Nat} (h : s.hasTileAt id c w) :
    (s.markStale id' c' w').isStale id c w = true ↔
      s.isStale id c w = true ∨ (id' = id ∧ c' = c ∧ w' = w) := by
  obtain ⟨f, hf, hl, hg⟩ := h
  by_cases e : id = id'
  · subst e
    simp [State.markStale, State.isStale, hf, Surface.isStale_withMark hl hg]
  · simp [State.markStale, State.isStale, Table.look_upd_ne _ e, Ne.symm e]

/-- The marks of a tile after a step for each slot, when a step marks the tile of its own slot's record alone, and that
when `M` holds of the record. -/
theorem foldSlots_isStale {f : Fin 64 → State → State} {g : Option Record → Option Record}
    (hf : ∀ i (s : State) j, (f i s).slots.look j = if j = i then g (s.slots.look j) else s.slots.look j)
    {id : Fin 16} {c w : Nat} (M : Record → Prop) (hkeeps : ∀ i (s : State), s.onlyMarks (f i s))
    (hmarks : ∀ i (s : State), s.hasTileAt id c w → ((f i s).isStale id c w = true ↔
      s.isStale id c w = true ∨ ∃ r ∈ s.slots.look i, M r))
    (l : List (Fin 64)) (hl : l.Nodup) (s : State) (hs : s.hasTileAt id c w) :
    (l.foldl (fun s i => f i s) s).isStale id c w = true ↔
      s.isStale id c w = true ∨ ∃ i ∈ l, ∃ r ∈ s.slots.look i, M r := by
  induction l generalizing s with
  | nil => simp
  | cons i l ih =>
    obtain ⟨hi, hl⟩ := List.nodup_cons.1 hl
    have later : (∃ j ∈ l, ∃ r ∈ (f i s).slots.look j, M r) ↔ ∃ j ∈ l, ∃ r ∈ s.slots.look j, M r :=
      exists_congr fun j => and_congr_right fun hj => by rw [step_look_of_notMem hf hi hj]
    rw [List.foldl_cons, ih hl _ (State.hasTileAt_of_onlyMarks (hkeeps i s) hs), hmarks i s hs, later]
    simp only [List.mem_cons, exists_eq_or_imp, or_assoc]

/-- An abandonment marks the tiles of the records it names, and no other (R98). -/
theorem State.abandonWhere_marksOf (p : Record → Bool) (s : State) (id : Fin 16) :
    s.marksOf (fun r => r.state = .capturing ∧ p r = true) id (s.abandonWhere p) := by
  intro f hf hl c w hg
  have keeps : ∀ i (v : State), v.onlyMarks (v.abandonSlot p i) := by
    intro i v
    unfold State.abandonSlot
    split
    · split
      · exact v.onlyMarks_abandonCapture i _
      · exact State.onlyMarks_of_eq rfl
    · exact State.onlyMarks_of_eq rfl
  have marks : ∀ i (v : State), v.hasTileAt id c w → ((v.abandonSlot p i).isStale id c w = true ↔
      v.isStale id c w = true ∨ ∃ r ∈ v.slots.look i,
        (r.state = .capturing ∧ p r = true) ∧ r.surface = id ∧ r.column = c ∧ r.row = w) := by
    intro i v hv
    unfold State.abandonSlot
    cases hr : v.slots.look i with
    | none => simp
    | some r =>
      dsimp only
      split
      next hp =>
        have counted : (v.abandonCapture i r).isStale id c w =
            ((v.freeSlot i).markStale r.surface r.column r.row).isStale id c w := rfl
        have freed : (v.freeSlot i).isStale id c w = v.isStale id c w := rfl
        have he : (v.freeSlot i).hasTileAt id c w := hv
        rw [counted, State.isStale_markStale he, freed]
        simp_all
      next hp => simp_all
  have folded := foldSlots_isStale (g := fun o => o.filter fun r => !(decide (r.state = .capturing) && p r))
    (State.abandonSlot_look p) _ keeps marks allSlots allSlots_nodup s ⟨f, hf, hl, hg⟩
  rw [State.abandonWhere_eq, State.forSlots, folded]
  simp only [mem_allSlots, true_and, Option.mem_def]

/-! ### Whole maps (R57, R58) -/

/-- Every declared surface is wholly stale. -/
def State.whollyStale (s : State) : Prop :=
  ∀ id, ∀ f ∈ s.surfaces.look id, f.stale = List.replicate f.geometry.tileCount true

theorem Surface.withMark_of_whole {f : Surface} (h : f.stale = List.replicate f.geometry.tileCount true)
    (c w : Nat) : f.withMark c w true = f := by
  unfold Surface.withMark
  split
  · rw [h, List.set_replicate_self, ← h]
  · rfl

/-- A marking changes nothing in surfaces that are wholly stale. -/
theorem State.markStale_surfaces_of_whole {s : State} (h : s.whollyStale) (id : Fin 16) (c w : Nat) :
    (s.markStale id c w).surfaces = s.surfaces := by
  refine Table.ext_look fun j => ?_
  simp only [State.markStale, State.updSurface_surfaces, Table.look_upd]
  split
  next e =>
    subst e
    cases hf : s.surfaces.look j with
    | none => rfl
    | some f => simp only [Option.map_some, Surface.withMark_of_whole (h j f hf)]
  next => rfl

theorem State.withdrawSlot_surfaces_of_whole {s : State} (h : s.whollyStale) (i : Fin 64) :
    (s.withdrawSlot i).surfaces = s.surfaces := by
  unfold State.withdrawSlot
  split
  next => rfl
  next r _ =>
    split
    · exact State.markStale_surfaces_of_whole (s := s.freeSlot i) h _ _ _
    · exact State.markStale_surfaces_of_whole (s := (s.dropCaptured i).freeSlot i) h _ _ _
    · exact State.markStale_surfaces_of_whole (s := (s.dropDeferred r.head i).freeSlot i) h _ _ _
    · exact State.markStale_surfaces_of_whole (s := (s.dropQueued r.head i).freeSlot i) h _ _ _
    · rfl
    · rfl

theorem State.withdrawNamed_surfaces_of_whole {s : State} (h : s.whollyStale) (p : Record → Bool) (i : Fin 64) :
    (s.withdrawNamed p i).surfaces = s.surfaces := by
  unfold State.withdrawNamed
  split
  · split
    · exact State.withdrawSlot_surfaces_of_whole h i
    · rfl
  · rfl

/-- A withdrawal changes nothing in surfaces that are wholly stale. -/
theorem State.withdrawWhere_surfaces_of_whole {s : State} (h : s.whollyStale) (p : Record → Bool) :
    (s.withdrawWhere p).surfaces = s.surfaces := by
  rw [State.withdrawWhere_eq, State.forSlots]
  induction allSlots generalizing s with
  | nil => rfl
  | cons i l ih =>
    have step := State.withdrawNamed_surfaces_of_whole h p i
    have whole : (s.withdrawNamed p i).whollyStale := by rwa [State.whollyStale, step]
    rw [List.foldl_cons, ih whole, step]

theorem State.markEverySurface_whole (s : State) : s.markEverySurface.whollyStale := by
  intro id f hf
  simp only [State.markEverySurface, Table.look_tab, Option.mem_def, Option.map_eq_some_iff] at hf
  obtain ⟨g, -, rfl⟩ := hf
  rfl

/-- Blind marking makes every declared surface wholly stale (R58). -/
theorem State.blindMarking_surfaces (s : State) (id : Fin 16) :
    s.blindMarking.surfaces.look id = (s.surfaces.look id).map Surface.markWhole := by
  rw [State.blindMarking, State.withdrawWhere_surfaces_of_whole s.markEverySurface_whole]
  simp only [State.markEverySurface, Table.look_tab]

end Sys2Proof.Machine
end

section
/-! SUPPORT. The channel commands (R2 to R21): each command to a rank and MODE SET is one taking of its anomaly, its
effect and what it can bring about beyond it, said in the words the statements use. -/

namespace Sys2Proof

open Machine

/-! ### Commands to a rank -/

/-- The anomaly conditions that a command to rank `r` meets in the state before it (R10). -/
def Instr.anomaly (c : Instr) (r : Fin 2) (s : State) : Anomaly :=
  { ranks := if c.rankAnomalous (s.channel.ranks.look r) then [r] else []
    bankOpen := false
    mode := c.modeAnomalous s.channel }

/-- What a command to rank `r` can bring about beyond its effect (R13). -/
def Instr.beyond (c : Instr) (r : Fin 2) : Beyond := if c.closesRank then .closes r else .nothing

/-- The write burst that a command adds to those that owe a record (R9, R12, R23, R25). -/
def Instr.writeOwed (c : Instr) (r : Fin 2) (s : State) : List Burst :=
  match c with
  | .write _ b column chop | .writeAutoPrecharge _ b column chop =>
    match (s.channel.ranks.look r).banks.look b with
    | some row =>
      if s.channel.following = .following ∧ !(c.anomaly r s).any ∧ !s.channel.writeTraining then
        [s.burstAt r b row column chop s.channel.writeLatency]
      else []
    | none => []
  | _ => []

/-- The read burst that a command adds to those that owe a record (R9, R12, R24, R25). -/
def Instr.readOwed (c : Instr) (r : Fin 2) (s : State) : List Burst :=
  match c with
  | .read _ b column chop | .readAutoPrecharge _ b column chop =>
    match (s.channel.ranks.look r).banks.look b with
    | some row =>
      if s.channel.following = .following ∧ !(c.anomaly r s).any ∧ !s.channel.diversion then
        [s.burstAt r b row column chop s.channel.readLatency]
      else []
    | none => []
  | _ => []

/-- The channel after the effect of a command to rank `r` (R3, R4, R12, R25). -/
def Instr.channelEffect (c : Instr) (r : Fin 2) (s : State) : Channel :=
  { s.channel with
    ranks := s.channel.ranks.put r (c.rankEffect s.straps (s.channel.ranks.look r))
    writeBursts := s.channel.writeBursts ++ c.writeOwed r s
    readBursts := s.channel.readBursts ++ c.readOwed r s }

theorem Instr.anomaly_any (c : Instr) (r : Fin 2) (s : State) :
    (c.anomaly r s).any = (c.rankAnomalous (s.channel.ranks.look r) || c.modeAnomalous s.channel) := by
  unfold Instr.anomaly Anomaly.any
  cases c.rankAnomalous (s.channel.ranks.look r) <;> rfl

/-- Outside FOLLOWING, and at an anomaly, a command adds no write burst. -/
theorem Instr.writeOwed_eq_nil {c : Instr} {r : Fin 2} {s : State}
    (h : s.channel.following ≠ .following ∨ (c.anomaly r s).any = true) : c.writeOwed r s = [] := by
  unfold Instr.writeOwed
  split
  · split
    · exact if_neg fun k => by rcases h with h | h <;> simp_all
    · rfl
  · split
    · exact if_neg fun k => by rcases h with h | h <;> simp_all
    · rfl
  · rfl

theorem Instr.readOwed_eq_nil {c : Instr} {r : Fin 2} {s : State}
    (h : s.channel.following ≠ .following ∨ (c.anomaly r s).any = true) : c.readOwed r s = [] := by
  unfold Instr.readOwed
  split
  · split
    · exact if_neg fun k => by rcases h with h | h <;> simp_all
    · rfl
  · split
    · exact if_neg fun k => by rcases h with h | h <;> simp_all
    · rfl
  · rfl

namespace Machine

/-- Two takings of a command agree when the anomalies, what lies beyond the effect, and the effects on this state do. -/
theorem State.takeCommand_congr {s : State} {a a' : Anomaly} {e e' : State → State} {y y' : Beyond} (ha : a = a')
    (he : e s = e' s) (hy : y = y') : s.takeCommand a e y = s.takeCommand a' e' y' := by
  subst ha hy
  unfold State.takeCommand State.takeBlind
  simp only [he]

theorem Rank.anyOpen_eq (k : Rank) : k.anyOpen = decide (∃ b : Fin 8, (k.banks.look b).isSome = true) := by
  rw [Bool.eq_iff_iff, Rank.anyOpen_iff, decide_eq_true_iff]
  simp only [Option.isSome_iff_ne_none]

end Machine

/-- The channel after a command that moves no data. -/
theorem Instr.channelEffect_of_noData {c : Instr} {r : Fin 2} {s : State} (hw : c.writeOwed r s = [])
    (hr : c.readOwed r s = []) : c.channelEffect r s =
      { s.channel with ranks := s.channel.ranks.put r (c.rankEffect s.straps (s.channel.ranks.look r)) } := by
  simp only [Instr.channelEffect, hw, hr, List.append_nil]

/-- The effect of a command on its rank's entry, as an update of the rank. -/
theorem Instr.updRank_eq_effect {c : Instr} {r : Fin 2} {s : State} {f : Rank → Rank}
    (hf : f (s.channel.ranks.look r) = c.rankEffect s.straps (s.channel.ranks.look r)) (hw : c.writeOwed r s = [])
    (hr : c.readOwed r s = []) : s.updRank r f = { s with channel := c.channelEffect r s } := by
  rw [Instr.channelEffect_of_noData hw hr, ← hf]
  rfl

/-- What a WRITE does as the follower takes it, in the statements' words. -/
theorem takeWriteCommand_eq {c : Instr} {r : Fin 2} {s : State} {bank : Fin 8} {column : BitVec 11}
    {chop close : Bool}
    (hc : c = if close then .writeAutoPrecharge r.1 bank column chop else .write r.1 bank column chop) :
    s.takeWriteCommand r bank column chop close =
      s.takeCommand (c.anomaly r s) (fun s => { s with channel := c.channelEffect r s }) (c.beyond r) := by
  have ha : s.accessAnomaly r bank s.channel.diversion = c.anomaly r s := by
    subst hc
    cases close <;> rfl
  have hk : (if close then (s.channel.ranks.look r).awake.setBank bank none else (s.channel.ranks.look r).awake) =
      c.rankEffect s.straps (s.channel.ranks.look r) := by
    subst hc
    cases close <;> rfl
  have hr : c.readOwed r s = [] := by
    subst hc
    cases close <;> rfl
  have hy : Beyond.nothing = c.beyond r := by
    subst hc
    cases close <;> rfl
  have hw : c.writeOwed r s = match (s.channel.ranks.look r).banks.look bank with
      | some row =>
        if s.channel.following = .following ∧ !(c.anomaly r s).any ∧ !s.channel.writeTraining then
          [s.burstAt r bank row column chop s.channel.writeLatency]
        else []
      | none => [] := by
    subst hc
    cases close <;> rfl
  unfold State.takeWriteCommand
  refine State.takeCommand_congr ha ?_ hy
  simp only [Instr.channelEffect, hr, hw, ← hk, ← ha, List.append_nil]
  cases (s.channel.ranks.look r).banks.look bank with
  | none => simp only [List.append_nil]; rfl
  | some row =>
    dsimp only
    split
    · rfl
    · simp only [List.append_nil]; rfl

/-- What a READ does as the follower takes it, in the statements' words. -/
theorem takeReadCommand_eq {c : Instr} {r : Fin 2} {s : State} {bank : Fin 8} {column : BitVec 11}
    {chop close : Bool}
    (hc : c = if close then .readAutoPrecharge r.1 bank column chop else .read r.1 bank column chop) :
    s.takeReadCommand r bank column chop close =
      s.takeCommand (c.anomaly r s) (fun s => { s with channel := c.channelEffect r s }) (c.beyond r) := by
  have ha : s.accessAnomaly r bank s.channel.writeTraining = c.anomaly r s := by
    subst hc
    cases close <;> rfl
  have hk : (if close then (s.channel.ranks.look r).awake.setBank bank none else (s.channel.ranks.look r).awake) =
      c.rankEffect s.straps (s.channel.ranks.look r) := by
    subst hc
    cases close <;> rfl
  have hw : c.writeOwed r s = [] := by
    subst hc
    cases close <;> rfl
  have hy : Beyond.nothing = c.beyond r := by
    subst hc
    cases close <;> rfl
  have hr : c.readOwed r s = match (s.channel.ranks.look r).banks.look bank with
      | some row =>
        if s.channel.following = .following ∧ !(c.anomaly r s).any ∧ !s.channel.diversion then
          [s.burstAt r bank row column chop s.channel.readLatency]
        else []
      | none => [] := by
    subst hc
    cases close <;> rfl
  unfold State.takeReadCommand
  refine State.takeCommand_congr ha ?_ hy
  simp only [Instr.channelEffect, hr, hw, ← hk, ← ha, List.append_nil]
  cases (s.channel.ranks.look r).banks.look bank with
  | none => simp only [List.append_nil]; rfl
  | some row =>
    dsimp only
    split
    · rfl
    · simp only [List.append_nil]; rfl

/-- A command to a rank that is taken: its anomaly, its effect and what it can bring about beyond it. -/
theorem exec_of_takenBy {c : Instr} {r : Fin 2} {s : State} (h : c.takenBy r s) :
    exec c s = .next (s.takeCommand (c.anomaly r s) (fun s => { s with channel := c.channelEffect r s })
      (c.beyond r)) := by
  obtain ⟨hrank, hcal, hr, hline⟩ := h
  cases c <;> simp only [Instr.rank?, reduceCtorEq, Option.some.injEq] at hrank <;> subst hrank
  case calibrate => exact absurd rfl hcal
  all_goals
    simp only [exec, execActivate, execPrecharge, execPrechargeAll, execWrite, execWriteAutoPrecharge, execRead,
      execReadAutoPrecharge, execRefresh, execPowerDownEntry, execPowerDownExit, execSelfRefreshEntry,
      execSelfRefreshExit, State.onRank_taken s r _ hline hr, Host.Outcome.next.injEq]
  case write => exact takeWriteCommand_eq rfl
  case writeAutoPrecharge => exact takeWriteCommand_eq rfl
  case read => exact takeReadCommand_eq rfl
  case readAutoPrecharge => exact takeReadCommand_eq rfl
  case refresh =>
    refine State.takeCommand_congr ?_ (Instr.updRank_eq_effect rfl rfl rfl) rfl
    rw [Rank.anyOpen_eq]
    rfl
  case selfRefreshEntry =>
    refine State.takeCommand_congr ?_ (Instr.updRank_eq_effect rfl rfl rfl) rfl
    rw [Rank.anyOpen_eq]
    rfl
  all_goals exact State.takeCommand_congr rfl (Instr.updRank_eq_effect rfl rfl rfl) rfl

end Sys2Proof
end

section
/-! SUPPORT. What the loss of the channel, leaving FOLLOWING and a command in a blind interval make of the state (R12 to
R21, R58). -/

namespace Sys2Proof.Machine

/-! ### Every entry into WAIT_MODES or RESYNC (R20) -/

theorem allHeads_nodup : allHeads.Nodup := List.nodup_finRange 4

theorem mem_allHeads (h : Fin 4) : h ∈ allHeads := List.mem_finRange h

/-- The followers after each head of a list that is not OFF has been sent to SEEK. -/
theorem State.seekEach_look (l : List (Fin 4)) (hl : l.Nodup) (s : State) (k : Fin 4) :
    (l.foldl (fun s h => if s.isOn h then s.updScan h Scan.toSeek else s) s).scans.look k =
      if k ∈ l ∧ s.isOn k = true then (s.scans.look k).toSeek else s.scans.look k := by
  induction l generalizing s with
  | nil => simp
  | cons h l ih =>
    obtain ⟨hh, hl⟩ := List.nodup_cons.1 hl
    have on : (if s.isOn h then s.updScan h Scan.toSeek else s).isOn k = s.isOn k := by split <;> rfl
    have scan : (if s.isOn h then s.updScan h Scan.toSeek else s).scans.look k =
        if k = h ∧ s.isOn h = true then (s.scans.look h).toSeek else s.scans.look k := by
      by_cases hon : s.isOn h = true <;> simp [hon, Table.look_upd]
    rw [List.foldl_cons, ih hl, on, scan]
    by_cases hk : k = h
    · subst hk; simp [hh]
    · simp [hk]

/-- Every head that is not OFF has its follower in SEEK at line 0 (R20, R82). -/
theorem State.allToSeek_scans (s : State) (h : Fin 4) :
    s.allToSeek.scans.look h =
      if s.isOn h then { s.scans.look h with mode := .seek, cursor := 0 } else s.scans.look h := by
  have looked := State.seekEach_look allHeads allHeads_nodup s h
  simp only [mem_allHeads, true_and] at looked
  exact looked

/-- An abandonment is read from the slots and from its count alone. -/
theorem State.abandons_of_eq {s t s' t' : State} {p : Record → Bool} (h : s.abandons p t)
    (hs : s'.slots = s.slots) (hn : s'.counters.capturesAbandoned = s.counters.capturesAbandoned)
    (ht : t'.slots = t.slots) (hm : t'.counters.capturesAbandoned = t.counters.capturesAbandoned) :
    s'.abandons p t' := by
  unfold State.abandons State.holds at *
  rwa [hs, hn, ht, hm]

/-- Marks are read from the surfaces, and their cause from the slots. -/
theorem State.marksOf_of_eq {s t s' t' : State} {p : Record → Prop} {id : Fin 16} (h : s.marksOf p id t)
    (hf : s'.surfaces = s.surfaces) (hs : s'.slots = s.slots) (ht : t'.surfaces = t.surfaces) :
    s'.marksOf p id t' := by
  unfold State.marksOf State.isStale at *
  rwa [hf, hs, ht]

/-- From `s` to `t` the channel is lost (R20, R25, R98): no burst owes a record, every CAPTURING record is abandoned,
counted and its tile marked, every follower goes to SEEK at line 0, and heads, budget and encoder stay. -/
structure State.LosesChannel (s t : State) : Prop where
  following : t.channel.following = s.channel.following
  ranks : t.channel.ranks = s.channel.ranks
  shadow : t.channel.shadow = s.channel.shadow
  writeBursts : t.channel.writeBursts = []
  readBursts : t.channel.readBursts = []
  abandons : s.abandons (fun _ => true) t
  marks : ∀ id, s.marksOf (fun r => r.state = .capturing) id t
  scans : ∀ h, t.scans.look h =
    if s.isOn h then { s.scans.look h with mode := .seek, cursor := 0 } else s.scans.look h
  heads : t.heads = s.heads
  budget : t.budget = s.budget
  encodeQueue : t.encodeQueue = s.encodeQueue
  encoder : t.encoder = s.encoder
  anomalies : t.counters.anomalies = s.counters.anomalies

/-- An abandonment counts on no counter but its own. -/
theorem State.abandonWhere_anomalies (s : State) (p : Record → Bool) :
    (s.abandonWhere p).counters.anomalies = s.counters.anomalies := by
  rw [State.abandonWhere_counters]

theorem State.loseChannel_loses (s : State) : s.LosesChannel s.loseChannel where
  following := by simp
  ranks := by simp
  shadow := by simp
  writeBursts := by simp [State.loseChannel]
  readBursts := by simp [State.loseChannel]
  abandons := by
    have abandons := State.abandonWhere_abandons (fun _ => true)
      { s with channel := { s.channel with writeBursts := [], readBursts := [] } }
    unfold State.loseChannel
    exact State.abandons_of_eq abandons rfl rfl (by simp) (by simp)
  marks id := by
    have marks := State.abandonWhere_marksOf (fun _ => true)
      { s with channel := { s.channel with writeBursts := [], readBursts := [] } } id
    simp only [and_true] at marks
    unfold State.loseChannel
    exact State.marksOf_of_eq marks rfl rfl (by simp)
  scans h := by
    unfold State.loseChannel
    rw [State.allToSeek_scans]
    simp [State.isOn]
  heads := by simp
  budget := by simp
  encodeQueue := by simp
  encoder := by simp
  anomalies := by simp [State.loseChannel, State.abandonWhere_anomalies]

/-- The raising of an event loses nothing more. -/
theorem State.LosesChannel.raise {s t : State} (h : s.LosesChannel t) (e : Event) : s.LosesChannel (t.raise e) where
  following := by simpa using h.following
  ranks := by simpa using h.ranks
  shadow := by simpa using h.shadow
  writeBursts := by simpa using h.writeBursts
  readBursts := by simpa using h.readBursts
  abandons := State.abandons_of_eq h.abandons rfl rfl (by simp) (by simp)
  marks id := State.marksOf_of_eq (h.marks id) rfl rfl (by simp)
  scans k := by simpa using h.scans k
  heads := by simpa using h.heads
  budget := by simpa using h.budget
  encodeQueue := by simpa using h.encodeQueue
  encoder := by simpa using h.encoder
  anomalies := by simpa using h.anomalies

/-- FOLLOWING is left for RESYNC (R17). -/
structure State.LeavesFollowing (s t : State) : Prop where
  following : t.channel.following = .resync
  ranks : ∀ r, t.channel.ranks.look r = { s.channel.ranks.look r with knownClosed := false }
  shadow : t.channel.shadow = s.channel.shadow
  writeBursts : t.channel.writeBursts = []
  readBursts : t.channel.readBursts = []
  anomalies : t.counters.anomalies = saturatingAdd s.counters.anomalies 1
  link : t.link = s.link.raise .followLost
  abandons : s.abandons (fun _ => true) t
  marks : ∀ id, s.marksOf (fun r => r.state = .capturing) id t
  scans : ∀ h, t.scans.look h =
    if s.isOn h then { s.scans.look h with mode := .seek, cursor := 0 } else s.scans.look h
  heads : t.heads = s.heads
  budget : t.budget = s.budget
  encodeQueue : t.encodeQueue = s.encodeQueue
  encoder : t.encoder = s.encoder

theorem State.leaveFollowing_leaves (s : State) : s.LeavesFollowing s.leaveFollowing := by
  unfold State.leaveFollowing
  extract_lets counted _ resync cleared
  have lost := cleared.loseChannel_loses.raise .followLost
  exact
    { following := lost.following
      ranks := fun r => (congrArg (Table.look · r) lost.ranks).trans (resync.updRanks_ranks _ r)
      shadow := lost.shadow
      writeBursts := lost.writeBursts
      readBursts := lost.readBursts
      anomalies := lost.anomalies
      link := by simp only [State.raise, State.loseChannel_frame]; rfl
      abandons := State.abandons_of_eq lost.abandons rfl rfl rfl rfl
      marks := fun id => State.marksOf_of_eq (lost.marks id) rfl rfl rfl
      scans := lost.scans
      heads := lost.heads
      budget := lost.budget
      encodeQueue := lost.encodeQueue
      encoder := lost.encoder }

/-! ### Commands taken in FOLLOWING (R17) -/

theorem State.takeCommand_following {s : State} (h : s.channel.following = .following) (a : Anomaly)
    (e : State → State) (y : Beyond) :
    s.takeCommand a e y =
      if a.any || (decide (y = .modeSet) && !(e s).channel.shadowSupported) then (e s).leaveFollowing else e s := by
  simp only [State.takeCommand, h]

/-! ### Commands taken in a blind interval (R12, R13, R18, R19, R21) -/

/-- Clearing known-closed flags changes the ranks alone. -/
theorem State.clearKnown_eq (a : Anomaly) (s : State) :
    s.clearKnown a = { s with channel := { s.channel with ranks := (s.clearKnown a).channel.ranks } } := by
  unfold State.clearKnown
  induction a.ranks generalizing s with
  | nil => rfl
  | cons r l ih =>
    rw [List.foldl_cons]
    exact ih _

theorem State.setKnown_eq (y : Beyond) (s : State) :
    s.setKnown y = { s with channel := { s.channel with ranks := (s.setKnown y).channel.ranks } } := by
  cases y <;> rfl

/-- The ranks after the flags of a list of ranks have been cleared. -/
theorem State.clearKnown_look (a : Anomaly) (s : State) (r : Fin 2) :
    (s.clearKnown a).channel.ranks.look r =
      if r ∈ a.ranks then { s.channel.ranks.look r with knownClosed := false } else s.channel.ranks.look r := by
  unfold State.clearKnown
  induction a.ranks generalizing s with
  | nil => simp
  | cons q l ih =>
    rw [List.foldl_cons, ih, State.updRank_ranks, Table.look_upd]
    by_cases hr : r = q
    · subst hr; simp
    · simp [hr]

theorem State.mem_ranks (s : State) (r : Fin 2) : r ∈ s.ranks ↔ r.1 < s.straps.rankCount := by
  simp [State.ranks]

/-- Whether every rank of the channel is known-closed. -/
theorem State.allKnown_iff (s : State) :
    (s.ranks.all fun r => (s.channel.ranks.look r).knownClosed) = true ↔
      ∀ r : Fin 2, r.1 < s.straps.rankCount → (s.channel.ranks.look r).knownClosed = true := by
  simp only [List.all_eq_true, State.mem_ranks]

/-- The support of the shadow is read from the shadow alone. -/
theorem Channel.shadowSupported_congr {c d : Channel} (h : c.shadow = d.shadow) :
    c.shadowSupported = d.shadowSupported := by
  cases c
  cases d
  cases h
  rfl

/-- The state of a command in a blind interval before R19's test: its effect, the count and the flags. -/
def State.flagged (a : Anomaly) (y : Beyond) (counted : Bool) (u : State) : State :=
  ((if counted then u.count .anomalies else u).clearKnown a).setKnown y

theorem State.takeBlind_eq (s : State) (a : Anomaly) (e : State → State) (y : Beyond) (counted : Bool) :
    s.takeBlind a e y counted =
      if y = .nothing then State.flagged a y counted (e s) else (State.flagged a y counted (e s)).testFollowing := rfl

/-- The count and the flags change the ranks and the count of anomalies alone. -/
theorem State.flagged_eq (a : Anomaly) (y : Beyond) (counted : Bool) (u : State) :
    State.flagged a y counted u =
      { u with
        channel := { u.channel with ranks := (State.flagged a y counted u).channel.ranks }
        counters := { u.counters with
          anomalies := if counted then saturatingAdd u.counters.anomalies 1 else u.counters.anomalies } } := by
  unfold State.flagged
  rw [State.setKnown_eq, State.clearKnown_eq]
  cases counted <;> rfl

/-- From `s` to `t` FOLLOWING is entered with blind marking (R21, R58). -/
structure State.EntersFollowing (s t : State) : Prop where
  following : t.channel.following = .following
  ranks : t.channel.ranks = s.channel.ranks
  shadow : t.channel.shadow = s.channel.shadow
  writeBursts : t.channel.writeBursts = s.channel.writeBursts
  readBursts : t.channel.readBursts = s.channel.readBursts
  anomalies : t.counters.anomalies = s.counters.anomalies
  latches : t.link.latches = (s.link.raise .blindRefresh).latches
  withdraws : s.withdraws (fun r => decide (r.state ≠ .capturing)) t
  surfaces : ∀ id, t.surfaces.look id = (s.surfaces.look id).map Surface.markWhole
  heads : t.heads = s.heads
  scans : t.scans = s.scans
  encoder : t.encoder = s.encoder
  wire : t.link.wire = s.link.wire

/-- A withdrawal leaves a SENDING record, named or not. -/
theorem State.withdraws_but_sending {s t : State}
    (h : s.withdraws (fun r => decide (r.state ≠ .capturing ∧ r.state ≠ .sending)) t) :
    s.withdraws (fun r => decide (r.state ≠ .capturing)) t := by
  have after : Record.afterWithdrawal (fun r => decide (r.state ≠ .capturing ∧ r.state ≠ .sending)) =
      Record.afterWithdrawal fun r => decide (r.state ≠ .capturing) := by
    funext r
    cases hr : r.state <;> simp [Record.afterWithdrawal, hr]
  have named : ∀ st, st ≠ RecordState.sending → ∀ q : Record → Bool, ∀ i,
      s.holds st (fun r => decide (r.state ≠ .capturing ∧ r.state ≠ .sending) && q r) i =
        s.holds st (fun r => decide (r.state ≠ .capturing) && q r) i := by
    intro st hst q i
    rw [State.holds_eq, State.holds_eq]
    cases s.slots.look i with
    | none => rfl
    | some r =>
      by_cases hr : r.state = st
      · simp [hr, hst]
      · simp [hr]
  have all st (hst : st ≠ RecordState.sending) i := named st hst (fun _ => true) i
  simp only [Bool.and_true] at all
  unfold State.withdraws at *
  simpa only [after, all .captured (by decide), all .capturing (by decide), named .deferred (by decide),
    named .queued (by decide)] using h

theorem State.withdraws_of_eq {s t s' t' : State} {p : Record → Bool} (h : s.withdraws p t)
    (hs : s'.slots = s.slots) (hq : s'.encodeQueue = s.encodeQueue) (hb : s'.budget.heads = s.budget.heads)
    (hl : s'.link.send = s.link.send) (hc : s'.counters.capturesAbandoned = s.counters.capturesAbandoned)
    (ts : t'.slots = t.slots) (tq : t'.encodeQueue = t.encodeQueue) (tb : t'.budget.heads = t.budget.heads)
    (tl : t'.link.send = t.link.send) (tc : t'.counters.capturesAbandoned = t.counters.capturesAbandoned) :
    s'.withdraws p t' := by
  unfold State.withdraws State.holds at *
  rwa [hs, hq, hb, hl, hc, ts, tq, tb, tl, tc]

/-- A withdrawal counts on no counter but its own. -/
theorem State.withdrawWhere_anomalies (s : State) (p : Record → Bool) :
    (s.withdrawWhere p).counters.anomalies = s.counters.anomalies := by
  rw [State.withdrawWhere_counters]

/-- The latches after an event are read from the latches before it. -/
theorem Link.raise_latches (l : Link) (e : Event) :
    (l.raise e).latches = if l.latches &&& e.bit = 0 then l.latches ||| e.bit else l.latches := by
  unfold Link.raise
  split <;> rfl

theorem State.enterFollowing_enters (s : State) : s.EntersFollowing s.enterFollowing where
  following := by simp [State.enterFollowing]
  ranks := by simp
  shadow := by simp
  writeBursts := by simp
  readBursts := by simp
  anomalies := by simp [State.enterFollowing, State.blindMarking, State.withdrawWhere_anomalies]
  latches := by simp [State.enterFollowing, State.raise, Link.raise_latches]
  withdraws := by
    have withdraws := State.withdraws_but_sending (State.withdrawWhere_withdraws
      (fun r => decide (r.state ≠ .capturing ∧ r.state ≠ .sending))
      (State.markEverySurface { s with channel := { s.channel with following := .following } }))
    refine State.withdraws_of_eq withdraws ?_ ?_ ?_ ?_ ?_ ?_ ?_ ?_ ?_ ?_
    all_goals simp [State.enterFollowing, State.blindMarking]
  surfaces id := by
    simp only [State.enterFollowing, State.raise_frame]
    exact State.blindMarking_surfaces _ id
  heads := by simp
  scans := by simp
  encoder := by simp
  wire := by simp

/-- What a command in a blind interval leaves (R16 to R21): the statements' conclusion, for a command that enters
FOLLOWING or not and is counted or not. -/
def State.concludesBlind (enters counted : Prop) (s t : State) : Prop :=
  t.channel.writeBursts = s.channel.writeBursts ∧ t.channel.readBursts = s.channel.readBursts ∧
    (counted → t.counters.anomalies = saturatingAdd s.counters.anomalies 1) ∧
    (¬ counted → t.counters.anomalies = s.counters.anomalies) ∧
    (enters → t.channel.following = .following ∧ t.link.latches = (s.link.raise .blindRefresh).latches ∧
      s.withdraws (fun r => decide (r.state ≠ .capturing)) t ∧
      (∀ id, t.surfaces.look id = (s.surfaces.look id).map fun f =>
        { f with stale := List.replicate f.geometry.tileCount true }) ∧
      t.heads = s.heads ∧ t.scans = s.scans ∧ t.encoder = s.encoder ∧ t.link.wire = s.link.wire) ∧
    (¬ enters → t.channel.following = s.channel.following ∧
      t = { s with channel := t.channel, counters := { s.counters with anomalies := t.counters.anomalies } })

/-- R19's test after a command in a blind interval, from the state with its effect, count and flags. -/
theorem State.testFollowing_concludes {s : State} (hs : s.channel.following ≠ .following) (counted : Bool)
    (ranks : Table 2 Rank) (shadow : Table 4 ShadowRegister) (tested : Prop) [Decidable tested] :
    let w : State := { s with
      channel := { s.channel with ranks := ranks, shadow := shadow }
      counters := { s.counters with
        anomalies := if counted then saturatingAdd s.counters.anomalies 1 else s.counters.anomalies } }
    let t := if tested then w.testFollowing else w
    t.channel.shadow = shadow ∧ t.channel.ranks = ranks ∧
      s.concludesBlind (tested ∧ w.channel.shadowSupported = true ∧
        ∀ r : Fin 2, r.1 < s.straps.rankCount → (ranks.look r).knownClosed = true) (counted = true) t := by
  intro w t
  have counts : (counted = true → w.counters.anomalies = saturatingAdd s.counters.anomalies 1) ∧
      (¬ counted = true → w.counters.anomalies = s.counters.anomalies) :=
    ⟨fun h => if_pos h, fun h => if_neg h⟩
  have known := w.allKnown_iff
  by_cases enters : tested ∧ w.channel.shadowSupported = true ∧
      ∀ r : Fin 2, r.1 < s.straps.rankCount → (ranks.look r).knownClosed = true
  · obtain ⟨htested, hsupported, hknown⟩ := enters
    have ht : t = w.enterFollowing := by
      simp only [t, if_pos htested, State.testFollowing]
      exact if_pos ⟨hs, known.2 hknown, hsupported⟩
    have e := w.enterFollowing_enters
    rw [← ht] at e
    refine ⟨e.shadow, e.ranks, e.writeBursts, e.readBursts, fun h => e.anomalies.trans (counts.1 h),
      fun h => e.anomalies.trans (counts.2 h), fun _ => ⟨e.following, e.latches, ?_, e.surfaces, e.heads, e.scans,
      e.encoder, e.wire⟩, fun h => absurd ⟨htested, hsupported, hknown⟩ h⟩
    exact State.withdraws_of_eq e.withdraws rfl rfl rfl rfl rfl rfl rfl rfl rfl rfl
  · have ht : t = w := by
      by_cases htested : tested
      · simp only [t, if_pos htested, State.testFollowing]
        exact if_neg fun h => enters ⟨htested, h.2.2, known.1 h.2.1⟩
      · simp only [t, if_neg htested]
    rw [ht]
    exact ⟨rfl, rfl, rfl, rfl, counts.1, counts.2, fun h => absurd h enters, fun _ => ⟨rfl, rfl⟩⟩

/-- A command in a blind interval whose effect changes the channel's ranks and shadow alone. -/
theorem State.takeBlind_concludes {s : State} (hs : s.channel.following ≠ .following) (a : Anomaly) (y : Beyond)
    (counted : Bool) (e : State → State) (ranks flagged : Table 2 Rank) (shadow : Table 4 ShadowRegister)
    (he : e s = { s with channel := { s.channel with ranks := ranks, shadow := shadow } })
    (hf : (State.flagged a y counted (e s)).channel.ranks = flagged) :
    let t := s.takeBlind a e y counted
    t.channel.shadow = shadow ∧ t.channel.ranks = flagged ∧
      s.concludesBlind (y ≠ .nothing ∧ ({ s.channel with shadow := shadow } : Channel).shadowSupported = true ∧
        ∀ r : Fin 2, r.1 < s.straps.rankCount → (flagged.look r).knownClosed = true) (counted = true) t := by
  have hw : State.flagged a y counted (e s) = { s with
      channel := { s.channel with ranks := flagged, shadow := shadow }
      counters := { s.counters with
        anomalies := if counted then saturatingAdd s.counters.anomalies 1 else s.counters.anomalies } } := by
    rw [State.flagged_eq, hf, he]
  have supported : ({ s.channel with ranks := flagged, shadow := shadow } : Channel).shadowSupported =
      ({ s.channel with shadow := shadow } : Channel).shadowSupported := Channel.shadowSupported_congr rfl
  have concluded := State.testFollowing_concludes hs counted flagged shadow (y ≠ .nothing)
  rw [State.takeBlind_eq, hw]
  simpa only [supported, ite_not, ne_eq] using concluded

end Sys2Proof.Machine
end

section
/-! SUPPORT. The commands of the Channel Follower in FOLLOWING (R2 to R10, R17, R22 to R25). -/

namespace Sys2Proof.Machine

/-! ### Commands without effect, and in FOLLOWING -/

/-- Settles O7: a command to a missing rank is not taken, and CALIBRATE and NO-OP have no effect. -/
theorem commandsWithoutEffect : Obligations.CommandsWithoutEffect := by
  refine ⟨fun c rank s hc hr => ?_, fun s => rfl, fun rank s => rfl⟩
  cases c <;> simp only [Instr.rank?, reduceCtorEq, Option.some.injEq] at hc <;> subst hc
  case calibrate => rfl
  all_goals exact congrArg Host.Outcome.next (State.onRank_missing s _ _ hr)

/-- In FOLLOWING a command to a rank that is no anomaly leaves its effect (R16, R17). -/
theorem exec_following_clean {c : Instr} {r : Fin 2} {s : State} (ht : c.takenBy r s)
    (hf : s.channel.following = .following)
    (ha : (c.rankAnomalous (s.channel.ranks.look r) || c.modeAnomalous s.channel) = false) :
    exec c s = .next { s with channel := c.channelEffect r s } := by
  have hy : c.beyond r ≠ .modeSet := by
    unfold Instr.beyond
    split <;> simp
  rw [exec_of_takenBy ht, State.takeCommand_following hf, Instr.anomaly_any, ha, decide_eq_false hy]
  rfl

/-- In FOLLOWING a command to a rank that is an anomaly has its effect, and FOLLOWING is left (R17). -/
theorem exec_following_anomaly {c : Instr} {r : Fin 2} {s : State} (ht : c.takenBy r s)
    (hf : s.channel.following = .following)
    (ha : (c.rankAnomalous (s.channel.ranks.look r) || c.modeAnomalous s.channel) = true) :
    exec c s = .next (State.leaveFollowing { s with channel := c.channelEffect r s }) := by
  rw [exec_of_takenBy ht, State.takeCommand_following hf, Instr.anomaly_any, ha]
  rfl

/-- As `exec_following_clean`, for a command that moves no data. -/
theorem exec_following_noData {c : Instr} {r : Fin 2} {s : State} (ht : c.takenBy r s)
    (hf : s.channel.following = .following) (hrank : c.rankAnomalous (s.channel.ranks.look r) = false)
    (hmode : c.modeAnomalous s.channel = false) (hw : c.writeOwed r s = []) (hr : c.readOwed r s = []) :
    exec c s = .next { s with channel := { s.channel with
      ranks := s.channel.ranks.put r (c.rankEffect s.straps (s.channel.ranks.look r)) } } := by
  rw [exec_following_clean ht hf (by rw [hrank, hmode]; rfl), Instr.channelEffect_of_noData hw hr]

/-- The effect of MODE SET: every rank ACTIVE, the register with its value and valid (R5, log 8). -/
def State.modeSetChannel (n : Fin 4) (v : BitVec 16) (s : State) : Channel :=
  { s.channel with
    ranks := Table.tab fun r => (s.channel.ranks.look r).awake
    shadow := s.channel.shadow.put n { value := v, valid := true } }

/-- MODE SET as the follower takes it (R5, R10). -/
theorem exec_modeSet {n : Fin 4} {v : BitVec 16} {s : State} (hl : s.memoryResetLine = false) :
    exec (.modeSet n v) s =
      .next (s.takeCommand s.modeSetAnomaly (fun s => { s with channel := s.modeSetChannel n v }) .modeSet) := by
  simp only [exec, execModeSet, hl, Bool.false_eq_true, if_false]
  rfl

/-- The ranks that a MODE SET finds asleep (R10 condition 4). -/
theorem State.mem_modeSetAnomaly_ranks (s : State) (r : Fin 2) :
    r ∈ s.modeSetAnomaly.ranks ↔ r.1 < s.straps.rankCount ∧ (s.channel.ranks.look r).power ≠ .active := by
  simp only [State.modeSetAnomaly, List.mem_filter, State.mem_ranks, Rank.asleep, decide_eq_true_iff]

/-- Whether a MODE SET finds a bank OPEN (R10 condition 5). -/
theorem State.modeSetAnomaly_bankOpen (s : State) :
    s.modeSetAnomaly.bankOpen = true ↔
      ∃ r : Fin 2, r.1 < s.straps.rankCount ∧ ∃ b, (s.channel.ranks.look r).banks.look b ≠ none := by
  simp only [State.modeSetAnomaly, List.any_eq_true, State.mem_ranks, Rank.anyOpen_iff]

/-- An anomaly has a rank among its ranks, or is of MODE SET's banks or of the modes (R10). -/
theorem Anomaly.any_iff (a : Anomaly) :
    a.any = true ↔ (∃ r, r ∈ a.ranks) ∨ a.bankOpen = true ∨ a.mode = true := by
  rw [← List.length_pos_iff_exists_mem, List.length_pos_iff, ← List.isEmpty_eq_false_iff]
  simp only [Anomaly.any, Bool.or_eq_true, Bool.not_eq_true', or_assoc]

/-- MODE SET is an anomaly exactly when a rank sleeps or has a bank OPEN (R10 conditions 4 and 5). -/
theorem State.modeSetAnomaly_any (s : State) :
    s.modeSetAnomaly.any = true ↔ ∃ r : Fin 2, r.1 < s.straps.rankCount ∧
      ((s.channel.ranks.look r).power ≠ .active ∨ ∃ b, (s.channel.ranks.look r).banks.look b ≠ none) := by
  have mode : s.modeSetAnomaly.mode = false := rfl
  rw [Anomaly.any_iff, State.modeSetAnomaly_bankOpen]
  simp only [State.mem_modeSetAnomaly_ranks, mode, Bool.false_eq_true, or_false,
    ← exists_or, ← and_or_left]

/-- MODE SET in FOLLOWING without an anomaly and with the shadow supported after it leaves its effect. -/
theorem exec_modeSet_following_clean {n : Fin 4} {v : BitVec 16} {s : State} (hl : s.memoryResetLine = false)
    (hf : s.channel.following = .following) (ha : s.modeSetAnomaly.any = false)
    (hs : (s.modeSetChannel n v).shadowSupported = true) :
    exec (.modeSet n v) s = .next { s with channel := s.modeSetChannel n v } := by
  rw [exec_modeSet hl, State.takeCommand_following hf, ha]
  simp only [hs]
  rfl

/-- A command that leaves an ACTIVE rank ACTIVE, and its banks alone, leaves the ranks alone. -/
theorem State.ranks_put_active {s : State} {r : Fin 2} (h : (s.channel.ranks.look r).power = .active) :
    s.channel.ranks.put r { s.channel.ranks.look r with power := .active } = s.channel.ranks := by
  rw [← h, Table.put_look]

/-- Settles O8: each command is taken without an anomaly, so it leaves its effect alone. -/
theorem commandsInFollowing : Obligations.CommandsInFollowing := by
  refine ⟨fun s r bank row hf hl hr hp => ?_, fun s r hf hl hr => ?_, fun s n v hf hl hk => ?_⟩
  · have activate : (Instr.activate r.1 bank row).takenBy r s := ⟨rfl, nofun, hr, hl⟩
    have precharge : (Instr.precharge r.1 bank).takenBy r s := ⟨rfl, nofun, hr, hl⟩
    have prechargeAll : (Instr.prechargeAll r.1).takenBy r s := ⟨rfl, nofun, hr, hl⟩
    refine ⟨fun hb => ?_, ?_, ?_⟩
    · rw [exec_following_noData activate hf (by simp [Instr.rankAnomalous, hp, hb]) rfl rfl rfl]
      simp only [Instr.rankEffect, ← hp]
    · rw [exec_following_noData precharge hf (by simp [Instr.rankAnomalous, hp]) rfl rfl rfl]
      simp only [Instr.rankEffect, ← hp]
    · rw [exec_following_noData prechargeAll hf (by simp [Instr.rankAnomalous, hp]) rfl rfl rfl]
      simp only [Instr.rankEffect, ← hp]
  · intro k withPower
    have refresh : (Instr.refresh r.1).takenBy r s := ⟨rfl, nofun, hr, hl⟩
    refine ⟨fun hp hb => ?_, fun hp => ?_, fun hp hb => ?_, fun hp => ?_, fun hp => ?_⟩
    · rw [exec_following_noData refresh hf (by simp [Instr.rankAnomalous, hp, hb, k]) rfl rfl rfl]
      simp only [Instr.rankEffect, State.ranks_put_active hp]
    · exact exec_following_noData ⟨rfl, nofun, hr, hl⟩ hf (by simp [Instr.rankAnomalous, hp, k]) rfl rfl rfl
    · exact exec_following_noData ⟨rfl, nofun, hr, hl⟩ hf (by simp [Instr.rankAnomalous, hp, hb, k]) rfl rfl rfl
    · exact exec_following_noData ⟨rfl, nofun, hr, hl⟩ hf
        (by rcases hp with hp | hp <;> simp [Instr.rankAnomalous, hp, k]) rfl rfl rfl
    · exact exec_following_noData ⟨rfl, nofun, hr, hl⟩ hf
        (by rcases hp with hp | hp <;> simp [Instr.rankAnomalous, hp, k]) rfl rfl rfl
  · intro after hs
    have same : s.modeSetChannel n v = after := by
      have awake : (Table.tab fun r => (s.channel.ranks.look r).awake) = s.channel.ranks :=
        Table.ext_look fun r => by rw [Table.look_tab, Rank.awake_of_active _ (hk r).1]
      simp only [State.modeSetChannel, awake, after]
    have clean : s.modeSetAnomaly.any = false := by
      rw [← Bool.not_eq_true, State.modeSetAnomaly_any]
      rintro ⟨r, -, hp | ⟨b, hb⟩⟩
      · exact hp (hk r).1
      · exact hb ((hk r).2 b)
    rw [exec_modeSet_following_clean hl hf clean (same ▸ hs), same]

/-- The burst of a command, in the words of R7 and R22 to R24. -/
theorem State.burstAt_eq {s : State} {chop : Bool} {n : Nat}
    (hn : (s.channel.burstMode = .fixed8 ∧ n = 8) ∨
      (s.channel.burstMode = .perCommandChop ∧ n = if chop then 4 else 8) ∨
      (s.channel.burstMode = .fixedChop ∧ n = 4))
    (r : Fin 2) (bank : Fin 8) (row : Nat) (column : BitVec 11) (latency : Nat) :
    s.burstAt r bank row column chop latency =
      let c := column.toNat % s.straps.columnCount
      { address := s.straps.address r.1 bank.1 row (c - c % n), columns := n, start := c % n,
        exchange := s.channel.exchangeOrder, latency := latency } := by
  have columns : s.channel.burstColumns chop = n := by
    unfold Channel.burstColumns
    rcases hn with ⟨hm, rfl⟩ | ⟨hm, rfl⟩ | ⟨hm, rfl⟩ <;> rw [hm]
  simp only [State.burstAt, columns, groupBase, Straps.columnOf]

/-- A WRITE of either variant to an OPEN bank in FOLLOWING, no anomaly: the writes that owe a record after it (R9). -/
theorem Instr.writeBursts_of_clean {s : State} {r : Fin 2} {bank : Fin 8} {row : Nat} {column : BitVec 11}
    {chop : Bool} {c : Instr} (hc : c = .write r.1 bank column chop ∨ c = .writeAutoPrecharge r.1 bank column chop)
    (hf : s.channel.following = .following) (hb : (s.channel.ranks.look r).banks.look bank = some row)
    (ha : (c.rankAnomalous (s.channel.ranks.look r) || c.modeAnomalous s.channel) = false) :
    s.channel.writeBursts ++ c.writeOwed r s =
      if s.channel.writeTraining then s.channel.writeBursts
      else s.channel.writeBursts ++ [s.burstAt r bank row column chop s.channel.writeLatency] := by
  rcases hc with rfl | rfl <;>
  · simp only [Instr.writeOwed, hb, hf, Instr.anomaly_any, ha]
    cases s.channel.writeTraining <;> simp

/-- A READ of either variant to an OPEN bank in FOLLOWING, no anomaly: the reads that owe a record after it (R9). -/
theorem Instr.readBursts_of_clean {s : State} {r : Fin 2} {bank : Fin 8} {row : Nat} {column : BitVec 11}
    {chop : Bool} {c : Instr} (hc : c = .read r.1 bank column chop ∨ c = .readAutoPrecharge r.1 bank column chop)
    (hf : s.channel.following = .following) (hb : (s.channel.ranks.look r).banks.look bank = some row)
    (ha : (c.rankAnomalous (s.channel.ranks.look r) || c.modeAnomalous s.channel) = false) :
    s.channel.readBursts ++ c.readOwed r s =
      if s.channel.diversion then s.channel.readBursts
      else s.channel.readBursts ++ [s.burstAt r bank row column chop s.channel.readLatency] := by
  rcases hc with rfl | rfl <;>
  · simp only [Instr.readOwed, hb, hf, Instr.anomaly_any, ha]
    cases s.channel.diversion <;> simp

/-- As `exec_following_clean`, with the ranks and bursts after the command named. -/
theorem exec_following_data {c : Instr} {r : Fin 2} {s : State} (ht : c.takenBy r s)
    (hf : s.channel.following = .following)
    (ha : (c.rankAnomalous (s.channel.ranks.look r) || c.modeAnomalous s.channel) = false)
    {ranks : Table 2 Rank} {writes reads : List Burst}
    (hk : s.channel.ranks.put r (c.rankEffect s.straps (s.channel.ranks.look r)) = ranks)
    (hw : s.channel.writeBursts ++ c.writeOwed r s = writes) (hr : s.channel.readBursts ++ c.readOwed r s = reads) :
    exec c s = .next { s with channel :=
      { s.channel with ranks := ranks, writeBursts := writes, readBursts := reads } } := by
  rw [exec_following_clean ht hf ha, Instr.channelEffect, hk, hw, hr]

/-- Settles O9: the burst that the command adds is the one that R7 and R22 to R24 give. -/
theorem burstCommandsInFollowing : Obligations.BurstCommandsInFollowing := by
  intro s r bank row column chop n c hf hl hr hp hb hn hc burst closed writes reads
  have owed latency : s.burstAt r bank row column chop latency = burst latency := by
    rw [State.burstAt_eq hn, ← hc]
  have stays := State.ranks_put_active hp
  have closes : s.channel.ranks.put r { s.channel.ranks.look r with
      power := .active, banks := (s.channel.ranks.look r).banks.put bank none } = closed := by
    rw [← hp]
  have reached : (decide ((s.channel.ranks.look r).power ≠ .active) ||
      ((s.channel.ranks.look r).banks.look bank).isNone) = false := by
    simp [hp, hb]
  refine ⟨fun hd => ?_, fun ht => ?_⟩
  · have clean : (decide ((s.channel.ranks.look r).power ≠ .active) ||
        ((s.channel.ranks.look r).banks.look bank).isNone || s.channel.diversion) = false := by
      rw [reached, hd]; rfl
    refine ⟨exec_following_data (c := .write r.1 bank column chop) ⟨rfl, nofun, hr, hl⟩ hf clean stays ?_
        (List.append_nil _), exec_following_data (c := .writeAutoPrecharge r.1 bank column chop)
        ⟨rfl, nofun, hr, hl⟩ hf clean closes ?_ (List.append_nil _)⟩
    · rw [Instr.writeBursts_of_clean (.inl rfl) hf hb clean, owed]
    · rw [Instr.writeBursts_of_clean (.inr rfl) hf hb clean, owed]
  · have clean : (decide ((s.channel.ranks.look r).power ≠ .active) ||
        ((s.channel.ranks.look r).banks.look bank).isNone || s.channel.writeTraining) = false := by
      rw [reached, ht]; rfl
    refine ⟨exec_following_data (c := .read r.1 bank column chop) ⟨rfl, nofun, hr, hl⟩ hf clean stays
        (List.append_nil _) ?_, exec_following_data (c := .readAutoPrecharge r.1 bank column chop)
        ⟨rfl, nofun, hr, hl⟩ hf clean closes (List.append_nil _) ?_⟩
    · rw [Instr.readBursts_of_clean (.inl rfl) hf hb clean, owed]
    · rw [Instr.readBursts_of_clean (.inr rfl) hf hb clean, owed]

end Sys2Proof.Machine
end

section
/-! SUPPORT. Leaving FOLLOWING (R17), and the commands in a blind interval (R12, R13, R18 to R21). -/

namespace Sys2Proof.Machine

/-! ### FOLLOWING is left -/

/-- What leaving FOLLOWING leaves, from the state before the command's effect on the channel. -/
theorem State.LeavesFollowing.before {s t : State} {ch : Channel} (h : { s with channel := ch }.LeavesFollowing t) :
    t.channel.following = .resync ∧ t.channel.writeBursts = [] ∧ t.channel.readBursts = [] ∧
      t.counters.anomalies = saturatingAdd s.counters.anomalies 1 ∧ t.link = s.link.raise .followLost ∧
      s.abandons (fun _ => true) t ∧ (∀ id, s.marksOf (fun r => r.state = .capturing) id t) ∧
      (∀ k, t.scans.look k =
        if s.isOn k then { s.scans.look k with mode := .seek, cursor := 0 } else s.scans.look k) ∧
      t.heads = s.heads ∧ t.budget = s.budget ∧ t.encodeQueue = s.encodeQueue ∧ t.encoder = s.encoder :=
  ⟨h.following, h.writeBursts, h.readBursts, h.anomalies, h.link, State.abandons_of_eq h.abandons rfl rfl rfl rfl,
    fun id => State.marksOf_of_eq (h.marks id) rfl rfl rfl, h.scans, h.heads, h.budget, h.encodeQueue, h.encoder⟩

/-- MODE SET leaves the banks of every rank and makes every rank ACTIVE. -/
theorem State.modeSetChannel_rank (n : Fin 4) (v : BitVec 16) (s : State) (r : Fin 2) :
    (s.modeSetChannel n v).ranks.look r = { s.channel.ranks.look r with power := .active } := by
  simp only [State.modeSetChannel, Table.look_tab]
  rfl

/-- Settles O10: at an anomaly, and with an unsupported shadow after a MODE SET, FOLLOWING is left from the state with
the command's effect; else that effect is all. -/
theorem followingIsLeftAtAnAnomaly : Obligations.FollowingIsLeftAtAnAnomaly := by
  refine ⟨fun c r s ht hf => ?_, fun n v s hl hf => ?_⟩
  · intro k after
    cases ha : c.rankAnomalous k || c.modeAnomalous s.channel with
    | true =>
      have left := State.leaveFollowing_leaves { s with channel := c.channelEffect r s }
      exact ⟨_, exec_following_anomaly ht hf ha, left.shadow, fun _ => ⟨left.before, left.ranks⟩, nofun⟩
    | false =>
      exact ⟨_, exec_following_clean ht hf ha, rfl, nofun, fun _ => ⟨hf, rfl, rfl⟩⟩
  · intro after anomaly
    have supported : (s.modeSetChannel n v).shadowSupported = after.shadowSupported :=
      Channel.shadowSupported_congr rfl
    have rank r := s.modeSetChannel_rank n v r
    by_cases hc : anomaly ∨ after.shadowSupported = false
    · have hx : (s.modeSetAnomaly.any || !(s.modeSetChannel n v).shadowSupported) = true := by
        rw [Bool.or_eq_true, State.modeSetAnomaly_any, supported, Bool.not_eq_true']
        exact hc
      have left := State.leaveFollowing_leaves { s with channel := s.modeSetChannel n v }
      have ranks r : (State.leaveFollowing { s with channel := s.modeSetChannel n v }).channel.ranks.look r =
          { s.channel.ranks.look r with power := .active, knownClosed := false } := by
        rw [left.ranks, rank]
      refine ⟨_, (exec_modeSet hl).trans (by rw [State.takeCommand_following hf]; exact congrArg _ (if_pos hx)),
        left.shadow, fun r => ?_, fun _ => ⟨left.before, fun r => ?_⟩, fun h => absurd hc ?_⟩
      · rw [ranks r]
        exact ⟨rfl, rfl⟩
      · rw [ranks r]
      · simp [h.1, h.2]
    · have hno : ¬ anomaly := fun h => hc (.inl h)
      have hs : (s.modeSetChannel n v).shadowSupported = true := by
        rw [supported, ← Bool.not_eq_false]
        exact fun h => hc (.inr h)
      have clean : s.modeSetAnomaly.any = false := by
        rw [← Bool.not_eq_true, State.modeSetAnomaly_any]
        exact hno
      refine ⟨_, exec_modeSet_following_clean hl hf clean hs, rfl, fun r => ?_, fun h => absurd h hc,
        fun _ => ⟨hf, rfl⟩⟩
      rw [rank r]
      exact ⟨rfl, rfl⟩

/-! ### A command in a blind interval -/

/-- Whether a command in a blind interval is counted: in WAIT_MODES at every anomaly, in RESYNC at one that the
known-closed flags bear out (R16, R18). -/
def State.countsBlind (a : Anomaly) (s : State) : Bool :=
  if s.channel.following = .waitModes then a.any else s.judged a

theorem State.takeCommand_blind {s : State} (hs : s.channel.following ≠ .following) (a : Anomaly)
    (e : State → State) (y : Beyond) : s.takeCommand a e y = s.takeBlind a e y (s.countsBlind a) := by
  unfold State.takeCommand State.countsBlind
  cases hf : s.channel.following with
  | waitModes => rfl
  | resync => rfl
  | following => exact absurd hf hs

/-- What is counted in a blind interval, by the kinds of anomaly: one of a rank in WAIT_MODES or when that rank is
known-closed, one of the banks in WAIT_MODES or when every rank is, one of the modes always. -/
theorem State.countsBlind_iff (a : Anomaly) (s : State) :
    s.countsBlind a = true ↔
      (∃ r ∈ a.ranks, s.channel.following = .waitModes ∨ (s.channel.ranks.look r).knownClosed = true) ∨
        (a.bankOpen = true ∧ (s.channel.following = .waitModes ∨
          ∀ r : Fin 2, r.1 < s.straps.rankCount → (s.channel.ranks.look r).knownClosed = true)) ∨
        a.mode = true := by
  unfold State.countsBlind
  by_cases hw : s.channel.following = .waitModes
  · simp only [hw, if_true, Anomaly.any_iff, true_or, and_true]
  · simp only [hw, if_false, State.judged, Bool.or_eq_true, Bool.and_eq_true, List.any_eq_true, State.allKnown_iff,
      false_or, or_assoc]

/-- The ranks after the count and the flags of a command in a blind interval (R13). -/
theorem State.flagged_look (a : Anomaly) (y : Beyond) (counted : Bool) (u : State) (q : Fin 2) :
    (State.flagged a y counted u).channel.ranks.look q = { u.channel.ranks.look q with
      knownClosed :=
        if y = .closes q then true else if q ∈ a.ranks then false else (u.channel.ranks.look q).knownClosed } := by
  have cleared : ((if counted then u.count .anomalies else u).clearKnown a).channel.ranks.look q =
      { u.channel.ranks.look q with
        knownClosed := if q ∈ a.ranks then false else (u.channel.ranks.look q).knownClosed } := by
    rw [State.clearKnown_look]
    cases counted <;> split <;> rfl
  unfold State.flagged State.setKnown
  cases y with
  | nothing => simpa using cleared
  | modeSet => simpa using cleared
  | closes r =>
    by_cases hq : q = r
    · subst hq
      simp [cleared]
    · simp [cleared, Table.look_upd, hq, Ne.symm hq]

/-- The known-closed flag is not part of a command's effect (R13). -/
theorem Instr.rankEffect_knownClosed (p : Straps) (c : Instr) (k : Rank) :
    (c.rankEffect p k).knownClosed = k.knownClosed := by
  cases c <;> rfl

theorem Instr.mem_anomaly_ranks (c : Instr) (r q : Fin 2) (s : State) :
    q ∈ (c.anomaly r s).ranks ↔ q = r ∧ c.rankAnomalous (s.channel.ranks.look r) = true := by
  unfold Instr.anomaly
  split <;> simp [*]

theorem Instr.beyond_eq_closes (c : Instr) (r q : Fin 2) :
    c.beyond r = .closes q ↔ q = r ∧ c.closesRank = true := by
  unfold Instr.beyond
  split <;> simp [*, eq_comm]

theorem Instr.beyond_ne_nothing (c : Instr) (r : Fin 2) : c.beyond r ≠ .nothing ↔ c.closesRank = true := by
  unfold Instr.beyond
  split <;> simp [*]

/-- The ranks after a command in a blind interval (R3, R4, R12, R13). -/
theorem Instr.flagged_ranks (c : Instr) (r : Fin 2) (s : State) (counted : Bool) :
    let k := s.channel.ranks.look r
    let flag := if c.closesRank then true else if c.rankAnomalous k then false else k.knownClosed
    (State.flagged (c.anomaly r s) (c.beyond r) counted { s with channel := c.channelEffect r s }).channel.ranks =
      s.channel.ranks.put r { c.rankEffect s.straps k with knownClosed := flag } := by
  intro k flag
  refine Table.ext_look fun q => ?_
  rw [State.flagged_look]
  simp only [Instr.beyond_eq_closes, Instr.mem_anomaly_ranks, Instr.channelEffect, Table.look_put]
  by_cases hq : q = r
  · subst hq
    simp only [true_and, if_true, Instr.rankEffect_knownClosed, flag, k]
  · simp only [hq, false_and, if_false]

/-- When a command in a blind interval is counted (R16, R18). -/
theorem Instr.countsBlind_iff (c : Instr) (r : Fin 2) (s : State) :
    s.countsBlind (c.anomaly r s) = true ↔
      c.modeAnomalous s.channel = true ∨ (c.rankAnomalous (s.channel.ranks.look r) = true ∧
        (s.channel.following = .waitModes ∨ (s.channel.ranks.look r).knownClosed = true)) := by
  have bank : (c.anomaly r s).bankOpen = false := rfl
  have mode : (c.anomaly r s).mode = c.modeAnomalous s.channel := rfl
  rw [State.countsBlind_iff]
  simp only [Instr.mem_anomaly_ranks, and_assoc, exists_eq_left, bank, mode, Bool.false_eq_true, false_and, false_or]
  exact or_comm

/-- The ranks after a MODE SET in a blind interval (R12, R13, log 8). -/
theorem State.modeSet_flagged_look (n : Fin 4) (v : BitVec 16) (s : State) (counted : Bool) (r : Fin 2) :
    (State.flagged s.modeSetAnomaly .modeSet counted { s with channel := s.modeSetChannel n v }).channel.ranks.look r =
      { s.channel.ranks.look r with
        power := .active
        knownClosed := if r ∈ s.modeSetAnomaly.ranks then false else (s.channel.ranks.look r).knownClosed } := by
  rw [State.flagged_look]
  simp only [State.modeSetChannel_rank, reduceCtorEq, if_false]

/-- The conclusion depends on what enters and what is counted up to equivalence. -/
theorem State.concludesBlind_congr {enters enters' counted counted' : Prop} {s t : State} (he : enters ↔ enters')
    (hc : counted ↔ counted') (h : s.concludesBlind enters counted t) : s.concludesBlind enters' counted' t := by
  rwa [← propext he, ← propext hc]

/-- Settles O11: a command in a blind interval is its effect, its count and its flags, then R19's test. -/
theorem commandsInABlindInterval : Obligations.CommandsInABlindInterval := by
  refine ⟨fun c r s ht hs => ?_, fun n v s hl hs => ?_⟩
  · intro k flag after enters counted
    have noWrite : c.writeOwed r s = [] := Instr.writeOwed_eq_nil (.inl hs)
    have noRead : c.readOwed r s = [] := Instr.readOwed_eq_nil (.inl hs)
    obtain ⟨shadow, ranks, concluded⟩ := State.takeBlind_concludes hs (c.anomaly r s) (c.beyond r)
      (s.countsBlind (c.anomaly r s)) (fun s => { s with channel := c.channelEffect r s }) _ after s.channel.shadow
      (by rw [Instr.channelEffect_of_noData noWrite noRead]) (Instr.flagged_ranks c r s _)
    refine ⟨_, (exec_of_takenBy ht).trans (by rw [State.takeCommand_blind hs]), shadow, ranks, ?_⟩
    exact State.concludesBlind_congr (and_congr_left' (Instr.beyond_ne_nothing c r)) (Instr.countsBlind_iff c r s)
      concluded
  · intro after asleep known everyKnown opened counted enters
    have awake r : (if r ∈ s.modeSetAnomaly.ranks then false else (s.channel.ranks.look r).knownClosed) = true ↔
        known r ∧ ¬ asleep r := by
      by_cases hr : r ∈ s.modeSetAnomaly.ranks
      · simp [hr, asleep, (s.mem_modeSetAnomaly_ranks r).1 hr]
      · simp only [hr, if_false, known, asleep, ← State.mem_modeSetAnomaly_ranks, not_false_eq_true, and_true]
    obtain ⟨shadow, ranks, concluded⟩ := State.takeBlind_concludes hs s.modeSetAnomaly .modeSet
      (s.countsBlind s.modeSetAnomaly) (fun s => { s with channel := s.modeSetChannel n v }) _ _ after.shadow rfl rfl
    refine ⟨_, (exec_modeSet hl).trans (by rw [State.takeCommand_blind hs]), shadow, fun r => ?_,
      State.concludesBlind_congr ?_ ?_ concluded⟩
    · rw [ranks, State.modeSet_flagged_look]
      exact ⟨rfl, rfl, awake r⟩
    · simp only [State.modeSet_flagged_look, awake, ne_eq, reduceCtorEq, not_false_eq_true, true_and]
      constructor
      · rintro ⟨hsup, hknown⟩
        exact ⟨fun r hr => (hknown r hr).1, fun r ha => (hknown r ha.1).2 ha, hsup⟩
      · rintro ⟨hknown, hawake, hsup⟩
        exact ⟨hsup, fun r hr => ⟨hknown r hr, hawake r⟩⟩
    · have mode : s.modeSetAnomaly.mode = false := rfl
      simp only [State.countsBlind_iff, State.mem_modeSetAnomaly_ranks, State.modeSetAnomaly_bankOpen, mode,
        Bool.false_eq_true, or_false]
      exact Iff.rfl

end Sys2Proof.Machine
end

section
/-! SUPPORT. The memory reset line (R15) and part reset as the follower has it (R8, R14). -/

namespace Sys2Proof.Machine

/-! ### The memory reset line -/

/-- The channel while the memory reset line is asserted (R15). -/
def Channel.heldInReset (c : Channel) : Channel :=
  { c with
    following := .waitModes
    ranks := Table.tab fun _ => { banks := Table.const none, power := .active, knownClosed := true }
    shadow := Table.tab fun n => { c.shadow.look n with valid := false } }

/-- From `s` to `t` the memory reset line is asserted (R15, R20). -/
structure State.AssertsMemoryReset (s t : State) : Prop where
  straps : t.straps = s.straps
  line : t.memoryResetLine = true
  following : t.channel.following = .waitModes
  ranks : ∀ r, t.channel.ranks.look r = { banks := Table.const none, power := .active, knownClosed := true }
  shadow : ∀ n, t.channel.shadow.look n = { s.channel.shadow.look n with valid := false }
  link : t.link = s.link.raise .memoryReset
  anomalies : t.counters.anomalies = s.counters.anomalies
  abandons : s.abandons (fun _ => true) t
  marks : ∀ id, s.marksOf (fun r => r.state = .capturing) id t
  scans : ∀ h, t.scans.look h =
    if s.isOn h then { s.scans.look h with mode := .seek, cursor := 0 } else s.scans.look h
  heads : t.heads = s.heads

/-- The assertion holds the channel in reset, loses it and raises MEMORY_RESET. -/
theorem State.assertMemoryReset_eq (s : State) :
    s.assertMemoryReset =
      (State.loseChannel { s with memoryResetLine := true, channel := s.channel.heldInReset }).raise .memoryReset :=
  rfl

theorem State.assertMemoryReset_asserts (s : State) : s.AssertsMemoryReset s.assertMemoryReset := by
  have lost := (State.loseChannel_loses
    { s with memoryResetLine := true, channel := s.channel.heldInReset }).raise .memoryReset
  rw [State.assertMemoryReset_eq]
  exact
    { straps := by simp
      line := by simp
      following := lost.following
      ranks := fun r => by rw [lost.ranks]; exact Table.look_tab ..
      shadow := fun n => by rw [lost.shadow]; exact Table.look_tab ..
      link := by simp only [State.raise, State.loseChannel_frame]
      anomalies := lost.anomalies
      abandons := State.abandons_of_eq lost.abandons rfl rfl rfl rfl
      marks := fun id => State.marksOf_of_eq (lost.marks id) rfl rfl rfl
      scans := lost.scans
      heads := lost.heads }

/-- After an abandonment of every record no slot is CAPTURING. -/
theorem State.abandons_all {s t : State} (h : s.abandons (fun _ => true) t) (i : Fin 64) (r : Record)
    (hr : t.slots.look i = some r) : r.state ≠ .capturing := by
  rw [h.1 i, Option.filter_eq_some_iff] at hr
  simpa using hr.2

/-- While the memory reset line is asserted a command of the channel changes nothing (R15). -/
theorem exec_held {c : Instr} {s : State} (hl : s.memoryResetLine = true)
    (hc : c.rank? ≠ none ∨ c = .noOp ∨ ∃ n v, c = .modeSet n v) : exec c s = .next s := by
  rcases hc with hc | rfl | ⟨n, v, rfl⟩
  · cases c <;> simp only [Instr.rank?, ne_eq, reduceCtorEq, not_false_eq_true, not_true_eq_false] at hc
    case calibrate => rfl
    all_goals exact congrArg Host.Outcome.next (State.onRank_held s _ _ hl)
  · rfl
  · exact if_pos hl

/-- Settles O12: the assertion is a loss of the channel held in reset. -/
theorem memoryResetLine : Obligations.MemoryResetLine := by
  refine ⟨fun s => ?_, fun c s hl hc => exec_held hl hc, fun s => rfl⟩
  have a := s.assertMemoryReset_asserts
  refine ⟨_, rfl, a.line, a.following, fun r => ?_, a.shadow, a.link, a.anomalies, State.abandons_all a.abandons,
    a.abandons, a.marks, fun h hon => ?_, a.heads⟩
  · rw [a.ranks]
    exact ⟨fun b => Table.look_const .., rfl, rfl⟩
  · have on : s.isOn h = true := by
      simpa only [State.isOn, a.heads] using hon
    rw [a.scans, if_pos on]
    exact ⟨rfl, rfl⟩

/-! ### Part reset -/

/-- The contents that part reset loads (TABLE 6). -/
theorem profileRegister_eq (p : Straps) :
    p.profileRegister 0 = [0x0006#16, 0x0808#16, 0x1009#16, 0x180B#16].getD p.startProfile.1 0 ∧
      p.profileRegister 1 = 0x0000#16 ∧
      p.profileRegister 2 = [0x0400#16, 0x0500#16, 0x0600#16, 0x0800#16].getD p.startProfile.1 0 ∧
      p.profileRegister 3 = 0x0000#16 := by
  unfold Straps.profileRegister
  generalize p.startProfile = k
  revert k
  decide

/-- What the follower reads from a shadow with the contents of a start profile (TABLE 5, TABLE 6). -/
theorem Channel.fields_of_profile {c : Channel} {p : Straps}
    (h : ∀ n, (c.shadow.look n).value = p.profileRegister n) :
    c.burstMode = [BurstMode.fixed8, .fixed8, .perCommandChop, .perCommandChop].getD p.startProfile.1 .fixed8 ∧
      c.exchangeOrder = [false, true, false, true].getD p.startProfile.1 false ∧
      c.readLatency = [11, 13, 14, 16].getD p.startProfile.1 0 ∧
      c.writeLatency = [8, 9, 10, 12].getD p.startProfile.1 0 ∧ c.writeTraining = false ∧ c.diversion = false := by
  obtain ⟨h0, h1, h2, h3⟩ := profileRegister_eq p
  simp only [Channel.burstMode, Channel.exchangeOrder, Channel.readLatency, Channel.readLatencyCode,
    Channel.writeLatency, Channel.writeLatencyCode, Channel.writeTraining, Channel.diversion, h, h0, h1, h2, h3]
  generalize p.startProfile = k
  revert k
  decide

/-- Every start profile is supported while its registers are valid (R8). -/
theorem Channel.supported_of_profile {c : Channel} {p : Straps} {valid : Bool}
    (h : ∀ n, (c.shadow.look n).value = p.profileRegister n) (hv : ∀ n, (c.shadow.look n).valid = valid) :
    c.shadowSupported = valid := by
  have fields : ∀ k : Fin 4, ([BurstMode.fixed8, .fixed8, .perCommandChop, .perCommandChop].getD k.1 .fixed8 ≠
      .unsupported) ∧ [11, 13, 14, 16].getD k.1 0 ≤ 11 + 5 ∧ [8, 9, 10, 12].getD k.1 0 ≤ 10 + 4 := by decide
  obtain ⟨mode, read, write⟩ := fields p.startProfile
  obtain ⟨hmode, -, hread, hwrite, -, -⟩ := Channel.fields_of_profile h
  rw [← hmode] at mode
  rw [← hread] at read
  rw [← hwrite] at write
  have readCode : c.readLatencyCode ≤ 11 := by unfold Channel.readLatency at read; omega
  have writeCode : c.writeLatencyCode ≤ 10 := by unfold Channel.writeLatency at write; omega
  simp only [Channel.shadowSupported, hv, mode, readCode, writeCode, ne_eq, not_false_eq_true, decide_true,
    Bool.and_true, Bool.and_self]

/-- The follower after part reset: the shadow holds the start profile, and the line's assertion is on top of it. -/
structure State.FollowsReset (p : Straps) (line : Bool) (t : State) : Prop where
  straps : t.straps = p
  memoryReset : t.memoryResetLine = line
  ranks : ∀ r, t.channel.ranks.look r = { banks := Table.const none, power := .active, knownClosed := line }
  shadow : ∀ n, t.channel.shadow.look n = { value := p.profileRegister n, valid := !line }
  anomalies : t.counters.anomalies = 0
  following : t.channel.following = if line then .waitModes else .resync
  latches : t.link.latches = if line then Event.memoryReset.bit else 0

/-- The relay is no part of the follower. -/
theorem State.FollowsReset.updRelay {p : Straps} {line : Bool} {t : State} (h : t.FollowsReset p line)
    (f : Relay → Relay) : (t.updRelay f).FollowsReset p line where
  straps := by simpa using h.straps
  memoryReset := by simpa using h.memoryReset
  ranks := by simpa using h.ranks
  shadow := by simpa using h.shadow
  anomalies := by simpa using h.anomalies
  following := by simpa using h.following
  latches := by simpa using h.latches

/-- The line asserted on a follower that holds a start profile. -/
theorem State.AssertsMemoryReset.followsReset {p : Straps} {s t : State} (h : s.AssertsMemoryReset t)
    (hs : s.straps = p) (hn : ∀ n, s.channel.shadow.look n = { value := p.profileRegister n, valid := true })
    (ha : s.counters.anomalies = 0) (hl : s.link.latches = 0) : t.FollowsReset p true where
  straps := h.straps.trans hs
  memoryReset := h.line
  ranks := h.ranks
  shadow n := by rw [h.shadow, hn]; rfl
  anomalies := h.anomalies.trans ha
  following := h.following
  latches := by rw [h.link, Link.raise_latches, hl]; rfl

theorem execPartReset_follows (p : Straps) (line ready : Bool) (s : State) :
    ∃ t, exec (.partReset p line ready) s = .next t ∧ t.FollowsReset p line := by
  have loaded n : (State.initial p line ready).channel.shadow.look n =
      { value := p.profileRegister n, valid := true } := Table.look_tab ..
  refine ⟨_, rfl, State.FollowsReset.updRelay ?_ _⟩
  cases line with
  | false =>
    exact
      { straps := rfl, memoryReset := rfl, ranks := fun r => Table.look_const .., shadow := loaded, anomalies := rfl
        following := rfl, latches := rfl }
  | true => exact (State.assertMemoryReset_asserts _).followsReset rfl loaded rfl rfl

/-- Settles O4: part reset loads the start profile, and the assertion of the line then keeps its contents. -/
theorem partResetFollower : Obligations.PartResetFollower := by
  intro p line ready s
  obtain ⟨t, ht, f⟩ := execPartReset_follows p line ready s
  obtain ⟨h0, h1, h2, h3⟩ := profileRegister_eq p
  have value n : (t.channel.shadow.look n).value = p.profileRegister n := by rw [f.shadow]
  have valid n : (t.channel.shadow.look n).valid = !line := by rw [f.shadow]
  obtain ⟨mode, order, read, write, training, diversion⟩ := Channel.fields_of_profile value
  refine ⟨t, ht, f.straps, f.memoryReset, fun r => ?_, valid, (value 0).trans h0, (value 1).trans h1,
    (value 2).trans h2, (value 3).trans h3, mode, order, read, write, training, diversion,
    Channel.supported_of_profile value valid, f.anomalies, fun hl => ?_, fun hl => ?_⟩
  · rw [f.ranks]
    exact ⟨fun b => Table.look_const .., rfl, rfl⟩
  · exact ⟨f.following.trans (by rw [hl]; rfl), f.latches.trans (by rw [hl]; rfl)⟩
  · exact ⟨f.following.trans (by rw [hl]; rfl), f.latches.trans (by rw [hl]; rfl)⟩

end Sys2Proof.Machine
end

section
/-! SUPPORT. The channel address (R22): a number in a mixed radix, its digits the rank, bank, row, column and byte. -/

namespace Sys2Proof.Machine

/-! ### Numbers in a mixed radix -/

/-- A number below `m * n` is a digit below `n` after a number below `m`. -/
theorem lt_mul_iff_digit {m n a : Nat} : a < m * n ↔ ∃ x i, x < m ∧ i < n ∧ a = x * n + i := by
  constructor
  · intro h
    have hn : 0 < n := Nat.pos_of_ne_zero fun hn => by simp [hn] at h
    exact ⟨a / n, a % n, Nat.div_lt_of_lt_mul (by rwa [Nat.mul_comm]), Nat.mod_lt _ hn,
      (Nat.div_add_mod' a n).symm⟩
  · rintro ⟨x, i, hx, hi, rfl⟩
    calc x * n + i < x * n + n := by omega
      _ = (x + 1) * n := (Nat.succ_mul x n).symm
      _ ≤ m * n := Nat.mul_le_mul_right n hx

/-- A number determines its last digit and the number before it. -/
theorem digit_inj {n x x' i i' : Nat} (hi : i < n) (hi' : i' < n) (h : x * n + i = x' * n + i') :
    x = x' ∧ i = i' := by
  have hn : 0 < n := by omega
  have last : i = i' := by
    have := congrArg (· % n) h
    simpa [Nat.mul_add_mod', Nat.mod_eq_of_lt hi, Nat.mod_eq_of_lt hi'] using this
  subst last
  exact ⟨Nat.eq_of_mul_eq_mul_right hn (Nat.add_right_cancel h), rfl⟩

/-- The number with five digits in the radices `A`, `B`, `C` and `W` after the first. -/
def fiveDigits (A B C W r x y c j : Nat) : Nat := (((r * A + x) * B + y) * C + c) * W + j

theorem lt_iff_fiveDigits {R A B C W a : Nat} :
    a < R * A * B * C * W ↔
      ∃ r x y c j, r < R ∧ x < A ∧ y < B ∧ c < C ∧ j < W ∧ a = fiveDigits A B C W r x y c j := by
  constructor
  · intro h
    obtain ⟨column, j, hcolumn, hj, rfl⟩ := lt_mul_iff_digit.1 h
    obtain ⟨row, c, hrow, hc, rfl⟩ := lt_mul_iff_digit.1 hcolumn
    obtain ⟨q, y, hq, hy, rfl⟩ := lt_mul_iff_digit.1 hrow
    obtain ⟨r, x, hr, hx, rfl⟩ := lt_mul_iff_digit.1 hq
    exact ⟨r, x, y, c, j, hr, hx, hy, hc, hj, rfl⟩
  · rintro ⟨r, x, y, c, j, hr, hx, hy, hc, hj, rfl⟩
    have hq := lt_mul_iff_digit.2 ⟨r, x, hr, hx, rfl⟩
    have hrow := lt_mul_iff_digit.2 ⟨_, y, hq, hy, rfl⟩
    have hcolumn := lt_mul_iff_digit.2 ⟨_, c, hrow, hc, rfl⟩
    exact lt_mul_iff_digit.2 ⟨_, j, hcolumn, hj, rfl⟩

theorem fiveDigits_inj {A B C W r x y c j r' x' y' c' j' : Nat} (hx : x < A) (hx' : x' < A) (hy : y < B)
    (hy' : y' < B) (hc : c < C) (hc' : c' < C) (hj : j < W) (hj' : j' < W)
    (h : fiveDigits A B C W r x y c j = fiveDigits A B C W r' x' y' c' j') :
    r = r' ∧ x = x' ∧ y = y' ∧ c = c' ∧ j = j' := by
  obtain ⟨hcolumn, rfl⟩ := digit_inj hj hj' h
  obtain ⟨hrow, rfl⟩ := digit_inj hc hc' hcolumn
  obtain ⟨hq, rfl⟩ := digit_inj hy hy' hrow
  obtain ⟨rfl, rfl⟩ := digit_inj hx hx' hq
  exact ⟨rfl, rfl, rfl, rfl, rfl⟩

/-! ### The address of a byte -/

/-- The number of the row of a bank among all of the channel, in the order of the straps (R22). -/
def rowNumber (p : Straps) (rank bank row : Nat) : Nat :=
  match p.order with
  | .rrbc => (rank * p.rowCount + row) * 8 + bank
  | .rbrc => (rank * 8 + bank) * p.rowCount + row

theorem address_eq (p : Straps) (r b w c : Nat) :
    p.address r b w c = (rowNumber p r b w * p.columnCount + c) * p.beatBytes := by
  unfold Straps.address rowNumber
  cases p.order <;> rfl

/-- A row holds whole groups of 8 columns. -/
theorem eight_dvd_columnCount (p : Straps) : 8 ∣ p.columnCount := by
  have three : 3 ≤ p.columnBitCount := by
    unfold Straps.columnBitCount
    split <;> decide
  exact pow_dvd_pow 2 three

/-- A group of columns aligned to a divisor of 8 is aligned in the channel's bytes. -/
theorem address_aligned (p : Straps) {n : Nat} (hn : n ∣ 8) (r b w : Nat) {c : Nat} (hc : c % n = 0) :
    p.address r b w c % (n * p.beatBytes) = 0 := by
  have row : n ∣ rowNumber p r b w * p.columnCount := (hn.trans (eight_dvd_columnCount p)).mul_left _
  rw [address_eq]
  exact Nat.mod_eq_zero_of_dvd (Nat.mul_dvd_mul_right (Nat.dvd_add row (Nat.dvd_of_mod_eq_zero hc)) _)

/-- The bytes below the channel size are those of the columns (R22). -/
theorem lt_channelSize_iff (p : Straps) (a : Nat) :
    a < p.channelSize ↔ ∃ r b w c j, r < p.rankCount ∧ b < 8 ∧ w < p.rowCount ∧ c < p.columnCount ∧
      j < p.beatBytes ∧ a = p.address r b w c + j := by
  simp only [address_eq, rowNumber]
  cases p.order with
  | rbrc => exact lt_iff_fiveDigits
  | rrbc =>
    have size : p.channelSize = p.rankCount * p.rowCount * 8 * p.columnCount * p.beatBytes := by
      rw [Straps.channelSize, Nat.mul_right_comm p.rankCount]
    rw [size, lt_iff_fiveDigits]
    constructor
    · rintro ⟨r, w, b, c, j, hr, hw, hb, hc, hj, h⟩
      exact ⟨r, b, w, c, j, hr, hb, hw, hc, hj, h⟩
    · rintro ⟨r, b, w, c, j, hr, hb, hw, hc, hj, h⟩
      exact ⟨r, w, b, c, j, hr, hw, hb, hc, hj, h⟩

/-- Settles O13: in either order the address is a number in a mixed radix, its last digit the byte of the column. -/
theorem channelAddressIsABijection : Obligations.ChannelAddressIsABijection := by
  intro p
  refine ⟨fun r b w c ho => by rw [Straps.address, ho], fun r b w c ho => by rw [Straps.address, ho],
    lt_channelSize_iff p, ?_, fun r b w c k => ?_, fun r b w c hc => address_aligned p (dvd_refl 8) r b w hc,
    fun r b w c hc => address_aligned p (by decide) r b w hc⟩
  · intro r b w c j r' b' w' c' j' _ hb hw hc hj _ hb' hw' hc' hj' h
    simp only [address_eq, rowNumber] at h
    cases ho : p.order with
    | rrbc =>
      rw [ho] at h
      obtain ⟨hr, hw, hb, hc, hj⟩ := fiveDigits_inj hw hw' hb hb' hc hc' hj hj' h
      exact ⟨hr, hb, hw, hc, hj⟩
    | rbrc =>
      rw [ho] at h
      exact fiveDigits_inj hb hb' hw hw' hc hc' hj hj' h
  · rw [address_eq, address_eq, ← Nat.add_assoc, Nat.add_mul]

end Sys2Proof.Machine
end

section
/-! SUPPORT. The bytes of the bursts (R23, R24). -/

namespace Sys2Proof.Machine

/-! ### The beats of a burst -/

/-- The beats of a burst with their places: beat `k`, for `k` below the number of columns. -/
theorem mem_beats {α : Type} {t : Table 8 α} {n i : Nat} {x : α} :
    (x, i) ∈ ((beatList t).take n).zipIdx ↔ ∃ k : Fin 8, k.1 = i ∧ i < n ∧ t.look k = x := by
  rw [List.mem_zipIdx_iff_getElem?, List.getElem?_take]
  by_cases hi : i < 8
  · by_cases hn : i < n
    · simp only [hn, if_true, beatList, true_and, List.getElem?_map]
      rw [List.getElem?_eq_getElem (by simpa using hi)]
      simp [Fin.exists_iff, hi]
    · simp [hn]
  · have : (beatList t)[i]? = none := List.getElem?_eq_none (by simp [beatList]; omega)
    simp only [this, ite_self, reduceCtorEq, false_iff]
    rintro ⟨k, rfl, -, -⟩
    exact hi k.2

theorem beatOffset_lt {e : Bool} {n s k : Nat} (hn : n = 8 ∨ n = 4) (hs : s < n) (hk : k < n) :
    beatOffset e n s k < n := by
  unfold beatOffset
  cases e with
  | false => exact Nat.mod_lt _ (by omega)
  | true =>
    rcases hn with rfl | rfl
    · exact Nat.xor_lt_two_pow (n := 3) hs hk
    · exact Nat.xor_lt_two_pow (n := 2) hs hk

theorem beatOffset_inj {e : Bool} {n s k k' : Nat} (hn : n = 8 ∨ n = 4) (hk : k < n)
    (hk' : k' < n) (h : beatOffset e n s k = beatOffset e n s k') : k = k' := by
  unfold beatOffset at h
  cases e with
  | false => rcases hn with rfl | rfl <;> simp only [Bool.false_eq_true, if_false] at h <;> omega
  | true => exact Nat.xor_right_injective h

/-- Every column of the group is carried by a beat: `s XOR c` in exchange order, `c - s` modulo the length in linear
order. -/
theorem beatOffset_surj {e : Bool} {n s c : Nat} (hn : n = 8 ∨ n = 4) (hs : s < n) (hc : c < n) :
    ∃ k, k < n ∧ beatOffset e n s k = c := by
  cases e with
  | true => exact ⟨s ^^^ c, beatOffset_lt (e := true) hn hs hc, Nat.xor_xor_cancel_left ..⟩
  | false =>
    refine ⟨(c + (n - s)) % n, Nat.mod_lt _ (by omega), ?_⟩
    simp only [beatOffset, Bool.false_eq_true, if_false]
    rcases hn with rfl | rfl <;> omega

/-! ### Blocks of one length -/

theorem length_flatMap_range {α : Type} {f : Nat → List α} {w : Nat} (n : Nat)
    (h : ∀ c, c < n → (f c).length = w) : ((List.range n).flatMap f).length = n * w := by
  have lengths : ∀ l ∈ (List.range n).map fun c => (f c).length, l = w := by
    simpa using h
  rw [List.length_flatMap, List.sum_eq_card_nsmul _ _ lengths]
  simp

/-- In blocks of one length the element at `c * w + j` is that at `j` of block `c`. -/
theorem getElem?_flatMap_range {α : Type} {f : Nat → List α} {w n c j : Nat}
    (h : ∀ c, c < n → (f c).length = w) (hc : c < n) (hj : j < w) :
    ((List.range n).flatMap f)[c * w + j]? = (f c)[j]? := by
  induction n with
  | zero => omega
  | succ n ih =>
    have before : ((List.range n).flatMap f).length = n * w := length_flatMap_range n fun c hc => h c (by omega)
    rw [List.range_succ, List.flatMap_append, List.flatMap_singleton]
    by_cases hcn : c < n
    · have inside := lt_mul_iff_digit.2 ⟨c, j, hcn, hj, rfl⟩
      rw [List.getElem?_append_left (by omega), ih (fun c hc => h c (by omega)) hcn]
    · obtain rfl : c = n := by omega
      rw [List.getElem?_append_right (by omega), before, Nat.add_sub_cancel_left]

/-! ### The data of a read burst -/

/-- The bytes that a read burst delivers for column `c` of its group. -/
def columnBytes (beatBytes : Nat) (b : Burst) (beats : Table 8 (BitVec 32)) (c : Nat) : List Byte :=
  match (((beatList beats).take b.columns).zipIdx).find? fun bk =>
      beatOffset b.exchange b.columns b.start bk.2 == c with
  | some bk => (List.range beatBytes).map (laneByte bk.1)
  | none => []

theorem reorderedBytes_eq (beatBytes : Nat) (b : Burst) (beats : Table 8 (BitVec 32)) :
    reorderedBytes beatBytes b beats = (List.range b.columns).flatMap (columnBytes beatBytes b beats) := rfl

/-- The column that beat `k` carries is delivered from beat `k`. -/
theorem columnBytes_beatOffset {b : Burst} (hn : b.columns = 8 ∨ b.columns = 4) (beatBytes : Nat)
    (beats : Table 8 (BitVec 32)) (k : Fin 8) (hk : k.1 < b.columns) :
    columnBytes beatBytes b beats (beatOffset b.exchange b.columns b.start k.1) =
      (List.range beatBytes).map (laneByte (beats.look k)) := by
  have arrives : (beats.look k, k.1) ∈ ((beatList beats).take b.columns).zipIdx := mem_beats.2 ⟨k, rfl, hk, rfl⟩
  unfold columnBytes
  cases hf : (((beatList beats).take b.columns).zipIdx).find? fun bk =>
      beatOffset b.exchange b.columns b.start bk.2 == beatOffset b.exchange b.columns b.start k.1 with
  | none => exact absurd (List.find?_eq_none.1 hf _ arrives) (by simp)
  | some bk =>
    obtain ⟨x, i⟩ := bk
    obtain ⟨q, rfl, hq, rfl⟩ := mem_beats.1 (List.mem_of_find?_eq_some hf)
    have same : q.1 = k.1 := beatOffset_inj hn hq hk (by simpa using List.find?_some hf)
    rw [Fin.ext same]

/-- Settles O14: the columns of the group are the places of the beats, each one's bytes a block of its own. -/
theorem readBeatsAreReordered : Obligations.ReadBeatsAreReordered := by
  intro W b beats _ hn hs column
  have lt k (hk : k < b.columns) : column k < b.columns := beatOffset_lt hn hs hk
  have eight : b.columns ≤ 8 := by omega
  have block c (hc : c < b.columns) : (columnBytes W b beats c).length = W := by
    obtain ⟨k, hk, rfl⟩ := beatOffset_surj (e := b.exchange) hn hs hc
    rw [columnBytes_beatOffset hn W beats ⟨k, by omega⟩ hk]
    simp
  refine ⟨?_, lt, fun c hc => ?_, fun k j hk hj => ?_⟩
  · rw [reorderedBytes_eq, length_flatMap_range _ block]
  · obtain ⟨k, hk, hkc⟩ := beatOffset_surj (e := b.exchange) hn hs hc
    exact ⟨k, hk, hkc, fun k' hk' h => beatOffset_inj hn hk' hk (h.trans hkc.symm)⟩
  · rw [reorderedBytes_eq, getElem?_flatMap_range block (lt k.1 hk) hj]
    refine (congrArg (·[j]?) (columnBytes_beatOffset hn W beats k hk)).trans ?_
    simp [hj, laneByte]

end Sys2Proof.Machine
end

section
/-! SUPPORT. An observed write in the announcement area (R26 to R29). -/

namespace Sys2Proof.Machine

/-! ### The cells of a buffer after several writes -/

/-- An offset that is not written keeps its byte. -/
theorem Buffer.read_writeAll_of_forall_ne {b : Buffer} (hb : Buffer.wf b) {cells : List (Nat × Byte)} {n : Nat}
    (h : ∀ c ∈ cells, c.1 ≠ n) : Buffer.read (Buffer.writeAll b cells) n = Buffer.read b n := by
  induction cells generalizing b with
  | nil => rfl
  | cons c cs ih =>
    rw [Buffer.writeAll_cons, ih (Buffer.write_wf hb c.1 c.2) fun d hd => h d (List.mem_cons_of_mem c hd),
      Buffer.read_write hb, if_neg (h c List.mem_cons_self).symm]

/-- An offset that is written with one byte alone holds it. -/
theorem Buffer.read_writeAll_of_mem {b : Buffer} (hb : Buffer.wf b) {cells : List (Nat × Byte)} {n : Nat} {v : Byte}
    (hv : (n, v) ∈ cells) (h : ∀ c ∈ cells, c.1 = n → c.2 = v) :
    Buffer.read (Buffer.writeAll b cells) n = v := by
  induction cells generalizing b with
  | nil => exact absurd hv List.not_mem_nil
  | cons c cs ih =>
    have rest := Buffer.write_wf hb c.1 c.2
    rw [Buffer.writeAll_cons]
    by_cases later : (n, v) ∈ cs
    · exact ih rest later fun d hd => h d (List.mem_cons_of_mem c hd)
    · obtain rfl : (n, v) = c := (List.mem_cons.1 hv).resolve_right later
      have last : ∀ d ∈ cs, d.1 ≠ n := by
        rintro ⟨m, w⟩ hd rfl
        exact later (h (m, w) (List.mem_cons_of_mem _ hd) rfl ▸ hd)
      rw [Buffer.read_writeAll_of_forall_ne rest last, Buffer.read_write hb, if_pos rfl]

/-! ### The enabled bytes of a write burst -/

/-- The byte of lane `j` in beat `k` stands at offset `k * W + j` (R23). -/
theorem mem_enabledBytes {W n i : Nat} {beats : Table 8 WriteBeat} {v : Byte} :
    (i, v) ∈ enabledBytes W n beats ↔ ∃ k : Fin 8, k.1 < n ∧ ∃ j, j < W ∧
      (beats.look k).enables.getLsbD j = true ∧ k.1 * W + j = i ∧ laneByte (beats.look k).data j = v := by
  unfold enabledBytes
  simp only [List.mem_flatMap, List.mem_filterMap, List.mem_range, Option.ite_none_right_eq_some, Prod.exists,
    mem_beats, Option.some.injEq, Prod.mk.injEq]
  constructor
  · rintro ⟨_, _, ⟨k, rfl, hk, rfl⟩, j, hj, he, hi, hv⟩
    exact ⟨k, hk, j, hj, he, hi, hv⟩
  · rintro ⟨k, hk, j, hj, he, hi, hv⟩
    exact ⟨_, _, ⟨k, rfl, hk, rfl⟩, j, hj, he, hi, hv⟩

/-- No offset is enabled twice. -/
theorem enabledBytes_unique {W n i : Nat} {beats : Table 8 WriteBeat} {v w : Byte}
    (hv : (i, v) ∈ enabledBytes W n beats) (hw : (i, w) ∈ enabledBytes W n beats) : w = v := by
  obtain ⟨k, -, j, hj, -, rfl, rfl⟩ := mem_enabledBytes.1 hv
  obtain ⟨q, -, l, hl, -, h, rfl⟩ := mem_enabledBytes.1 hw
  obtain ⟨hq, rfl⟩ := digit_inj hl hj h
  rw [Fin.ext hq]

/-! ### The assembly of a slot -/

/-- The seen flag of an offset after flags have been set (R28). -/
theorem seen_foldl {off n : Nat} (hn : n < 64) (bytes : List (Nat × Byte)) (seen : BitVec 64) :
    (bytes.foldl (fun v b => v ||| (1#64 <<< (off + b.1))) seen).getLsbD n = true ↔
      seen.getLsbD n = true ∨ ∃ x ∈ bytes, off + x.1 = n := by
  induction bytes generalizing seen with
  | nil => simp
  | cons x xs ih =>
    have one : (1#64 <<< (off + x.1)).getLsbD n = true ↔ off + x.1 = n := by
      simp only [BitVec.getLsbD_shiftLeft, BitVec.getLsbD_one, Bool.and_eq_true, Bool.not_eq_true',
        decide_eq_true_iff, decide_eq_false_iff_not]
      omega
    rw [List.foldl_cons, ih, BitVec.getLsbD_or, Bool.or_eq_true, one, List.exists_mem_cons_iff, or_assoc]

theorem DescriptorSlot.assemble_seen (d : DescriptorSlot) (off : Nat) (bytes : List (Nat × Byte)) {n : Nat}
    (hn : n < 64) : (d.assemble off bytes).seen.getLsbD n = true ↔
      d.seen.getLsbD n = true ∨ ∃ x ∈ bytes, off + x.1 = n := seen_foldl hn bytes d.seen

theorem DescriptorSlot.assemble_byte_of_forall_ne {d : DescriptorSlot} (hd : d.bytes.wf) {off n : Nat}
    {bytes : List (Nat × Byte)} (h : ∀ x ∈ bytes, off + x.1 ≠ n) : (d.assemble off bytes).byte n = d.byte n :=
  Buffer.read_writeAll_of_forall_ne hd (List.forall_mem_map.2 h)

theorem DescriptorSlot.assemble_byte_of_mem {d : DescriptorSlot} (hd : d.bytes.wf) {off n : Nat} {v : Byte}
    {bytes : List (Nat × Byte)} (hv : (n, v) ∈ bytes) (h : ∀ w, (n, w) ∈ bytes → w = v) :
    (d.assemble off bytes).byte (off + n) = v := by
  refine Buffer.read_writeAll_of_mem hd (List.mem_map.2 ⟨_, hv, rfl⟩) ?_
  intro c hc hn
  obtain ⟨⟨m, w⟩, hm, rfl⟩ := List.mem_map.1 hc
  obtain rfl : m = n := Nat.add_left_cancel hn
  exact h w hm

/-! ### The command -/

/-- An observed write at an offset of a descriptor slot goes to that slot (R27, R28). -/
theorem State.takeWrite_slot {s : State} {g off : Nat} (i : Fin 16) (hoff : off < 64)
    (hg : g = s.straps.areaBase + 64 * i.1 + off) (bytes : List (Nat × Byte)) :
    s.takeWrite g bytes = s.writeSlot i off bytes := by
  have low : s.straps.areaBase ≤ g := by omega
  have high : g < s.straps.areaBase + areaSize := by unfold areaSize; omega
  have inside : s.straps.inArea g = true := Bool.and_eq_true_iff.2 ⟨decide_eq_true low, decide_eq_true high⟩
  have slot : Fin.ofNat 16 ((g - s.straps.areaBase) / 64) = i := by
    apply Fin.ext
    rw [Fin.val_ofNat]
    omega
  have offset : (g - s.straps.areaBase) % 64 = off := by omega
  simp only [State.takeWrite, inside, if_true, slot, offset]

/-- Without a new byte 56 the slot is assembled and nothing else happens (R29). -/
theorem State.writeSlot_assembles {s : State} {i : Fin 16} {off : Nat} {bytes : List (Nat × Byte)}
    (h : (∀ x ∈ bytes, off + x.1 ≠ 56) ∨
      ((s.descriptors.look i).assemble off bytes).byte 56 = (s.descriptors.look i).generation) :
    s.writeSlot i off bytes =
      { s with descriptors := s.descriptors.put i ((s.descriptors.look i).assemble off bytes) } := by
  refine if_neg fun committed => ?_
  simp only [Bool.and_eq_true, List.any_eq_true, beq_iff_eq, decide_eq_true_iff] at committed
  obtain ⟨⟨x, hx, hoff⟩, hnew⟩ := committed
  rcases h with h | h
  · exact h x hx hoff
  · exact hnew h

/-- With a new byte 56 the commit is concluded (R29). -/
theorem State.writeSlot_concludes {s : State} {i : Fin 16} {off : Nat} {bytes : List (Nat × Byte)}
    (hx : ∃ x ∈ bytes, off + x.1 = 56)
    (hnew : ((s.descriptors.look i).assemble off bytes).byte 56 ≠ (s.descriptors.look i).generation) :
    s.writeSlot i off bytes =
      (State.conclude i ((s.descriptors.look i).assemble off bytes)
        { s with
          descriptors := s.descriptors.put i ((s.descriptors.look i).assemble off bytes) }).sendDecision := by
  refine if_pos ?_
  simp only [Bool.and_eq_true, List.any_eq_true, beq_iff_eq, decide_eq_true_iff]
  exact ⟨hx, hnew⟩

/-- What OBSERVED_WRITE does to a burst that owes a record (R23, R25, R26). -/
theorem exec_observedWrite {s : State} {o : WriteCompletion} {b : Burst}
    (hb : s.channel.writeBursts[o.burst]? = some b) :
    exec (.observedWrite o) s =
      let taken : State := { s with channel := { s.channel with
        writeBursts := s.channel.writeBursts.eraseIdx o.burst } }
      let bytes := enabledBytes s.straps.beatBytes b.columns o.beats
      .next (if s.channel.following = .following ∧ bytes ≠ [] then taken.takeWrite b.address bytes else taken) := by
  simp only [exec, execObservedWrite, hb]
  split <;> rfl

/-- Settles O15: the bytes are assembled at their own offsets, and a new byte 56 concludes a commit. -/
theorem descriptorBytesAssemble : Obligations.DescriptorBytesAssemble := by
  refine ⟨fun s o hb => ?_, fun s o b i off hb => ?_⟩
  · simp only [exec, execObservedWrite, hb]
  · intro bytes taken
    have unique {n v} (hv : (n, v) ∈ bytes) w (hw : (n, w) ∈ bytes) : w = v := enabledBytes_unique hv hw
    refine ⟨fun h => ?_, fun hf hne hoff haddr _ hwf => ?_⟩
    · rw [exec_observedWrite hb]
      refine congrArg Host.Outcome.next (if_neg fun k => ?_)
      rcases h with h | h
      · exact h k.1
      · exact k.2 h
    · intro d e
      have took : exec (.observedWrite o) s = .next (taken.writeSlot i off bytes) := by
        rw [exec_observedWrite hb]
        refine congrArg Host.Outcome.next ((if_pos ⟨hf, hne⟩).trans ?_)
        exact State.takeWrite_slot (s := taken) i hoff haddr bytes
      refine ⟨fun n hn => d.assemble_seen off bytes hn,
        fun n v hv => DescriptorSlot.assemble_byte_of_mem hwf hv (unique hv),
        fun n h => DescriptorSlot.assemble_byte_of_forall_ne hwf h, rfl, fun h => ?_, fun hx hnew => ?_⟩
      · rw [took]
        exact congrArg Host.Outcome.next (State.writeSlot_assembles h)
      · rw [took]
        exact congrArg Host.Outcome.next (State.writeSlot_concludes hx hnew)

end Sys2Proof.Machine
end

section
/-! SUPPORT. Observed reads inside a frame (R69 to R71, R75 to R77). -/

namespace Sys2Proof.Machine

/-! ### What a scan read leaves -/

/-- A read used for filling is counted on no counter but that of the captures completed (R95). -/
theorem State.fillRead_strayReads (s : State) (id : Fin 16) (line xb : Nat) (data : List Byte) :
    (s.fillRead id line xb data).counters.strayReads = s.counters.strayReads := by
  simp only [State.fillRead]
  (repeat' split) <;> simp [State.count, State.countBy, Counters.store]

/-- A band end counts on no counter but that of the captures abandoned (R97). -/
theorem State.bandEnd_strayReads (s : State) (h : Fin 4) (band : Nat) :
    (s.bandEnd h band).counters.strayReads = s.counters.strayReads := by
  rw [State.bandEnd, State.abandonWhere_counters]

theorem State.scanRead_strayReads (s : State) (h : Fin 4) (id : Fin 16) (line xb : Nat) (data : List Byte) :
    (s.scanRead h id line xb data).counters.strayReads = s.counters.strayReads := by
  simp only [State.scanRead, State.fillRead_strayReads, State.updScan_frame]
  (repeat' split) <;> simp [State.bandEnd_strayReads]

/-- The cursor of the head becomes the line of the read (R75). -/
theorem State.scanRead_scans (s : State) (h : Fin 4) (id : Fin 16) (line xb : Nat) (data : List Byte) :
    (s.scanRead h id line xb data).scans = s.scans.put h { s.scans.look h with cursor := line } := by
  simp only [State.scanRead, State.fillRead_frame, State.updScan_scans]
  (repeat' split) <;> simp [Table.upd]

/-! ### Classes of reads -/

/-- A read of the shown surface at or past the cursor is a scan read (R75). -/
theorem classifyRead_scan {c : Scan} {shown : Option (Fin 16)} {id : Fin 16} {line : Nat} (hm : c.mode = .track)
    (hs : shown = some id) (hc : c.cursor ≤ line) : classifyRead c shown id line = .scanRead := by
  have inside : ¬ (line = 0 ∧ 1 ≤ c.cursor) := by omega
  simp only [classifyRead, hm, inside, if_false, hs, hc, true_and, if_true]

/-- A read of the shown surface below the cursor, of another surface of the set, and in SEEK any but of line 0, is
stray (R77). -/
theorem classifyRead_stray {c : Scan} {shown : Option (Fin 16)} {id : Fin 16} {line : Nat}
    (h : (c.mode = .track ∧ shown = some id ∧ line < c.cursor ∧ line ≠ 0) ∨
      (c.mode = .track ∧ shown ≠ some id ∧ ¬ (line = 0 ∧ 1 ≤ c.cursor)) ∨
      (c.mode = .seek ∧ line ≠ 0)) :
    classifyRead c shown id line = .strayRead := by
  rcases h with ⟨hm, hs, hl, h0⟩ | ⟨hm, hs, hl⟩ | ⟨hm, h0⟩
  · have below : ¬ c.cursor ≤ line := by omega
    simp only [classifyRead, hm, h0, below, false_and, and_false, if_false]
  · simp only [classifyRead, hm, hl, hs, false_and, if_false]
  · simp only [classifyRead, hm, h0, if_false]

/-! ### The command -/

/-- What OBSERVED_READ does to a burst that owes a record (R24 to R26). -/
theorem exec_observedRead {s : State} {o : ReadCompletion} {b : Burst}
    (hb : s.channel.readBursts[o.burst]? = some b) :
    exec (.observedRead o) s =
      let taken : State := { s with channel := { s.channel with
        readBursts := s.channel.readBursts.eraseIdx o.burst } }
      .next (if s.channel.following = .following then
        taken.takeRead b.address (reorderedBytes s.straps.beatBytes b o.beats) else taken) := by
  simp only [exec, execObservedRead, hb]
  split <;> rfl

/-- A read in no declared surface, or of one without an owner, is not scan business (R69). -/
theorem State.takeRead_unowned {s : State} {g : Nat} (data : List Byte)
    (h : s.surfaceAt g = none ∨
      ∃ id f, s.surfaceAt g = some id ∧ s.surfaces.look id = some f ∧ f.owner = none) :
    s.takeRead g data = s := by
  unfold State.takeRead
  rcases h with h | ⟨id, f, hid, hf, ho⟩
  · rw [h]
  · simp only [hid, hf, ho]

section
variable {s : State} {g : Nat} {id : Fin 16} {f : Surface} {h : Fin 4}

/-- A scan read of an owned surface is handled by its owner's follower (R70, R75). -/
theorem State.takeRead_scan (data : List Byte) (hid : s.surfaceAt g = some id) (hf : s.surfaces.look id = some f)
    (ho : f.owner = some h)
    (hc : classifyRead (s.scans.look h) (s.heads.look h).shown id ((g - f.base) / f.pitch) = .scanRead) :
    s.takeRead g data = s.scanRead h id ((g - f.base) / f.pitch) ((g - f.base) % f.pitch) data := by
  simp only [State.takeRead, hid, hf, ho, hc]

/-- A stray read of an owned surface is counted (R70, R77). -/
theorem State.takeRead_stray (data : List Byte) (hid : s.surfaceAt g = some id) (hf : s.surfaces.look id = some f)
    (ho : f.owner = some h)
    (hc : classifyRead (s.scans.look h) (s.heads.look h).shown id ((g - f.base) / f.pitch) = .strayRead) :
    s.takeRead g data = s.count .strayReads := by
  simp only [State.takeRead, hid, hf, ho, hc]

end

/-- Settles O26: inside a frame a read of an owned surface is a scan read or stray, by its line and the cursor. -/
theorem readsInsideAFrame : Obligations.ReadsInsideAFrame := by
  refine ⟨fun s o hb => ?_, fun s o b hb => ?_⟩
  · simp only [exec, execObservedRead, hb]
  · intro taken
    have took := exec_observedRead hb
    refine ⟨fun h => ?_, fun id f h hfol hid hf ho => ?_⟩
    · refine took.trans (congrArg Host.Outcome.next ?_)
      by_cases hfol : s.channel.following = .following
      · exact (if_pos hfol).trans (State.takeRead_unowned (s := taken) _ (h.resolve_left (not_not_intro hfol)))
      · exact if_neg hfol
    · intro line c shown
      have followed := took.trans (congrArg Host.Outcome.next (if_pos hfol))
      refine ⟨fun hm hs hc => ?_, fun hstray => ?_⟩
      · have scan := State.takeRead_scan (s := taken) (reorderedBytes s.straps.beatBytes b o.beats) hid hf ho
          (classifyRead_scan hm hs hc)
        obtain ⟨-, -, -, -, heads, budget, link, -⟩ := State.scanRead_frame taken h id line
          ((b.address - f.base) % f.pitch) (reorderedBytes s.straps.beatBytes b o.beats)
        exact ⟨_, followed.trans (congrArg Host.Outcome.next scan), State.scanRead_scans .., heads, link,
          budget, State.scanRead_strayReads ..⟩
      · have stray := State.takeRead_stray (s := taken) (reorderedBytes s.straps.beatBytes b o.beats) hid hf ho
          (classifyRead_stray hstray)
        exact followed.trans (congrArg Host.Outcome.next stray)

end Sys2Proof.Machine
end

end

section
-- One after another, as the theorems of the section before this one, for the same limit.
set_option Elab.async false

section
/-! SUPPORT. What most operations keep of the tables: every surface where it was, every head as it was but for its
quality map, no follower sent to TRACK, and every share (R33, R34, R49, R52, R76, R124). -/

namespace Sys2Proof.Machine

/-! ### Surfaces -/

/-- `g` stands where `f` stood: the same bytes, the same tiles, and a mark for each tile when `f` had one for each. -/
structure Surface.SameShape (f g : Surface) : Prop where
  base : g.base = f.base
  pitch : g.pitch = f.pitch
  geometry : g.geometry = f.geometry
  marks : f.stale.length = f.geometry.tileCount → g.stale.length = f.geometry.tileCount

theorem Surface.SameShape.refl (f : Surface) : f.SameShape f := ⟨rfl, rfl, rfl, id⟩

theorem Surface.SameShape.trans {f g k : Surface} (h : f.SameShape g) (h' : g.SameShape k) : f.SameShape k where
  base := h'.base.trans h.base
  pitch := h'.pitch.trans h.pitch
  geometry := h'.geometry.trans h.geometry
  marks e := by rw [← h.geometry] at e ⊢; exact h'.marks (h.geometry ▸ h.marks (h.geometry ▸ e))

theorem Surface.SameShape.limit {f g : Surface} (h : f.SameShape g) : g.limit = f.limit := by
  simp only [Surface.limit, h.base, h.pitch, h.geometry]

theorem Surface.SameShape.sound {f g : Surface} (h : f.SameShape g) {p : Straps} (hf : f.sound p) : g.sound p := by
  obtain ⟨hb, hp, hl, hp', hw, hw', hh, hh', hlim, hs⟩ := hf
  simp only [Surface.sound, h.base, h.pitch, h.geometry, h.limit]
  exact ⟨hb, hp, hl, hp', hw, hw', hh, hh', hlim, h.marks hs⟩

/-- A surface that keeps all but its marks. -/
structure Surface.Remarked (f g : Surface) : Prop extends f.SameShape g where
  owner : g.owner = f.owner

theorem Surface.Remarked.refl (f : Surface) : f.Remarked f := ⟨.refl f, rfl⟩

theorem Surface.Remarked.trans {f g k : Surface} (h : f.Remarked g) (h' : g.Remarked k) : f.Remarked k :=
  ⟨h.toSameShape.trans h'.toSameShape, h'.owner.trans h.owner⟩

/-- Surfaces that agree but for their marks, with as many marks. -/
theorem Surface.Remarked.of_unmarked {f g : Surface} (h : g.unmarked = f.unmarked) : f.Remarked g := by
  have len := (Surface.unmarked_eq h).2
  simp only [Surface.unmarked, Surface.mk.injEq] at h
  obtain ⟨hb, hp, hg, ho, -⟩ := h
  exact ⟨⟨hb, hp, hg, fun e => len.trans e⟩, ho⟩

theorem Surface.remarked_withMark (f : Surface) (c w : Nat) (mark : Bool) : f.Remarked (f.withMark c w mark) :=
  .of_unmarked (f.unmarked_withMark c w mark)

theorem Surface.remarked_markWhole (f : Surface) : f.Remarked f.markWhole :=
  ⟨⟨rfl, rfl, rfl, fun _ => List.length_replicate⟩, rfl⟩

/-- Entries of the surface table related one by one, an EMPTY one to an EMPTY one. -/
theorem optionRel_refl {α : Type} {r : α → α → Prop} (h : ∀ x, r x x) (o : Option α) : Option.Rel r o o := by
  cases o with
  | none => exact .none
  | some x => exact .some (h x)

theorem optionRel_trans {α : Type} {r : α → α → Prop} (h : ∀ x y z, r x y → r y z → r x z) {a b c : Option α}
    (hab : Option.Rel r a b) (hbc : Option.Rel r b c) : Option.Rel r a c := by
  cases hab with
  | none => exact hbc
  | some hxy => cases hbc with | some hyz => exact .some (h _ _ _ hxy hyz)

theorem optionRel_map {α : Type} {r : α → α → Prop} {f : α → α} (h : ∀ x, r x (f x)) (o : Option α) :
    Option.Rel r o (o.map f) := by
  cases o with
  | none => exact .none
  | some x => exact .some (h x)

theorem optionRel_mono {α : Type} {r q : α → α → Prop} (h : ∀ {x y}, r x y → q x y) {a b : Option α}
    (hab : Option.Rel r a b) : Option.Rel q a b := by
  cases hab with
  | none => exact .none
  | some hxy => exact .some (h hxy)

theorem optionRel_mem {α : Type} {r : α → α → Prop} {a b : Option α} (h : Option.Rel r a b) {y : α} (hy : b = some y) :
    ∃ x, a = some x ∧ r x y := by
  subst hy
  cases h with | some hxy => exact ⟨_, rfl, hxy⟩

theorem optionRel_ne_none {α : Type} {r : α → α → Prop} {a b : Option α} (h : Option.Rel r a b) (ha : a ≠ none) :
    b ≠ none := by
  cases h with
  | none => exact absurd rfl ha
  | some _ => exact Option.some_ne_none _

/-! ### The table of surfaces -/

/-- From `s` to `t` every surface stands where it was. -/
structure State.KeepsShapes (s t : State) : Prop where
  straps : t.straps = s.straps
  shapes : ∀ id, Option.Rel Surface.SameShape (s.surfaces.look id) (t.surfaces.look id)

theorem State.KeepsShapes.trans {s t u : State} (h : s.KeepsShapes t) (k : t.KeepsShapes u) : s.KeepsShapes u :=
  ⟨k.straps.trans h.straps, fun id => optionRel_trans (fun _ _ _ => .trans) (h.shapes id) (k.shapes id)⟩

/-- The number of tiles of an entry, 0 when it is EMPTY (R37). -/
def State.tilesAt (i : Fin 16) (s : State) : Nat := ((s.surfaces.look i).map fun f => f.geometry.tileCount).getD 0

theorem State.surfacesSound_iff (s : State) : s.surfacesSound ↔
    (∀ i : Fin 16, ∀ f ∈ s.surfaces.look i, f.sound s.straps ∧
      rangesMeet f.base f.limit s.straps.areaBase (s.straps.areaBase + areaSize) = false ∧
      ∀ j : Fin 16, j ≠ i → ∀ g ∈ s.surfaces.look j, rangesMeet f.base f.limit g.base g.limit = false) ∧
    ((List.finRange 16).map fun i => s.tilesAt i).sum ≤ 98304 := by
  refine and_congr_right fun _ => ?_
  have tiles : (fun i : Fin 16 => s.tilesAt i) = fun i => match s.surfaces.look i with
      | some f => f.geometry.tileCount
      | none => 0 := by
    funext i
    unfold State.tilesAt
    cases s.surfaces.look i <;> rfl
  rw [tiles] <;> rfl

theorem State.KeepsShapes.surfacesSound {s t : State} (h : s.KeepsShapes t) (hs : s.surfacesSound) :
    t.surfacesSound := by
  rw [State.surfacesSound_iff] at hs ⊢
  obtain ⟨each, tiles⟩ := hs
  refine ⟨fun i f hf => ?_, ?_⟩
  · obtain ⟨f', hf', hff⟩ := optionRel_mem (h.shapes i) hf
    obtain ⟨sound, area, others⟩ := each i f' hf'
    rw [h.straps, hff.base, hff.limit]
    refine ⟨hff.sound sound, area, fun j hj g hg => ?_⟩
    obtain ⟨g', hg', hgg⟩ := optionRel_mem (h.shapes j) hg
    rw [hgg.base, hgg.limit]
    exact others j hj g' hg'
  · have same : ∀ i, t.tilesAt i = s.tilesAt i := by
      intro i
      have k := h.shapes i
      unfold State.tilesAt
      generalize s.surfaces.look i = a at k ⊢
      generalize t.surfaces.look i = b at k ⊢
      cases k with
      | none => rfl
      | some k => exact congrArg Geometry.tileCount k.geometry
    simpa only [same] using tiles

/-! ### Heads -/

/-- The number of tiles of a head's geometry, 0 when it has none. -/
def Head.tiles (d : Head) : Nat := (d.geometry.map Geometry.tileCount).getD 0

/-- `e` is `d` but for its quality map, which has an entry for each tile when `d`'s had. -/
structure Head.Requalified (d e : Head) : Prop where
  state : e.state = d.state
  flipSet : e.flipSet = d.flipSet
  shown : e.shown = d.shown
  geometry : e.geometry = d.geometry
  quality : d.quality.length = d.tiles → e.quality.length = d.tiles

theorem Head.Requalified.refl (d : Head) : d.Requalified d := ⟨rfl, rfl, rfl, rfl, id⟩

theorem Head.Requalified.tiles {d e : Head} (h : d.Requalified e) : e.tiles = d.tiles := by
  rw [Head.tiles, h.geometry, Head.tiles]

theorem Head.Requalified.trans {d e k : Head} (h : d.Requalified e) (h' : e.Requalified k) : d.Requalified k where
  state := h'.state.trans h.state
  flipSet := h'.flipSet.trans h.flipSet
  shown := h'.shown.trans h.shown
  geometry := h'.geometry.trans h.geometry
  quality q := h.tiles ▸ h'.quality (h.tiles ▸ h.quality q)

theorem Head.requalified_allExact (d : Head) : d.Requalified d.allExact := by
  refine ⟨rfl, rfl, rfl, rfl, fun _ => ?_⟩
  unfold Head.allExact Head.tiles
  cases d.geometry with
  | none => rfl
  | some g => exact List.length_replicate

theorem Head.requalified_withQuality (d : Head) (column row : Nat) (c : Code) :
    d.Requalified (d.withQuality column row c) := by
  unfold Head.withQuality
  split
  · exact .refl d
  · exact .refl d
  · split
    · exact ⟨rfl, rfl, rfl, rfl, fun q => List.length_set.trans q⟩
    · exact .refl d

/-! ### The tables together -/

/-- From `s` to `t` every surface keeps all but its marks, every head all but its quality map, no follower is sent to
TRACK, and the shares and the link budget in force stay. -/
structure State.Keeps (s t : State) : Prop where
  straps : t.straps = s.straps
  surfaces : ∀ id, Option.Rel Surface.Remarked (s.surfaces.look id) (t.surfaces.look id)
  heads : ∀ h, (s.heads.look h).Requalified (t.heads.look h)
  modes : ∀ h, (t.scans.look h).mode = .track → (s.scans.look h).mode = .track
  shares : ∀ h, (t.budget.heads.look h).share = (s.budget.heads.look h).share
  budget : t.link.current.budget = s.link.current.budget

namespace State.Keeps

variable {s t u : State}

theorem refl (s : State) : s.Keeps s where
  straps := rfl
  surfaces _ := optionRel_refl Surface.Remarked.refl _
  heads _ := .refl _
  modes _ := id
  shares _ := rfl
  budget := rfl

theorem trans (h : s.Keeps t) (k : t.Keeps u) : s.Keeps u where
  straps := k.straps.trans h.straps
  surfaces id := optionRel_trans (fun _ _ _ => .trans) (h.surfaces id) (k.surfaces id)
  heads q := (h.heads q).trans (k.heads q)
  modes q := h.modes q ∘ k.modes q
  shares q := (k.shares q).trans (h.shares q)
  budget := k.budget.trans h.budget

/-- A change of none of the tables, nor of the shares and the link budget. -/
theorem of_eq (hp : t.straps = s.straps := by simp) (hs : t.surfaces = s.surfaces := by simp)
    (hh : t.heads = s.heads := by simp) (hm : t.scans = s.scans := by simp)
    (hb : t.budget.heads = s.budget.heads := by simp) (hc : t.link.current = s.link.current := by simp) :
    s.Keeps t where
  straps := hp
  surfaces id := hs ▸ optionRel_refl Surface.Remarked.refl _
  heads q := hh ▸ .refl _
  modes q := by rw [hm]; exact id
  shares q := by rw [hb]
  budget := by rw [hc]

/-- Before an operation, such a change does no harm. -/
theorem after (k : t.Keeps u) (hp : t.straps = s.straps := by simp) (hs : t.surfaces = s.surfaces := by simp)
    (hh : t.heads = s.heads := by simp) (hm : t.scans = s.scans := by simp)
    (hb : t.budget.heads = s.budget.heads := by simp) (hc : t.link.current = s.link.current := by simp) : s.Keeps u :=
  (of_eq hp hs hh hm hb hc).trans k

/-- Nor does it after an operation. -/
theorem before (k : s.Keeps t) (hp : u.straps = t.straps := by simp) (hs : u.surfaces = t.surfaces := by simp)
    (hh : u.heads = t.heads := by simp) (hm : u.scans = t.scans := by simp)
    (hb : u.budget.heads = t.budget.heads := by simp) (hc : u.link.current = t.link.current := by simp) : s.Keeps u :=
  k.trans (of_eq hp hs hh hm hb hc)

/-- A change of the surface table in marks alone. -/
theorem of_onlyMarks (hs : s.onlyMarks t) (hp : t.straps = s.straps := by simp) (hh : t.heads = s.heads := by simp)
    (hm : t.scans = s.scans := by simp) (hb : t.budget.heads = s.budget.heads := by simp)
    (hc : t.link.current = s.link.current := by simp) : s.Keeps t where
  straps := hp
  surfaces id := by
    have marks := hs id
    cases ht : t.surfaces.look id with
    | none =>
      rw [ht, Option.map_none, eq_comm, Option.map_eq_none_iff] at marks
      rw [marks]
      exact .none
    | some g =>
      rw [ht, Option.map_some, eq_comm, Option.map_eq_some_iff] at marks
      obtain ⟨f, hf, e⟩ := marks
      rw [hf]
      exact .some (.of_unmarked e.symm)
  heads q := hh ▸ .refl _
  modes q := by rw [hm]; exact id
  shares q := by rw [hb]
  budget := by rw [hc]

/-- A change of one head's budget that keeps its share. -/
theorem updBudget (s : State) (h : Fin 4) (f : HeadBudget → HeadBudget) (hf : ∀ b, (f b).share = b.share) :
    s.Keeps (s.updBudget h f) :=
  { refl s with
    shares := fun q => by
      simp only [State.updBudget_heads, Table.look_upd]
      split
      next e => rw [e]; exact hf _
      next => rfl }

/-- A change of one surface in its marks alone. -/
theorem updSurface (s : State) (id : Fin 16) (f : Surface → Surface) (hf : ∀ x : Surface, x.Remarked (f x)) :
    s.Keeps (s.updSurface id f) :=
  { refl s with
    surfaces := fun k => by
      simp only [State.updSurface_surfaces, Table.look_upd]
      split
      next e => rw [e]; exact optionRel_map hf _
      next => exact optionRel_refl Surface.Remarked.refl _ }

/-- A change of one head in its quality map alone. -/
theorem updHead (s : State) (h : Fin 4) (f : Head → Head) (hf : ∀ d : Head, d.Requalified (f d)) : s.Keeps (s.updHead h f) :=
  { refl s with
    heads := fun k => by
      simp only [State.updHead_heads, Table.look_upd]
      split
      next e => rw [e]; exact hf _
      next => exact .refl _ }

/-- A change of one follower that does not send it to TRACK. -/
theorem updScan (s : State) (h : Fin 4) (f : Scan → Scan) (hf : ∀ c, (f c).mode = .track → c.mode = .track) :
    s.Keeps (s.updScan h f) :=
  { refl s with
    modes := fun k => by
      simp only [State.updScan_scans, Table.look_upd]
      split
      next e => rw [e]; exact hf _
      next => exact id }

theorem ite {c : Prop} {_ : Decidable c} (h : s.Keeps t) (k : s.Keeps u) : s.Keeps (if c then t else u) := by
  split
  · exact h
  · exact k

/-- A fold whose every step keeps the tables does. -/
theorem foldl {α : Type} (f : State → α → State) (h : ∀ (v : State) a, v.Keeps (f v a)) (l : List α) (s : State) :
    s.Keeps (l.foldl f s) := by
  induction l generalizing s with
  | nil => exact refl s
  | cons a l ih => exact (h s a).trans (ih (f s a))

theorem forSlots {f : Fin 64 → State → State} (h : ∀ i (v : State), v.Keeps (f i v)) (s : State) :
    s.Keeps (s.forSlots f) :=
  foldl (fun v i => f i v) (fun v i => h i v) allSlots s

theorem forHeads {f : Fin 4 → State → State} (h : ∀ i (v : State), v.Keeps (f i v)) (s : State) :
    s.Keeps (s.forHeads f) :=
  foldl (fun v i => f i v) (fun v i => h i v) allHeads s

end State.Keeps

theorem State.Keeps.keepsShapes {s t : State} (h : s.Keeps t) : s.KeepsShapes t :=
  ⟨h.straps, fun id => optionRel_mono Surface.Remarked.toSameShape (h.surfaces id)⟩

/-! ### What the sentences read -/

theorem State.Keeps.isOn {s t : State} (h : s.Keeps t) (q : Fin 4) : t.isOn q = s.isOn q := by
  simp only [State.isOn, (h.heads q).state]

/-- The entry of an OFF head is sound with as many quality entries as tiles. -/
theorem Head.Requalified.offSound {d e : Head} (h : d.Requalified e) (hd : d.offSound) : e.offSound := by
  obtain ⟨hf, hs, hg, hq⟩ := hd
  have none : d.tiles = 0 := by rw [Head.tiles, hg]; rfl
  refine ⟨h.flipSet.trans hf, h.shown.trans hs, h.geometry.trans hg, List.length_eq_zero_iff.1 ?_⟩
  exact (h.quality (by rw [hq, none]; rfl)).trans none

theorem Head.Requalified.shownSound {d e : Head} (h : d.Requalified e) (hd : d.shownSound) : e.shownSound := by
  unfold Head.shownSound at *
  rwa [h.state, h.shown, h.flipSet]

theorem State.Keeps.onSound {s t : State} (h : s.Keeps t) {q : Fin 4} (hs : s.onSound q) : t.onSound q := by
  obtain ⟨hne, hlen, hnodup, hg, each⟩ := hs
  have d := h.heads q
  unfold State.onSound
  rw [d.flipSet, d.geometry]
  refine ⟨hne, hlen, hnodup, hg, fun g hgg => ?_⟩
  obtain ⟨quality, owned⟩ := each g hgg
  have tiles : (s.heads.look q).tiles = g.tileCount := by rw [Head.tiles, Option.mem_def.1 hgg]; rfl
  refine ⟨tiles ▸ d.quality (tiles.symm ▸ quality), fun id hid => ?_⟩
  obtain ⟨declared, each⟩ := owned id hid
  refine ⟨optionRel_ne_none (h.surfaces id) declared, fun f hf => ?_⟩
  obtain ⟨f', hf', hff⟩ := optionRel_mem (h.surfaces id) hf
  rw [hff.owner, hff.geometry]
  exact each f' hf'

theorem State.Keeps.headsSound {s t : State} (h : s.Keeps t) (hs : s.headsSound) : t.headsSound := by
  obtain ⟨each, owners⟩ := hs
  refine ⟨fun q => ?_, fun i f hf q hq => ?_⟩
  · obtain ⟨off, on, shown⟩ := each q
    have d := h.heads q
    rw [d.state]
    exact ⟨fun e => d.offSound (off e), fun e => h.onSound (on e), d.shownSound shown⟩
  · obtain ⟨f', hf', hff⟩ := optionRel_mem (h.surfaces i) hf
    rw [(h.heads q).flipSet]
    exact owners i f' hf' q (hff.owner ▸ hq)

theorem State.Keeps.trackingIsShowing {s t : State} (h : s.Keeps t) (hs : s.trackingIsShowing) :
    t.trackingIsShowing := fun q hq => (h.heads q).state.trans (hs q (h.modes q hq))

/-- The shares are read from the heads' states, the shares and the link budget in force. -/
theorem State.sharesSpendTheBudget_of_eq {s t : State} (ho : ∀ h, t.isOn h = s.isOn h)
    (hs : ∀ h, (t.budget.heads.look h).share = (s.budget.heads.look h).share)
    (hb : t.link.current.budget = s.link.current.budget) (h : s.sharesSpendTheBudget) : t.sharesSpendTheBudget := by
  unfold State.sharesSpendTheBudget at *
  simpa only [ho, hs, hb] using h

end Sys2Proof.Machine
end

section
/-! SUPPORT. The operations that keep the tables as `State.Keeps` says, each shown once. -/

namespace Sys2Proof.Machine

/-! ### Marks, records and withdrawals -/

theorem State.markStale_keeps (s : State) (id : Fin 16) (c w : Nat) : s.Keeps (s.markStale id c w) :=
  .of_onlyMarks (s.onlyMarks_markStale id c w)

theorem State.clearStale_keeps (s : State) (id : Fin 16) (c w : Nat) : s.Keeps (s.clearStale id c w) :=
  .updSurface s id _ fun f => f.remarked_withMark c w false

theorem State.markEach_keeps (s : State) (ids : List (Fin 16)) : s.Keeps (s.markEach ids) :=
  .foldl _ (fun v id => .updSurface v id _ Surface.remarked_markWhole) ids s

theorem State.markEverySurface_keeps (s : State) : s.Keeps s.markEverySurface :=
  { State.Keeps.refl s with
    surfaces := fun id => by
      simp only [State.markEverySurface, Table.look_tab]
      exact optionRel_map Surface.remarked_markWhole _ }

theorem State.freeSlot_keeps (s : State) (i : Fin 64) : s.Keeps (s.freeSlot i) := .of_eq

theorem State.release_keeps (s : State) (i : Fin 64) (r : Record) : s.Keeps (s.release i r) :=
  .of_onlyMarks (s.onlyMarks_release i r)

theorem State.abandonCapture_keeps (s : State) (i : Fin 64) (r : Record) : s.Keeps (s.abandonCapture i r) :=
  .of_onlyMarks (s.onlyMarks_abandonCapture i r)

theorem State.abandonWhere_keeps (s : State) (p : Record → Bool) : s.Keeps (s.abandonWhere p) :=
  .of_onlyMarks (s.onlyMarks_abandonWhere p)

theorem State.dropDeferred_keeps (s : State) (h : Fin 4) (i : Fin 64) : s.Keeps (s.dropDeferred h i) :=
  .updBudget s h _ fun _ => rfl

theorem State.withdrawSlot_keeps (s : State) (i : Fin 64) : s.Keeps (s.withdrawSlot i) := by
  unfold State.withdrawSlot
  split
  next => exact .refl s
  next r _ =>
    split
    · exact s.abandonCapture_keeps i r
    · exact .after (State.release_keeps _ i r)
    · exact (s.dropDeferred_keeps r.head i).trans (State.release_keeps _ i r)
    · exact .after (State.release_keeps _ i r)
    · exact .of_eq
    · exact .refl s

theorem State.withdrawWhere_keeps (s : State) (p : Record → Bool) : s.Keeps (s.withdrawWhere p) := by
  refine .forSlots (fun i v => ?_) s
  split
  · exact .ite (v.withdrawSlot_keeps i) (.refl v)
  · exact .refl v

theorem State.withdrawSurface_keeps (s : State) (id : Fin 16) : s.Keeps (s.withdrawSurface id) :=
  s.withdrawWhere_keeps _

theorem State.withdrawFlipSet_keeps (s : State) (ids : List (Fin 16)) : s.Keeps (s.withdrawFlipSet ids) :=
  s.withdrawWhere_keeps _

theorem State.withdrawAtLinkLoss_keeps (s : State) : s.Keeps s.withdrawAtLinkLoss := by
  refine .forSlots (fun i v => ?_) s
  split
  · exact .ite (v.release_keeps i _) (v.withdrawSlot_keeps i)
  · exact .refl v

/-! ### The Budget Unit -/

theorem State.charge_keeps (s : State) (h : Fin 4) (i : Fin 64) (d : Decision) : s.Keeps (s.charge h i d) :=
  (State.Keeps.updBudget s h (fun b => { b with credit := b.credit - d.frameSize }) fun _ => rfl).trans
    (.of_eq (by simp [State.charge]) (by simp [State.charge]) (by simp [State.charge]) (by simp [State.charge])
      (by simp [State.charge]) (by simp [State.charge]))

theorem State.addDemand_keeps (s : State) (h : Fin 4) (n : Nat) : s.Keeps (s.addDemand h n) :=
  .updBudget s h _ fun _ => rfl

theorem State.defer_keeps (s : State) (h : Fin 4) (i : Fin 64) (f : CodedForms) : s.Keeps (s.defer h i f) := by
  unfold State.defer
  exact .trans (.after (.updBudget _ h (fun b => { b with deferred := b.deferred ++ [i] }) fun _ => rfl))
    (State.addDemand_keeps _ h _)

theorem State.encodeDecision_keeps (s : State) (i : Fin 64) (r : Record) (f : CodedForms) :
    s.Keeps (s.encodeDecision i r f) := by
  unfold State.encodeDecision
  refine .ite (s.defer_keeps r.head i f) ?_
  split
  · exact (s.addDemand_keeps r.head _).trans (State.charge_keeps _ r.head i _)
  · exact s.defer_keeps r.head i f

theorem State.abandonDeferral_keeps (s : State) (i : Fin 64) (r : Record) : s.Keeps (s.abandonDeferral i r) :=
  ((s.dropDeferred_keeps r.head i).trans (State.release_keeps _ i r)).trans (.of_eq (by simp [State.abandonDeferral])
    (by simp [State.abandonDeferral]) (by simp [State.abandonDeferral]) (by simp [State.abandonDeferral])
    (by simp [State.abandonDeferral]) (by simp [State.abandonDeferral]))

theorem State.freeDeferredRefines_keeps (s : State) (h : Fin 4) : s.Keeps (s.freeDeferredRefines h) := by
  refine .foldl _ (fun v i => ?_) _ s
  split
  · exact .ite ((v.dropDeferred_keeps _ i).trans (.of_eq rfl rfl rfl rfl rfl rfl)) (.refl v)
  · exact .refl v

theorem State.tryDeferred_keeps (s : State) (h : Fin 4) (l : List (Fin 64)) : s.Keeps (s.tryDeferred h l) := by
  induction l generalizing s with
  | nil => exact .refl s
  | cons i l ih =>
    rw [State.tryDeferred]
    repeat' split
    next d _ => exact ((s.dropDeferred_keeps h i).trans (State.charge_keeps _ h i d)).trans (ih _)
    all_goals exact .refl s

theorem State.ageDeferred_keeps (s : State) (i : Fin 64) : s.Keeps (s.ageDeferred i) := by
  unfold State.ageDeferred
  split
  · exact .ite (s.abandonDeferral_keeps i _) .of_eq
  · exact .refl s

theorem State.reevaluate_keeps (s : State) (h : Fin 4) : s.Keeps (s.reevaluate h) := by
  unfold State.reevaluate
  exact .trans (.trans (.ite (s.freeDeferredRefines_keeps h) (.refl s)) (State.tryDeferred_keeps _ h _))
    (.foldl _ (fun v i => v.ageDeferred_keeps i) _ _)

/-! ### The Tile Coder and the Capture Unit -/

theorem State.finishEncoding_keeps (s : State) (i : Fin 64) : s.Keeps (s.finishEncoding i) := by
  unfold State.finishEncoding
  split
  · exact .ite (s.release_keeps i _) (.after (State.encodeDecision_keeps _ i _ _))
  · exact .refl s

theorem State.surfaceWrite_keeps (s : State) (id : Fin 16) (c w : Nat) : s.Keeps (s.surfaceWrite id c w) :=
  (s.markStale_keeps id c w).trans (.of_eq (by simp [State.surfaceWrite]) (by simp [State.surfaceWrite]))

theorem State.allocate_keeps (s : State) (b : BandStart) (i : Fin 64) (c : Candidate) : s.Keeps (s.allocate b i c) :=
  .after (State.clearStale_keeps { s with slots := s.slots.put i (some (b.record c)) } b.surface c.column b.band)

theorem State.fillRead_keeps (s : State) (id : Fin 16) (line xb : Nat) (data : List Byte) :
    s.Keeps (s.fillRead id line xb data) := .of_eq

theorem State.serveBand_keeps (s : State) (b : BandStart) : s.Keeps (s.serveBand b) := by
  unfold State.serveBand
  extract_lets taken served
  have allocated : s.Keeps served :=
    .foldl _ (fun v (a : Fin 64 × Candidate) => v.allocate_keeps b a.1 a.2) _ s
  exact allocated.trans (.of_eq rfl rfl rfl rfl rfl rfl)

theorem State.bandEnd_keeps (s : State) (h : Fin 4) (band : Nat) : s.Keeps (s.bandEnd h band) :=
  s.abandonWhere_keeps _

theorem State.bandStart_keeps (s : State) (h : Fin 4) (band : Nat) : s.Keeps (s.bandStart h band) := by
  unfold State.bandStart
  split
  · split
    · exact s.serveBand_keeps _
    · exact .refl s
  · exact .refl s

/-! ### The Channel Follower -/

theorem State.allToSeek_keeps (s : State) : s.Keeps s.allToSeek := by
  refine .forHeads (fun h v => ?_) s
  split
  · exact .updScan v h _ fun c e => absurd e (by simp [Scan.toSeek])
  · exact .refl v

theorem State.loseChannel_keeps (s : State) : s.Keeps s.loseChannel := by
  unfold State.loseChannel
  exact .trans (.after (State.abandonWhere_keeps _ _)) (State.allToSeek_keeps _)

theorem State.leaveFollowing_keeps (s : State) : s.Keeps s.leaveFollowing := by
  unfold State.leaveFollowing
  extract_lets counted _ resync cleared
  exact .before (.after cleared.loseChannel_keeps rfl rfl rfl rfl rfl rfl)

theorem State.blindMarking_keeps (s : State) : s.Keeps s.blindMarking :=
  s.markEverySurface_keeps.trans (State.withdrawWhere_keeps _ _)

theorem State.testFollowing_keeps (s : State) : s.Keeps s.testFollowing := by
  unfold State.testFollowing State.enterFollowing
  have marked : s.Keeps (State.blindMarking { s with channel := { s.channel with following := .following } }) :=
    .after (State.blindMarking_keeps _)
  exact .ite marked.before (.refl s)

theorem State.takeBlind_keeps {s : State} (a : Anomaly) {effect : State → State} (y : Beyond) (counted : Bool)
    (he : s.Keeps (effect s)) : s.Keeps (s.takeBlind a effect y counted) := by
  have flagged : s.Keeps (State.flagged a y counted (effect s)) := by
    rw [State.flagged_eq]
    exact he.trans (.of_eq rfl rfl rfl rfl rfl rfl)
  rw [State.takeBlind_eq]
  exact .ite flagged (flagged.trans (State.testFollowing_keeps _))

/-- A command taken by the follower keeps the tables when its effect does. -/
theorem State.takeCommand_keeps {s : State} (a : Anomaly) {effect : State → State} (y : Beyond)
    (he : s.Keeps (effect s)) : s.Keeps (s.takeCommand a effect y) := by
  unfold State.takeCommand
  split
  · exact .ite (he.trans (State.leaveFollowing_keeps _)) he
  · exact State.takeBlind_keeps a y _ he
  · exact State.takeBlind_keeps a y _ he

theorem State.assertMemoryReset_keeps (s : State) : s.Keeps s.assertMemoryReset := by
  rw [State.assertMemoryReset_eq]
  have lost : s.Keeps (State.loseChannel { s with memoryResetLine := true, channel := s.channel.heldInReset }) :=
    .after (State.loseChannel_keeps _)
  exact lost.before

/-! ### The Desk Link -/

theorem State.offerHead_keeps (s : State) (h : Fin 4) : s.Keeps (s.offerHead h) := .of_eq

theorem State.offerStatus_keeps (s : State) : s.Keeps s.offerStatus := .of_eq

theorem State.offerLamp_keeps (s : State) (set : Byte) : s.Keeps (s.offerLamp set) := .of_eq

theorem State.offerNotice_keeps (s : State) (n : Notice) : s.Keeps (s.offerNotice n) := .of_eq

theorem State.sendDecision_keeps (s : State) : s.Keeps s.sendDecision := .of_eq

theorem State.linkUpMarking_keeps (s : State) : s.Keeps s.linkUpMarking :=
  .forHeads (fun _ v => .ite ((v.markEach_keeps _).trans (.updHead _ _ _ Head.requalified_allExact)) (.refl v)) s

theorem State.enterUp_keeps (s : State) : s.Keeps s.enterUp := by
  unfold State.enterUp
  extract_lets _ up _ cleared marked heads status _ tested lamp notice
  have toMarked : s.Keeps marked := .after cleared.linkUpMarking_keeps rfl rfl rfl rfl rfl rfl
  have toHeads : marked.Keeps heads := .forHeads (fun h v => v.offerHead_keeps h) marked
  have toTested : heads.Keeps tested := .trans (.ite heads.offerStatus_keeps (.refl heads)) (.of_eq rfl rfl rfl rfl rfl rfl)
  have toNotice : tested.Keeps notice := .trans (tested.offerLamp_keeps _) (lamp.offerNotice_keeps _)
  exact ((toMarked.trans toHeads).trans (toTested.trans toNotice)).trans notice.sendDecision_keeps

theorem State.leaveUp_keeps (s : State) : s.Keeps s.leaveUp := by
  unfold State.leaveUp
  exact s.withdrawAtLinkLoss_keeps.trans .of_eq

theorem State.sendCompletion_keeps (s : State) (i : Fin 64) (r : Record) (c : Code) :
    s.Keeps (s.sendCompletion i r c) := by
  unfold State.sendCompletion
  refine .trans (.trans (.updHead s r.head _ fun d => d.requalified_withQuality r.column r.row c)
    (.ite ?_ (.refl _))) (State.freeSlot_keeps _ i)
  exact .trans (.foldl _ (fun v id => v.markStale_keeps id r.column r.row) _ _)
    (.ite (State.markStale_keeps _ _ _ _) (.refl _))

theorem State.endFrame_keeps (s : State) : s.Keeps s.endFrame := by
  unfold State.endFrame
  repeat' split
  next i _ _ r _ _ d _ => exact .before (s.sendCompletion_keeps i r d.code)
  all_goals exact .refl s

theorem State.clearItem_keeps (s : State) (item head : Byte) : s.Keeps (s.clearItem item head) := by
  unfold State.clearItem
  repeat' split
  · exact .updScan s _ _ fun _ => id
  all_goals exact .of_eq rfl rfl rfl rfl rfl rfl

/-! ### The Scan Follower -/

theorem State.scanRead_keeps (s : State) (h : Fin 4) (id : Fin 16) (line xb : Nat) (data : List Byte) :
    s.Keeps (s.scanRead h id line xb data) := by
  unfold State.scanRead
  refine .trans (.trans ?_ (.updScan _ h (fun c => { c with cursor := line }) fun _ e => e))
    (State.fillRead_keeps _ id line xb data)
  refine .ite (.trans (s.bandEnd_keeps h ((s.scans.look h).cursor / 32)) ?_) (.refl s)
  exact .ite (State.bandStart_keeps _ h _) (.refl _)

end Sys2Proof.Machine
end

section
/-! SUPPORT. A recomputation spends the link budget in force (R121, R124 to R126): each stage of a division gives away no
more than it has, and the remainder goes to one head. -/

namespace Sys2Proof.Machine

/-! ### Sums over claims -/

theorem sumOver_add (cs : List Claim) (f g : Claim → Nat) :
    sumOver cs (fun c => f c + g c) = sumOver cs f + sumOver cs g := List.sum_map_add

theorem sumOver_congr {cs : List Claim} {f g : Claim → Nat} (h : ∀ c ∈ cs, f c = g c) : sumOver cs f = sumOver cs g :=
  congrArg List.sum (List.map_congr_left h)

theorem sum_map_ite_zero {α : Type} (l : List α) (p : α → Bool) (f : α → Nat) :
    (l.map fun x => if p x then f x else 0).sum = ((l.filter p).map f).sum := by
  have split := List.sum_map_ite (fun x => p x = true) f (fun _ => 0) l
  simpa only [List.map_const', List.sum_replicate, smul_zero, Nat.add_zero, Bool.decide_eq_true] using split

theorem sumOver_filter (cs : List Claim) (p : Claim → Bool) (f : Claim → Nat) :
    sumOver (cs.filter p) f = sumOver cs fun c => if p c then f c else 0 := (sum_map_ite_zero cs p f).symm

/-- The floors of parts that sum to `amount` times the total sum to `amount` at most. -/
theorem sumOver_div_le (cs : List Claim) (f : Claim → Nat) (amount : Nat) :
    sumOver cs (fun c => amount * f c / sumOver cs f) ≤ amount := by
  have floors : ∀ total, sumOver cs (fun c => amount * f c / total) * total ≤ amount * sumOver cs f := by
    intro total
    induction cs with
    | nil => simp [sumOver]
    | cons c cs ih =>
      simp only [sumOver, List.map_cons, List.sum_cons, Nat.add_mul, Nat.mul_add] at ih ⊢
      exact Nat.add_le_add (Nat.div_mul_le_self _ _) ih
  rcases Nat.eq_zero_or_pos (sumOver cs f) with zero | pos
  · have none : sumOver cs (fun c => amount * f c / sumOver cs f) = sumOver cs fun _ => 0 :=
      sumOver_congr fun c _ => by rw [zero, Nat.div_zero]
    rw [none]
    simp [sumOver]
  · exact Nat.le_of_mul_le_mul_right (floors _) pos

/-! ### The remainder's head (R121) -/

theorem remainderHead_mem {cs : List Claim} (h : cs ≠ []) : ∃ c ∈ cs, remainderHead cs = some c.head := by
  obtain ⟨c, hc⟩ := List.exists_mem_of_ne_nil _ h
  have ranked : c ∈ cs.filter (fun c => c.cls = .critical) ++ cs.filter (fun c => c.cls = .high) ++
      cs.filter (fun c => c.cls = .normal) := by
    simp only [List.mem_append, List.mem_filter, hc, true_and, decide_eq_true_eq]
    cases c.cls <;> simp
  unfold remainderHead
  cases first : (cs.filter (fun c => c.cls = .critical) ++ cs.filter (fun c => c.cls = .high) ++
      cs.filter (fun c => c.cls = .normal)).head? with
  | none => exact absurd (List.head?_eq_none_iff.1 first ▸ ranked) List.not_mem_nil
  | some d =>
    refine ⟨d, ?_, rfl⟩
    have hd := List.mem_of_mem_head? first
    simp only [List.mem_append, List.mem_filter] at hd
    rcases hd with (hd | hd) | hd <;> exact hd.1

/-- What goes to one head's claim is received once. -/
theorem sumOver_one {cs : List Claim} (hn : (cs.map Claim.head).Nodup) {c : Claim} (hc : c ∈ cs) (amount : Nat) :
    sumOver cs (fun d => if some c.head = some d.head then amount else 0) = amount := by
  have inj := List.inj_on_of_nodup_map hn
  have alone : cs.filter (fun d => decide (some c.head = some d.head)) = [c] := by
    have same : cs.filter (fun d => decide (some c.head = some d.head)) = cs.filter (· == c) := by
      refine List.filter_congr fun d hd => ?_
      rw [Bool.eq_iff_iff, decide_eq_true_iff, beq_iff_eq]
      exact ⟨fun e => inj hd hc (Option.some.inj e).symm, fun e => e ▸ rfl⟩
    rw [same, List.filter_beq, List.count_eq_one_of_mem (hn.of_map _) hc]
    rfl
  have filtered := sumOver_filter cs (fun d => decide (some c.head = some d.head)) (fun _ => amount)
  rw [alone] at filtered
  simpa [sumOver] using filtered.symm

/-- A division by weight spends its amount (R121, R125). -/
theorem sumOver_byWeight {cs : List Claim} (hne : cs ≠ []) (hn : (cs.map Claim.head).Nodup) (amount : Nat) :
    sumOver cs (byWeight amount cs) = amount := by
  obtain ⟨c, hc, first⟩ := remainderHead_mem hne
  have parts := sumOver_div_le cs Claim.weight amount
  unfold byWeight
  simp only [first, sumOver_add, sumOver_one hn hc]
  exact Nat.add_sub_cancel' parts

/-! ### Stage 2 of the dynamic mode (R126) -/

/-- What each claim of a list with distinct heads is given, put into a table. -/
theorem look_give {l : List Claim} (hn : (l.map Claim.head).Nodup) (give : Claim → Nat) (t : Table 4 Nat) :
    (∀ c ∈ l, (l.foldl (fun t c => t.put c.head (give c)) t).look c.head = give c) ∧
      ∀ h, h ∉ l.map Claim.head → (l.foldl (fun t c => t.put c.head (give c)) t).look h = t.look h := by
  induction l generalizing t with
  | nil => simp
  | cons d l ih =>
    obtain ⟨hd, hl⟩ := List.nodup_cons.1 hn
    obtain ⟨given, kept⟩ := ih hl (t.put d.head (give d))
    refine ⟨fun c hc => ?_, fun h hh => ?_⟩
    · rcases List.mem_cons.1 hc with rfl | hc
      · rw [List.foldl_cons, kept _ hd, Table.look_put_self]
      · exact given c hc
    · rw [List.map_cons, List.mem_cons, not_or] at hh
      rw [List.foldl_cons, kept h hh.2, Table.look_put_ne _ hh.1]

/-- After a class of stage 2 the amounts received and what is left sum as before, and no other class receives. -/
theorem NeedStage.serve_spends (floor : Nat) {cs : List Claim} (hn : (cs.map Claim.head).Nodup) (st : NeedStage)
    (cls : HeadClass) (fresh : ∀ c ∈ cs, c.cls = cls → st.got.look c.head = 0) :
    let st' := st.serve floor cs cls
    sumOver cs (fun c => st'.got.look c.head) + st'.left = sumOver cs (fun c => st.got.look c.head) + st.left ∧
      ∀ c ∈ cs, c.cls ≠ cls → st'.got.look c.head = st.got.look c.head := by
  unfold NeedStage.serve
  split
  · exact ⟨rfl, fun _ _ _ => rfl⟩
  · extract_lets mine total give
    have affordable : sumOver mine give ≤ st.left := by
      by_cases enough : total ≤ st.left
      · have all : sumOver mine give = total := sumOver_congr fun c _ => if_pos enough
        rw [all]
        exact enough
      · have part : sumOver mine give = sumOver mine (fun c => st.left * c.need floor / total) :=
          sumOver_congr fun c _ => if_neg enough
        rw [part]
        exact sumOver_div_le mine (Claim.need floor) st.left
    obtain ⟨given, kept⟩ := look_give (hn.sublist (List.filter_sublist.map Claim.head)) give st.got
    have others : ∀ c ∈ cs, c.cls ≠ cls →
        (mine.foldl (fun t c => t.put c.head (give c)) st.got).look c.head = st.got.look c.head := by
      intro c hc hcls
      refine kept c.head fun hm => ?_
      obtain ⟨d, hd, e⟩ := List.mem_map.1 hm
      obtain ⟨hd, hdcls⟩ := List.mem_filter.1 hd
      rw [List.inj_on_of_nodup_map hn hd hc e] at hdcls
      exact hcls (of_decide_eq_true hdcls)
    have got : ∀ c ∈ cs, (mine.foldl (fun t c => t.put c.head (give c)) st.got).look c.head =
        st.got.look c.head + if decide (c.cls = cls) then give c else 0 := by
      intro c hc
      by_cases hcls : c.cls = cls
      · rw [given c (List.mem_filter.2 ⟨hc, decide_eq_true hcls⟩), fresh c hc hcls]
        simp [hcls]
      · rw [others c hc hcls]
        simp [hcls]
    refine ⟨?_, others⟩
    have mineSum : sumOver mine give = sumOver cs fun c => if decide (c.cls = cls) then give c else 0 :=
      sumOver_filter cs _ give
    change sumOver cs (fun c => (mine.foldl (fun t c => t.put c.head (give c)) st.got).look c.head) +
      (st.left - sumOver mine give) = _
    rw [sumOver_congr got, sumOver_add, ← mineSum]
    omega

/-- The shares of the dynamic mode spend the budget (R126). -/
theorem sumOver_dynamicShare {cs : List Claim} (hne : cs ≠ []) (hn : (cs.map Claim.head).Nodup)
    (hl : cs.length ≤ 4) (budget : Nat) : sumOver cs (dynamicShare budget cs) = budget := by
  unfold dynamicShare
  extract_lets floor start st
  have empty : ∀ c ∈ cs, start.got.look c.head = 0 := fun c _ => Table.look_const ..
  obtain ⟨spent1, kept1⟩ := NeedStage.serve_spends floor hn start .critical fun c hc _ => empty c hc
  obtain ⟨spent2, kept2⟩ := NeedStage.serve_spends floor hn (start.serve floor cs .critical) .high fun c hc e =>
    (kept1 c hc (by rw [e]; decide)).trans (empty c hc)
  obtain ⟨spent3, -⟩ := NeedStage.serve_spends floor hn ((start.serve floor cs .critical).serve floor cs .high) .normal
    fun c hc e => ((kept2 c hc (by rw [e]; decide)).trans (kept1 c hc (by rw [e]; decide))).trans (empty c hc)
  have none : sumOver cs (fun c => start.got.look c.head) = 0 := by
    rw [sumOver_congr empty]
    simp [sumOver]
  have spent : sumOver cs (fun c => st.got.look c.head) + st.left = budget - cs.length * floor := by
    change sumOver cs (fun c => (((start.serve floor cs .critical).serve floor cs .high).serve floor cs
      .normal).got.look c.head) + (((start.serve floor cs .critical).serve floor cs .high).serve floor cs
      .normal).left = start.left
    omega
  have floors : sumOver cs (fun _ => floor) = cs.length * floor := by simp [sumOver]
  have enough : cs.length * floor ≤ budget :=
    calc cs.length * floor ≤ 64 * floor := Nat.mul_le_mul_right _ (by omega)
      _ ≤ budget := Nat.mul_div_le budget 64
  rw [sumOver_add, sumOver_add, sumOver_byWeight hne hn, floors]
  omega

/-- In either mode the shares spend the budget (R124). -/
theorem sumOver_shareOf {cs : List Claim} (hne : cs ≠ []) (hn : (cs.map Claim.head).Nodup) (hl : cs.length ≤ 4)
    (mode : AllocationMode) (budget : Nat) : sumOver cs (shareOf mode budget cs) = budget := by
  cases mode with
  | static => exact sumOver_byWeight hne hn budget
  | dynamic => exact sumOver_dynamicShare hne hn hl budget

/-! ### A recomputation (R124) -/

/-- What a recomputation reads of head `h`. -/
def State.claimOf (s : State) (h : Fin 4) : Claim :=
  { head := h
    cls := (s.link.current.heads.look h).cls
    weight := (s.link.current.heads.look h).weight
    demand := (s.budget.heads.look h).demand }

theorem State.claims_eq (s : State) : s.claims = (allHeads.filter (s.isOn ·)).map s.claimOf := rfl

theorem State.claims_heads (s : State) : s.claims.map Claim.head = allHeads.filter (s.isOn ·) := by
  rw [State.claims_eq, List.map_map]
  exact List.map_id _

theorem State.claims_find (s : State) (h : Fin 4) :
    (s.claims.find? fun c => c.head == h) = if s.isOn h then some (s.claimOf h) else none := by
  cases found : s.claims.find? fun c => c.head == h with
  | none =>
    rw [List.find?_eq_none] at found
    split
    next on =>
      refine absurd (beq_self_eq_true h) (found (s.claimOf h) (List.mem_map_of_mem ?_))
      exact List.mem_filter.2 ⟨mem_allHeads h, on⟩
    next => rfl
  | some c =>
    obtain ⟨q, hq, rfl⟩ := List.mem_map.1 (List.mem_of_find?_eq_some found)
    have named := List.find?_some found
    obtain rfl : q = h := eq_of_beq named
    rw [if_pos (List.mem_filter.1 hq).2]
    rfl

theorem State.newShare_eq (s : State) (h : Fin 4) :
    s.newShare h =
      if s.isOn h then shareOf s.link.current.mode s.link.current.budget s.claims (s.claimOf h) else 0 := by
  unfold State.newShare
  rw [s.claims_find h]
  by_cases on : s.isOn h = true <;> simp [on]

/-- The shares after a recomputation. -/
theorem State.recomputeShares_share (s : State) (h : Fin 4) :
    (s.recomputeShares.budget.heads.look h).share = s.newShare h :=
  congrArg HeadBudget.share (Table.look_tab _ h)

/-- After a recomputation an OFF head's share is 0, and with a head ON the shares sum to the link budget in force. -/
theorem State.recomputeShares_spends (s : State) : s.recomputeShares.sharesSpendTheBudget := by
  have on h : s.recomputeShares.isOn h = s.isOn h := rfl
  refine ⟨fun h off => ?_, fun ⟨h, on⟩ => ?_⟩
  · rw [State.recomputeShares_share, State.newShare_eq]
    exact if_neg (by rw [← on, off]; decide)
  · have hne : s.claims ≠ [] :=
      List.ne_nil_of_mem (List.mem_map_of_mem (f := s.claimOf) (List.mem_filter.2 ⟨mem_allHeads h, on⟩))
    have hn : (s.claims.map Claim.head).Nodup := by
      rw [State.claims_heads]
      exact allHeads_nodup.filter _
    have hl : s.claims.length ≤ 4 := by
      rw [State.claims_eq, List.length_map]
      exact List.length_filter_le _ _
    have budget : sumOver s.claims (shareOf s.link.current.mode s.link.current.budget s.claims) =
        s.link.current.budget := sumOver_shareOf hne hn hl _ _
    have shares : (allHeads.map fun h => (s.recomputeShares.budget.heads.look h).share) = allHeads.map fun h =>
        if s.isOn h then shareOf s.link.current.mode s.link.current.budget s.claims (s.claimOf h) else 0 :=
      List.map_congr_left fun h _ => (s.recomputeShares_share h).trans (s.newShare_eq h)
    rw [shares, sum_map_ite_zero]
    refine Eq.trans ?_ budget
    rw [sumOver, State.claims_eq, List.map_map]
    rfl

end Sys2Proof.Machine
end

section
/-! SUPPORT. What the shared steps of the descriptors make of the surface table and of the control FIFO: a change of
each surface of a list, a withdrawal, an offered HEAD frame (R43, R45, R57, R62 to R65, R143). -/

namespace Sys2Proof.Machine

theorem Table.put_put {n : Nat} {α : Type} (t : Table n α) (i : Fin n) (x y : α) :
    (Table.put (Table.put t i x) i y) = Table.put t i y :=
  Table.ext_look fun j => by
    by_cases h : j = i
    · subst h; rw [Table.look_put_self, Table.look_put_self]
    · rw [Table.look_put_ne _ h, Table.look_put_ne _ h, Table.look_put_ne _ h]

/-! ### A change of each surface of a list -/

/-- A change that repeated does nothing more, taken for each surface of a list. -/
theorem State.updEach_look (f : Surface → Surface) (hf : ∀ x, f (f x) = f x) (ids : List (Fin 16)) (s : State)
    (id : Fin 16) : (ids.foldl (fun s id => s.updSurface id f) s).surfaces.look id =
      if id ∈ ids then (s.surfaces.look id).map f else s.surfaces.look id := by
  have twice : f ∘ f = f := funext hf
  induction ids generalizing s with
  | nil => simp
  | cons i ids ih =>
    rw [List.foldl_cons, ih, State.updSurface_surfaces, Table.look_upd]
    by_cases hi : id = i
    · subst hi
      simp [Option.map_map, twice]
    · simp [hi]

theorem State.setOwners_look (ids : List (Fin 16)) (o : Option (Fin 4)) (s : State) (id : Fin 16) :
    (s.setOwners ids o).surfaces.look id =
      if id ∈ ids then (s.surfaces.look id).map fun f => { f with owner := o } else s.surfaces.look id :=
  State.updEach_look (fun f => { f with owner := o }) (fun _ => rfl) ids s id

theorem State.markEach_look (ids : List (Fin 16)) (s : State) (id : Fin 16) :
    (s.markEach ids).surfaces.look id =
      if id ∈ ids then (s.surfaces.look id).map Surface.markWhole else s.surfaces.look id :=
  State.updEach_look Surface.markWhole (fun _ => rfl) ids s id

/-! ### Withdrawals and the surface table -/

theorem State.markStale_look_ne (s : State) {id k : Fin 16} (h : k ≠ id) (c w : Nat) :
    (s.markStale id c w).surfaces.look k = s.surfaces.look k := Table.look_upd_ne _ h _

/-- The surfaces after the withdrawal of one record: those of a marking when it is released at once (R63 to R65). -/
theorem State.withdrawSlot_surfaces {i : Fin 64} {s : State} {r : Record} (hr : s.slots.look i = some r) :
    (s.withdrawSlot i).surfaces =
      if r.releasedAtOnce then (s.markStale r.surface r.column r.row).surfaces else s.surfaces := by
  rw [State.withdrawSlot_of_look hr]
  cases hs : r.state <;> simp only [Record.releasedAtOnce, hs] <;> rfl

/-- A withdrawal leaves a surface of which it names no record. -/
theorem State.withdrawWhere_look_of_unnamed {p : Record → Bool} {id : Fin 16}
    (hp : ∀ r, p r = true → r.surface ≠ id) (s : State) :
    (s.withdrawWhere p).surfaces.look id = s.surfaces.look id := by
  refine foldl_keeps (fun s : State => s.surfaces.look id) (fun s i => State.withdrawNamed p i s) (fun s i => ?_)
    allSlots s
  cases hr : s.slots.look i with
  | none => rw [State.withdrawNamed_of_unnamed (by simp [hr])]
  | some r =>
    cases named : p r with
    | false => rw [State.withdrawNamed_of_unnamed (by simp [hr, named])]
    | true =>
      rw [State.withdrawNamed_of_named hr named, State.withdrawSlot_surfaces hr]
      split
      · exact s.markStale_look_ne (hp r named).symm _ _
      · rfl

theorem State.onlyMarks_withdrawNamed (s : State) (p : Record → Bool) (i : Fin 64) :
    s.onlyMarks (s.withdrawNamed p i) := by
  unfold State.withdrawNamed
  split
  · split
    · exact s.onlyMarks_withdrawSlot i
    · exact State.onlyMarks_of_eq rfl
  · exact State.onlyMarks_of_eq rfl

/-- A tile's mark is read from the surface table. -/
theorem State.isStale_of_surfaces {s t : State} (h : t.surfaces = s.surfaces) (id : Fin 16) (c w : Nat) :
    t.isStale id c w = s.isStale id c w := by
  unfold State.isStale
  rw [h]

/-- A withdrawal marks the tiles of the records that it names and releases at once, and no other (R62 to R65). -/
theorem State.withdrawWhere_marksOf (p : Record → Bool) (s : State) (id : Fin 16) :
    s.marksOf (fun r => p r = true ∧ r.releasedAtOnce = true) id (s.withdrawWhere p) := by
  intro f hf hl c w hg
  have marks : ∀ i (v : State), v.hasTileAt id c w → ((v.withdrawNamed p i).isStale id c w = true ↔
      v.isStale id c w = true ∨ ∃ r ∈ v.slots.look i,
        (p r = true ∧ r.releasedAtOnce = true) ∧ r.surface = id ∧ r.column = c ∧ r.row = w) := by
    intro i v hv
    cases hr : v.slots.look i with
    | none => rw [State.withdrawNamed_of_unnamed (by simp [hr])]; simp
    | some r =>
      cases named : p r with
      | false => rw [State.withdrawNamed_of_unnamed (by simp [hr, named])]; simp [named]
      | true =>
        rw [State.withdrawNamed_of_named hr named]
        cases released : r.releasedAtOnce with
        | false =>
          rw [State.isStale_of_surfaces ((State.withdrawSlot_surfaces hr).trans (if_neg (by simp [released])))]
          simp [released]
        | true =>
          rw [State.isStale_of_surfaces ((State.withdrawSlot_surfaces hr).trans (if_pos released)),
            State.isStale_markStale hv]
          simp [named, released]
  have folded := foldSlots_isStale (g := (·.bind (Record.afterWithdrawal p))) (State.withdrawNamed_look p) _ 
    (fun i v => v.onlyMarks_withdrawNamed p i) marks allSlots allSlots_nodup s ⟨f, hf, hl, hg⟩
  rw [State.withdrawWhere_eq, State.forSlots, folded]
  simp only [mem_allSlots, true_and, Option.mem_def]

/-- A withdrawal is read from the slots, the lists and the count of the state after it. -/
theorem State.withdraws_of_after {s t u : State} {p : Record → Bool} (h : s.withdraws p t)
    (hs : u.slots = t.slots) (hq : u.encodeQueue = t.encodeQueue)
    (hd : ∀ k, (u.budget.heads.look k).deferred = (t.budget.heads.look k).deferred) (hf : u.link.send = t.link.send)
    (hc : u.counters.capturesAbandoned = t.counters.capturesAbandoned) : s.withdraws p u := by
  unfold State.withdraws at *
  simpa only [hs, hq, hd, hf, hc] using h

/-! ### An offered HEAD frame (R143) -/

theorem dropNewestAnswer_sublist {l l' : List ControlFrame} (h : dropNewestAnswer l = some l') : l'.Sublist l := by
  induction l generalizing l' with
  | nil => simp [dropNewestAnswer] at h
  | cons f l ih =>
    unfold dropNewestAnswer at h
    split at h
    next r hr =>
      obtain rfl := Option.some.inj h
      exact (ih hr).cons_cons f
    next =>
      split at h
      · obtain rfl := Option.some.inj h
        exact List.sublist_cons_self _ _
      · exact absurd h.symm (Option.some_ne_none _)

/-- A frame that joins the control FIFO joins what it held, or what it held less an ANSWER. -/
theorem State.pushControl_control (f : ControlFrame) (s : State) :
    ∃ l, l.Sublist s.link.control ∧ (s.pushControl f).link.control = l ++ [f] := by
  unfold State.pushControl
  split
  · exact ⟨_, List.Sublist.refl _, rfl⟩
  · split
    next l hl => exact ⟨l, dropNewestAnswer_sublist hl, rfl⟩
    next => exact ⟨_, List.Sublist.refl _, rfl⟩

/-- While UP an offered HEAD frame waits with its contents of the moment, in the place of every one before it. -/
theorem State.offerHead_waits {s : State} (h : Fin 4) (hup : s.link.state = .up) :
    (s.offerHead h).headFrameWaits h (s.headFrame h) := by
  have own : (ControlFrame.head (s.headFrame h)).isHead h = true := by
    simp only [ControlFrame.isHead, State.headFrame]
    split <;> exact beq_self_eq_true h
  simp only [State.offerHead, hup]
  split
  next waits =>
    obtain ⟨f, hf, isHead⟩ := List.any_eq_true.1 waits
    refine ⟨List.mem_map.2 ⟨f, hf, if_pos isHead⟩, fun g hg hh => ?_⟩
    obtain ⟨f', -, rfl⟩ := List.mem_map.1 hg
    split at hh
    next => exact if_pos ‹_›
    next other => exact absurd hh other
  next none =>
    obtain ⟨l, sub, control⟩ := s.pushControl_control (.head (s.headFrame h))
    unfold State.headFrameWaits
    rw [control]
    refine ⟨List.mem_append_right _ (List.mem_singleton_self _), fun g hg hh => ?_⟩
    rcases List.mem_append.1 hg with hg | hg
    · exact absurd (List.any_eq_true.2 ⟨g, sub.subset hg, hh⟩) none
    · exact List.mem_singleton.1 hg

/-- Which HEAD frame waits is read from the control FIFO. -/
theorem State.headFrameWaits_of_control {s t : State} {h : Fin 4} {d : HeadFrame} (hc : t.link.control = s.link.control)
    (hs : s.headFrameWaits h d) : t.headFrameWaits h d := by
  unfold State.headFrameWaits at *
  rwa [hc]

/-- Outside UP no HEAD frame is queued. -/
theorem State.offerHead_of_not_up {s : State} (h : Fin 4) (hup : s.link.state ≠ .up) : s.offerHead h = s := by
  unfold State.offerHead
  cases hs : s.link.state with
  | up => exact absurd hs hup
  | down => rfl
  | aligning => rfl

/-- An offered HEAD frame counts on no counter but that of the ANSWERs dropped. -/
theorem State.offerHead_capturesAbandoned (s : State) (h : Fin 4) :
    (s.offerHead h).counters.capturesAbandoned = s.counters.capturesAbandoned := by
  unfold State.offerHead State.pushControl
  repeat' split
  all_goals rfl

/-- The contents of a HEAD frame for a head that is not OFF. -/
theorem State.headFrame_of_on {s : State} {h : Fin 4} (on : (s.heads.look h).state ≠ .off) :
    s.headFrame h =
      { head := h, state := (s.heads.look h).state, flipSet := (s.heads.look h).flipSet,
        geometry := (s.heads.look h).geometry, period := (s.scans.look h).period } := by
  unfold State.headFrame
  dsimp only
  split
  next off => exact absurd off on
  next => rfl

/-- While UP an offered HEAD frame of a head that is not OFF says how the head and its follower stand. -/
theorem State.offerHead_waits_on {s : State} {h : Fin 4} {d : Head} {n : Nat} (hup : s.link.state = .up)
    (hd : s.heads.look h = d) (hn : (s.scans.look h).period = n) (on : d.state ≠ .off) :
    (s.offerHead h).headFrameWaits h
      { head := h, state := d.state, flipSet := d.flipSet, geometry := d.geometry, period := n } := by
  subst hd hn
  exact State.headFrame_of_on on ▸ State.offerHead_waits h hup

end Sys2Proof.Machine
end

section
/-! SUPPORT. SURFACE descriptors: their fields (R35, R167), the checks of the tables (R36 to R38) and what a taken one
does (R39, R40). -/

namespace Sys2Proof.Machine

/-! ### The replacement of a DECLARED entry (R40) -/

/-- R40 to the end of step 3: the records of the surface withdrawn and its entry replaced, wholly stale. -/
def State.replaceEntry (id : Fin 16) (f : Surface) (s : State) : State := (s.withdrawSurface id).declare id f

theorem State.replaceEntry_surfaces (id : Fin 16) (f : Surface) (s : State) :
    (s.replaceEntry id f).surfaces = s.surfaces.put id (some f.markWhole) := by
  refine Table.ext_look fun k => ?_
  change ((s.withdrawSurface id).surfaces.put id (some f.markWhole)).look k = _
  by_cases hk : k = id
  · subst hk
    rw [Table.look_put_self, Table.look_put_self]
  · rw [Table.look_put_ne _ hk, Table.look_put_ne _ hk]
    exact State.withdrawWhere_look_of_unnamed (fun r hr => eq_of_beq hr ▸ Ne.symm hk) s

/-- A declaration withdraws no record. -/
theorem State.withdraws_declare {s t : State} {p : Record → Bool} (h : s.withdraws p t) (id : Fin 16) (f : Surface) :
    s.withdraws p (t.declare id f) :=
  State.withdraws_of_after h rfl rfl (fun _ => rfl) rfl rfl

theorem State.replaceEntry_withdraws (id : Fin 16) (f : Surface) (s : State) :
    s.withdraws (fun r => r.surface == id) (s.replaceEntry id f) :=
  State.withdraws_declare (State.withdrawWhere_withdraws _ s) id f

theorem State.replaceEntry_shares (id : Fin 16) (f : Surface) (s : State) (k : Fin 4) :
    ((s.replaceEntry id f).budget.heads.look k).share = (s.budget.heads.look k).share := by
  simp only [State.replaceEntry, State.declare]
  exact (s.withdrawSurface_keeps id).shares k

@[simp] theorem State.replaceEntry_frame (id : Fin 16) (f : Surface) (s : State) :
    (s.replaceEntry id f).straps = s.straps ∧ (s.replaceEntry id f).heads = s.heads ∧
    (s.replaceEntry id f).scans = s.scans ∧ (s.replaceEntry id f).rovers = s.rovers ∧
    (s.replaceEntry id f).budget.now = s.budget.now ∧ (s.replaceEntry id f).link.state = s.link.state ∧
    (s.replaceEntry id f).link.control = s.link.control ∧ (s.replaceEntry id f).link.current = s.link.current := by
  simp [State.replaceEntry, State.declare]

/-- R40 step 4 but for the HEAD frame: the head waits, its follower seeks and its stall timer is restarted. -/
def State.hideShown (h : Fin 4) (s : State) : State :=
  { s with
    heads := s.heads.put h { s.heads.look h with state := .waiting, shown := none }
    scans := s.scans.put h { s.scans.look h with
      mode := .seek, cursor := 0, lastStart := none
      stall := some (s.after (stallDuration (s.scans.look h).period)) } }

theorem State.loseShown_eq (h : Fin 4) (s : State) : s.loseShown h = (s.hideShown h).offerHead h := by
  simp only [State.loseShown, State.restartStall, State.updScan, State.updHead, Table.upd, Table.put_put,
    Table.look_put_self]
  rfl

/-- R40 step 5 but for the HEAD frame: the head's geometry follows, its quality map is EXACT and its rover 0. -/
def State.reshapeHead (h : Fin 4) (g : Geometry) (s : State) : State :=
  { s with
    heads := s.heads.put h { s.heads.look h with
      geometry := some g, quality := List.replicate g.tileCount .exact }
    rovers := s.rovers.put h 0 }

theorem State.regrow_eq (h : Fin 4) (g : Geometry) (queued : Bool) (s : State) :
    s.regrow h g queued = if queued then s.reshapeHead h g else (s.reshapeHead h g).offerHead h := rfl

/-- What R40 step 4 leaves beside the head, its follower and the HEAD frame. -/
@[simp] theorem State.loseShown_frame (h : Fin 4) (s : State) :
    (s.loseShown h).straps = s.straps ∧ (s.loseShown h).surfaces = s.surfaces ∧ (s.loseShown h).slots = s.slots ∧
    (s.loseShown h).rovers = s.rovers ∧ (s.loseShown h).encodeQueue = s.encodeQueue ∧
    (s.loseShown h).budget = s.budget ∧ (s.loseShown h).link.state = s.link.state ∧
    (s.loseShown h).link.send = s.link.send ∧ (s.loseShown h).link.current = s.link.current ∧
    (s.loseShown h).counters.capturesAbandoned = s.counters.capturesAbandoned := by
  simp [State.loseShown_eq, State.hideShown, State.offerHead_capturesAbandoned]

theorem State.loseShown_heads (h : Fin 4) (s : State) :
    (s.loseShown h).heads = s.heads.put h { s.heads.look h with state := .waiting, shown := none } := by
  simp [State.loseShown_eq, State.hideShown]

theorem State.loseShown_scans (h : Fin 4) (s : State) :
    (s.loseShown h).scans = s.scans.put h { s.scans.look h with
      mode := .seek, cursor := 0, lastStart := none
      stall := some (s.after (stallDuration (s.scans.look h).period)) } := by
  simp [State.loseShown_eq, State.hideShown]

theorem State.loseShown_waits {h : Fin 4} {s : State} (hup : s.link.state = .up) :
    (s.loseShown h).headFrameWaits h
      { head := h, state := .waiting, flipSet := (s.heads.look h).flipSet, geometry := (s.heads.look h).geometry,
        period := (s.scans.look h).period } := by
  rw [State.loseShown_eq]
  exact State.offerHead_waits_on (s := s.hideShown h) hup (Table.look_put_self ..)
    (by simp [State.hideShown]) nofun

theorem State.loseShown_control {h : Fin 4} {s : State} (hup : s.link.state ≠ .up) :
    (s.loseShown h).link.control = s.link.control := by
  rw [State.loseShown_eq, State.offerHead_of_not_up h (s := s.hideShown h) hup]
  rfl

/-- What R40 step 5 leaves beside the head, its rover and the HEAD frame. -/
@[simp] theorem State.regrow_frame (h : Fin 4) (g : Geometry) (queued : Bool) (s : State) :
    (s.regrow h g queued).straps = s.straps ∧ (s.regrow h g queued).surfaces = s.surfaces ∧
    (s.regrow h g queued).scans = s.scans ∧ (s.regrow h g queued).slots = s.slots ∧
    (s.regrow h g queued).encodeQueue = s.encodeQueue ∧ (s.regrow h g queued).budget = s.budget ∧
    (s.regrow h g queued).link.state = s.link.state ∧ (s.regrow h g queued).link.send = s.link.send ∧
    (s.regrow h g queued).link.current = s.link.current ∧
    (s.regrow h g queued).counters.capturesAbandoned = s.counters.capturesAbandoned := by
  rw [State.regrow_eq]
  cases queued <;> simp [State.reshapeHead, State.offerHead_capturesAbandoned]

theorem State.regrow_heads (h : Fin 4) (g : Geometry) (queued : Bool) (s : State) :
    (s.regrow h g queued).heads = s.heads.put h { s.heads.look h with
      geometry := some g, quality := List.replicate g.tileCount .exact } := by
  rw [State.regrow_eq]
  cases queued <;> simp [State.reshapeHead]

theorem State.regrow_queued_control (h : Fin 4) (g : Geometry) (s : State) :
    (s.regrow h g true).link.control = s.link.control := rfl

theorem State.regrow_waits {h : Fin 4} {s : State} (g : Geometry) (hup : s.link.state = .up)
    (on : (s.heads.look h).state ≠ .off) :
    (s.regrow h g false).headFrameWaits h
      { head := h, state := (s.heads.look h).state, flipSet := (s.heads.look h).flipSet, geometry := some g,
        period := (s.scans.look h).period } :=
  State.offerHead_waits_on (s := s.reshapeHead h g) hup (Table.look_put_self ..) rfl on

theorem State.regrow_control {h : Fin 4} {s : State} (g : Geometry) (queued : Bool) (hup : s.link.state ≠ .up) :
    (s.regrow h g queued).link.control = s.link.control := by
  rw [State.regrow_eq]
  cases queued with
  | false => exact congrArg (·.link.control) (State.offerHead_of_not_up h (s := s.reshapeHead h g) hup)
  | true => rfl

theorem State.regrow_rovers (h : Fin 4) (g : Geometry) (queued : Bool) (s : State) :
    (s.regrow h g queued).rovers = s.rovers.put h 0 := by
  rw [State.regrow_eq]
  cases queued <;> simp [State.reshapeHead]

/-- The state after R40's step 4, when the redeclared surface was shown. -/
def State.afterLoss (id : Fin 16) (h : Fin 4) (w : State) : State :=
  if (w.heads.look h).shown = some id then w.loseShown h else w

@[simp] theorem State.afterLoss_frame (id : Fin 16) (h : Fin 4) (w : State) :
    (w.afterLoss id h).straps = w.straps ∧ (w.afterLoss id h).surfaces = w.surfaces ∧
    (w.afterLoss id h).slots = w.slots ∧ (w.afterLoss id h).rovers = w.rovers ∧
    (w.afterLoss id h).encodeQueue = w.encodeQueue ∧ (w.afterLoss id h).budget = w.budget ∧
    (w.afterLoss id h).link.state = w.link.state ∧ (w.afterLoss id h).link.send = w.link.send ∧
    (w.afterLoss id h).link.current = w.link.current ∧
    (w.afterLoss id h).counters.capturesAbandoned = w.counters.capturesAbandoned := by
  unfold State.afterLoss
  split <;> simp

theorem State.afterLoss_heads (id : Fin 16) (h : Fin 4) (w : State) :
    (w.afterLoss id h).heads = w.heads.put h { w.heads.look h with
      state := if (w.heads.look h).shown = some id then .waiting else (w.heads.look h).state
      shown := if (w.heads.look h).shown = some id then none else (w.heads.look h).shown } := by
  unfold State.afterLoss
  split
  · exact w.loseShown_heads h
  · exact (Table.put_look _ h).symm

theorem State.afterLoss_scans (id : Fin 16) (h : Fin 4) (w : State) :
    (w.afterLoss id h).scans = if (w.heads.look h).shown = some id then w.scans.put h { w.scans.look h with
        mode := .seek, cursor := 0, lastStart := none
        stall := some (w.after (stallDuration (w.scans.look h).period)) }
      else w.scans := by
  unfold State.afterLoss
  split
  · exact w.loseShown_scans h
  · rfl

/-- R40 for a surface of head `h`'s flip set. -/
theorem State.redeclare_owned {s : State} {id : Fin 16} {old f : Surface} {h : Fin 4} (ho : old.owner = some h) :
    s.redeclare id old f =
      let t := (s.replaceEntry id { f with owner := some h }).afterLoss id h
      if f.geometry ≠ old.geometry then t.regrow h f.geometry (decide ((s.heads.look h).shown = some id)) else t := by
  have heads : ((s.withdrawSurface id).declare id { f with owner := some h }).heads = s.heads := by
    simp [State.declare]
  simp only [State.redeclare, ho, heads, State.afterLoss, State.replaceEntry, decide_eq_true_eq]

theorem State.redeclare_unowned {s : State} {id : Fin 16} {old f : Surface} (ho : old.owner = none) :
    s.redeclare id old f = s.replaceEntry id { f with owner := none } := by
  simp only [State.redeclare, ho]
  rfl

/-- What a redeclaration of a surface of head `h`'s flip set leaves (R40): the statement's conclusion. -/
structure State.Redeclares (id : Fin 16) (old f : Surface) (h : Fin 4) (s t : State) : Prop where
  straps : t.straps = s.straps
  current : t.link.current = s.link.current
  surfaces : t.surfaces = s.surfaces.put id (some { f with owner := some h }.markWhole)
  withdraws : s.withdraws (fun r => r.surface == id) t
  heads : t.heads = s.heads.put h { s.heads.look h with
    state := if (s.heads.look h).shown = some id then .waiting else (s.heads.look h).state
    shown := if (s.heads.look h).shown = some id then none else (s.heads.look h).shown
    geometry := if f.geometry ≠ old.geometry then some f.geometry else (s.heads.look h).geometry
    quality := if f.geometry ≠ old.geometry then List.replicate f.geometry.tileCount .exact
      else (s.heads.look h).quality }
  scans : t.scans = if (s.heads.look h).shown = some id then s.scans.put h { s.scans.look h with
      mode := .seek, cursor := 0, lastStart := none
      stall := some (s.after (stallDuration (s.scans.look h).period)) }
    else s.scans
  rovers : t.rovers = if f.geometry ≠ old.geometry then s.rovers.put h 0 else s.rovers
  waits : s.link.state = .up → (s.heads.look h).state ≠ .off →
    (s.heads.look h).shown = some id ∨ f.geometry ≠ old.geometry → t.headFrameWaits h
    { head := h
      state := if (s.heads.look h).shown = some id then .waiting else (s.heads.look h).state
      flipSet := (s.heads.look h).flipSet
      geometry := if (s.heads.look h).shown = some id then (s.heads.look h).geometry else some f.geometry
      period := (s.scans.look h).period }
  control : s.link.state ≠ .up ∨ ¬ ((s.heads.look h).shown = some id ∨ f.geometry ≠ old.geometry) →
    t.link.control = s.link.control
  shares : ∀ k, (t.budget.heads.look k).share = (s.budget.heads.look k).share

theorem State.redeclare_redeclares {s : State} {id : Fin 16} {old f : Surface} {h : Fin 4} (ho : old.owner = some h) :
    s.Redeclares id old f h (s.redeclare id old f) := by
  rw [State.redeclare_owned ho]
  extract_lets t
  have toEntry := s.replaceEntry_frame id { f with owner := some h }
  have surfaces := s.replaceEntry_surfaces id { f with owner := some h }
  have withdraws := s.replaceEntry_withdraws id { f with owner := some h }
  have shares : ∀ k, ((s.replaceEntry id { f with owner := some h }).budget.heads.look k).share =
      (s.budget.heads.look k).share := s.replaceEntry_shares id _
  revert t toEntry surfaces withdraws shares
  generalize s.replaceEntry id { f with owner := some h } = w
  rintro t ⟨wstraps, wheads, wscans, wrovers, wnow, wstate, wcontrol, wcurrent⟩ surfaces withdraws shares
  have theads := w.afterLoss_heads id h
  have tscans := w.afterLoss_scans id h
  rw [wheads] at theads tscans
  rw [wscans] at tscans
  exact
    { straps := by split <;> simp [t, wstraps]
      current := by split <;> simp [t, wcurrent]
      surfaces := by split <;> simp [t, surfaces]
      withdraws := by
        refine State.withdraws_of_after withdraws ?_ ?_ (fun _ => ?_) ?_ ?_
        all_goals split <;> simp [t]
      heads := by
        split
        next other =>
          rw [State.regrow_heads, theads]
          simp [Table.put_put]
        next same => exact theads
      scans := by
        split <;> simp [t, tscans, State.after, wnow]
      rovers := by
        split <;> simp [t, wrovers, State.regrow_rovers]
      waits := fun up on cause => by
        by_cases shown : (s.heads.look h).shown = some id
        · have lost : t = w.loseShown h := if_pos (by rw [wheads, shown])
          have waits := State.loseShown_waits (h := h) (wstate.trans up)
          rw [wheads, wscans, ← lost] at waits
          simp only [shown, decide_true, if_true]
          by_cases other : f.geometry ≠ old.geometry
          · rw [if_pos other]
            exact State.headFrameWaits_of_control (t.regrow_queued_control h _) waits
          · rw [if_neg other]
            exact waits
        · have stays : t = w := if_neg (by rw [wheads]; exact shown)
          have waits := State.regrow_waits (h := h) f.geometry (wstate.trans up) (by rw [wheads]; exact on)
          rw [wheads, wscans, ← stays] at waits
          simpa only [shown, decide_false, if_false, if_pos (cause.resolve_left shown)] using waits
      control := fun quiet => by
        have tcontrol : t.link.control = s.link.control := by
          refine Eq.trans ?_ wcontrol
          by_cases shown : (s.heads.look h).shown = some id
          · have down := quiet.resolve_right fun k => k (.inl shown)
            exact (congrArg (·.link.control) (if_pos (by rw [wheads, shown]) : t = w.loseShown h)).trans
              (State.loseShown_control (wstate ▸ down))
          · exact congrArg (·.link.control) (if_neg (by rw [wheads]; exact shown) : t = w)
        have tstate : t.link.state = s.link.state := by simp [t, wstate]
        by_cases other : f.geometry ≠ old.geometry
        · have down := quiet.resolve_right fun k => k (.inr other)
          rw [if_pos other, State.regrow_control _ _ (tstate ▸ down), tcontrol]
        · rw [if_neg other, tcontrol]
      shares := fun k => by split <;> simp [t, shares] }

/-! ### The fields (R35, R167) -/

/-- A little-endian field as a sum of its bytes. -/
theorem Buffer.field_eq_sum (b : Buffer) (a n : Nat) :
    Buffer.field b a n = ((List.range n).map fun k => (Buffer.read b (a + k)).toNat * 256 ^ k).sum := by
  induction n generalizing a with
  | zero => rfl
  | succ n ih =>
    have shift : ((List.range n).map fun k => (Buffer.read b (a + (k + 1))).toNat * 256 ^ (k + 1)).sum =
        256 * ((List.range n).map fun k => (Buffer.read b (a + 1 + k)).toNat * 256 ^ k).sum := by
      rw [← List.sum_map_mul_left]
      refine congrArg List.sum (List.map_congr_left fun k _ => ?_)
      rw [Nat.pow_succ, Nat.add_comm k 1, Nat.add_assoc]
      ring
    rw [List.range_succ_eq_map, List.map_cons, List.sum_cons, List.map_map, Buffer.field, ih]
    simp only [Function.comp_def, Nat.succ_eq_add_one, shift, Nat.add_zero, Nat.pow_zero, Nat.mul_one]

/-- R35's ranges of the fields of a SURFACE descriptor, with `fmt` the format of its code. -/
structure SurfaceFields.InRange (f : SurfaceFields) (p : Straps) (fmt : PixelFormat) : Prop where
  id : f.id < 16
  width : 64 ≤ f.width ∧ f.width ≤ 4096
  height : 32 ≤ f.height ∧ f.height ≤ 2304
  format : formatOf f.format = some fmt
  pitch : f.width * fmt.bytesPerPixel ≤ f.pitch ∧ f.pitch % 64 = 0 ∧ f.pitch ≤ 65536
  base : f.base % 256 = 0 ∧ f.base + f.pitch * f.height ≤ p.channelSize

/-- The entry a SURFACE descriptor asks for, before it is declared. -/
def SurfaceFields.entry (f : SurfaceFields) (fmt : PixelFormat) : Surface :=
  { base := f.base, pitch := f.pitch, geometry := { width := f.width, height := f.height, format := fmt },
    owner := none, stale := [] }

/-- The descriptors that pass R35's checks, and the entry that passes. -/
theorem SurfaceFields.checked_eq_some {f : SurfaceFields} {p : Straps} {id : Fin 16} {g : Surface} :
    f.checked p = some (id, g) ↔ ∃ fmt, f.InRange p fmt ∧ id.1 = f.id ∧ g = f.entry fmt := by
  constructor
  · intro h
    unfold SurfaceFields.checked at h
    split at h
    next hid =>
      split at h
      next hsize =>
        split at h
        next => exact absurd h.symm (Option.some_ne_none _)
        next fmt hfmt =>
          split at h
          next hpitch =>
            split at h
            next hbase =>
              obtain ⟨rfl, rfl⟩ := Prod.mk.inj (Option.some.inj h)
              obtain ⟨hw, hw', hh, hh'⟩ := hsize
              exact ⟨fmt, ⟨hid, ⟨hw, hw'⟩, ⟨hh, hh'⟩, hfmt, hpitch, hbase⟩, rfl, rfl⟩
            next => exact absurd h.symm (Option.some_ne_none _)
          next => exact absurd h.symm (Option.some_ne_none _)
      next => exact absurd h.symm (Option.some_ne_none _)
    next => exact absurd h.symm (Option.some_ne_none _)
  · rintro ⟨fmt, ⟨hid, ⟨hw, hw'⟩, ⟨hh, hh'⟩, hfmt, hpitch, hbase⟩, hi, rfl⟩
    have named : (⟨f.id, hid⟩ : Fin 16) = id := Fin.ext hi.symm
    simp only [SurfaceFields.checked, hid, dif_pos, hw, hw', hh, hh', and_self, if_true, hfmt, hpitch, hbase, named]
    rfl

theorem formatOf_eq_some {code : Nat} {fmt : PixelFormat} :
    formatOf code = some fmt ↔ (code = 1 ∧ fmt = .f32) ∨ (code = 2 ∧ fmt = .f16) := by
  unfold formatOf
  split
  · cases fmt <;> simp
  · cases fmt <;> simp
  next h1 h2 => exact ⟨nofun, fun k => k.elim (fun e => absurd e.1 h1) fun e => absurd e.1 h2⟩

theorem bytesPerPixel_of_format {code : Nat} {fmt : PixelFormat} (h : formatOf code = some fmt) :
    fmt.bytesPerPixel = (if code = 1 then 4 else 2) ∧ (fmt = .f32 ↔ code = 1) := by
  rcases formatOf_eq_some.1 h with ⟨rfl, rfl⟩ | ⟨rfl, rfl⟩
  · exact ⟨rfl, by simp⟩
  · exact ⟨rfl, by simp⟩

/-- R35's ranges in the words of the statement. -/
theorem SurfaceFields.inRange_iff (f : SurfaceFields) (p : Straps) :
    (f.id ≤ 15 ∧ (64 ≤ f.width ∧ f.width ≤ 4096 ∧ 32 ≤ f.height ∧ f.height ≤ 2304) ∧
      (f.format = 1 ∨ f.format = 2) ∧
      (f.width * (if f.format = 1 then 4 else 2) ≤ f.pitch ∧ 64 ∣ f.pitch ∧ f.pitch ≤ 65536) ∧
      (256 ∣ f.base ∧ f.base + f.pitch * f.height ≤ p.channelSize)) ↔ ∃ fmt, f.InRange p fmt := by
  constructor
  · rintro ⟨hid, ⟨hw, hw', hh, hh'⟩, hf, ⟨hp, hd, hp'⟩, hb, hl⟩
    obtain ⟨fmt, hfmt⟩ : ∃ fmt, formatOf f.format = some fmt := by
      rcases hf with e | e
      · exact ⟨.f32, formatOf_eq_some.2 (.inl ⟨e, rfl⟩)⟩
      · exact ⟨.f16, formatOf_eq_some.2 (.inr ⟨e, rfl⟩)⟩
    rw [← (bytesPerPixel_of_format hfmt).1] at hp
    exact ⟨fmt, Nat.lt_succ_of_le hid, ⟨hw, hw'⟩, ⟨hh, hh'⟩, hfmt, ⟨hp, Nat.mod_eq_zero_of_dvd hd, hp'⟩,
      Nat.mod_eq_zero_of_dvd hb, hl⟩
  · rintro ⟨fmt, hid, ⟨hw, hw'⟩, ⟨hh, hh'⟩, hfmt, ⟨hp, hd, hp'⟩, hb, hl⟩
    rw [(bytesPerPixel_of_format hfmt).1] at hp
    exact ⟨Nat.le_of_lt_succ hid, ⟨hw, hw', hh, hh'⟩, (formatOf_eq_some.1 hfmt).imp And.left And.left,
      ⟨hp, Nat.dvd_of_mod_eq_zero hd, hp'⟩, Nat.dvd_of_mod_eq_zero hb, hl⟩

theorem SurfaceFields.checked_eq_none {f : SurfaceFields} {p : Straps} :
    f.checked p = none ↔ ¬ ∃ fmt, f.InRange p fmt := by
  rw [← Option.not_isSome_iff_eq_none, Option.isSome_iff_exists, not_iff_not]
  constructor
  · rintro ⟨⟨id, g⟩, h⟩
    obtain ⟨fmt, r, -, -⟩ := SurfaceFields.checked_eq_some.1 h
    exact ⟨fmt, r⟩
  · rintro ⟨fmt, r⟩
    exact ⟨(⟨f.id, r.id⟩, f.entry fmt), SurfaceFields.checked_eq_some.2 ⟨fmt, r, rfl, rfl⟩⟩

/-- The table checks answer no BAD_VALUE (R36 to R38). -/
theorem State.checkSurface_eq_badValue (d : DescriptorSlot) (s : State) :
    s.checkSurface d = .badValue ↔ d.surfaceFields.checked s.straps = none := by
  unfold State.checkSurface
  split
  next h => exact ⟨fun _ => h, fun _ => rfl⟩
  next h =>
    rw [h]
    refine ⟨fun k => ?_, nofun⟩
    repeat' split at k
    all_goals exact absurd k (by decide)

/-- Settles O17: the fields are the bytes' numbers, and BAD_VALUE is the outcome of R35's checks alone. -/
theorem surfaceFieldChecks : Obligations.SurfaceFieldChecks := by
  intro d s f bpp good number
  have passes : good ↔ ∃ fmt, f.InRange s.straps fmt := f.inRange_iff s.straps
  refine ⟨?_, ?_, fun h => ?_⟩
  · have bytes : ∀ a n, d.field a n = number a n := fun a n => Buffer.field_eq_sum d.bytes a n
    have one : ∀ a, (d.byte a).toNat = number a 1 := fun a => by simp [number]
    simp only [f, DescriptorSlot.surfaceFields, bytes, one]
  · rw [State.checkSurface_eq_badValue, passes]
    exact SurfaceFields.checked_eq_none.symm
  · obtain ⟨fmt, r⟩ := passes.1 h
    exact ⟨⟨f.id, r.id⟩, f.entry fmt, SurfaceFields.checked_eq_some.2 ⟨fmt, r, rfl, rfl⟩, rfl, rfl, rfl, rfl, rfl,
      (bytesPerPixel_of_format r.format).2⟩

/-! ### The tables (R36 to R38) -/

/-- Two ranges that hold bytes meet when one holds a byte of the other (R36). -/
theorem rangesMeet_iff {lo hi lo' hi' : Nat} (h : lo < hi) (h' : lo' < hi') :
    rangesMeet lo hi lo' hi' = true ↔ ∃ a, lo ≤ a ∧ a < hi ∧ lo' ≤ a ∧ a < hi' := by
  simp only [rangesMeet, Bool.and_eq_true, decide_eq_true_eq]
  constructor
  · rintro ⟨h1, h2⟩
    exact ⟨max lo lo', Nat.le_max_left _ _, Nat.max_lt.2 ⟨h, h2⟩, Nat.le_max_right _ _, Nat.max_lt.2 ⟨h1, h'⟩⟩
  · rintro ⟨a, h1, h2, h3, h4⟩
    exact ⟨Nat.lt_of_le_of_lt h1 h4, Nat.lt_of_le_of_lt h3 h2⟩

theorem rangesMeet_comm (lo hi lo' hi' : Nat) : rangesMeet lo hi lo' hi' = rangesMeet lo' hi' lo hi :=
  Bool.and_comm _ _

/-- A surface of a width and height of at least 1, whose lines lie within its pitch, holds a byte. -/
theorem Surface.base_lt_limit {f : Surface} (hl : f.geometry.lineBytes ≤ f.pitch) (hw : 0 < f.geometry.width)
    (hh : 0 < f.geometry.height) : f.base < f.limit := by
  have bpp : 0 < f.geometry.format.bytesPerPixel := by cases f.geometry.format <;> decide
  have pitch : 0 < f.pitch := Nat.lt_of_lt_of_le (Nat.mul_pos hw bpp) hl
  exact Nat.lt_add_of_pos_right (Nat.mul_pos pitch hh)

theorem Surface.sound.base_lt_limit {p : Straps} {f : Surface} (h : f.sound p) : f.base < f.limit := by
  obtain ⟨-, -, hl, -, hw, -, hh, -⟩ := h
  exact Surface.base_lt_limit hl (by omega) (by omega)

/-- An entry that has passed R35 is sound once it is marked whole. -/
theorem SurfaceFields.InRange.sound {f : SurfaceFields} {p : Straps} {fmt : PixelFormat} (r : f.InRange p fmt)
    (o : Option (Fin 4)) : ({ f.entry fmt with owner := o } : Surface).markWhole.sound p := by
  obtain ⟨-, ⟨hw, hw'⟩, ⟨hh, hh'⟩, -, ⟨hp, hd, hp'⟩, hb, hl⟩ := r
  exact ⟨hb, hd, hp, hp', hw, hw', hh, hh', hl, List.length_replicate⟩

theorem SurfaceFields.InRange.base_lt_limit {f : SurfaceFields} {p : Straps} {fmt : PixelFormat} (r : f.InRange p fmt) :
    (f.entry fmt).base < (f.entry fmt).limit :=
  (r.sound none).base_lt_limit

/-- R36 in the words of the statement. -/
theorem State.overlaps_iff {s : State} (hs : s.surfacesSound) {id : Fin 16} {f : Surface} (hf : f.base < f.limit) :
    s.overlaps id f = true ↔ ∃ a, f.base ≤ a ∧ a < f.limit ∧
      ((s.straps.areaBase ≤ a ∧ a < s.straps.areaBase + areaSize) ∨
        ∃ j g, j ≠ id ∧ s.surfaces.look j = some g ∧ g.base ≤ a ∧ a < g.limit) := by
  have area := rangesMeet_iff hf (Nat.lt_add_of_pos_right (by decide : 0 < areaSize) : s.straps.areaBase < _)
  have meets {j : Fin 16} {g : Surface} (hg : s.surfaces.look j = some g) :
      rangesMeet f.base f.limit g.base g.limit = true ↔ ∃ a, f.base ≤ a ∧ a < f.limit ∧ g.base ≤ a ∧ a < g.limit :=
    rangesMeet_iff hf (hs.1 j g hg).1.base_lt_limit
  unfold State.overlaps
  rw [Bool.or_eq_true, area, List.any_eq_true]
  constructor
  · rintro (⟨a, h1, h2, inside⟩ | ⟨j, -, hj⟩)
    · exact ⟨a, h1, h2, .inl inside⟩
    · split at hj
      next g hg =>
        rw [Bool.and_eq_true, decide_eq_true_eq, meets hg] at hj
        obtain ⟨other, a, h1, h2, inside⟩ := hj
        exact ⟨a, h1, h2, .inr ⟨j, g, other, hg, inside⟩⟩
      next => exact absurd hj Bool.false_ne_true
  · rintro ⟨a, h1, h2, inside | ⟨j, g, other, hg, inside⟩⟩
    · exact .inl ⟨a, h1, h2, inside⟩
    · refine .inr ⟨j, List.mem_finRange j, ?_⟩
      simp only [hg, other, ne_eq, not_false_eq_true, decide_true, Bool.true_and]
      exact (meets hg).2 ⟨a, h1, h2, inside⟩

/-- A sum over the surface ids, with one id apart. -/
theorem sum_finRange_split (id : Fin 16) (g : Fin 16 → Nat) :
    ((List.finRange 16).map g).sum = g id + (((List.finRange 16).filter (· ≠ id)).map g).sum := by
  rw [← List.sum_map_erase g (List.mem_finRange id), (List.nodup_finRange 16).erase_eq_filter]
  refine congrArg (g id + ·) (congrArg List.sum (congrArg (List.map g) (List.filter_congr fun j _ => ?_)))
  rw [Bool.eq_iff_iff, bne_iff_ne, decide_eq_true_iff]

theorem State.tilesAfter_eq (id : Fin 16) (f : Surface) (s : State) :
    s.tilesAfter id f =
      f.geometry.tileCount + (((List.finRange 16).filter (· ≠ id)).map fun j => s.tilesAt j).sum := by
  refine congrArg (f.geometry.tileCount + ·) (congrArg List.sum (List.map_congr_left fun j _ => ?_))
  unfold State.tilesAt
  cases s.surfaces.look j <;> rfl

/-- R38 in the words of the statement. -/
theorem State.mismatches_iff (id : Fin 16) (f : Surface) (s : State) :
    s.mismatches id f = true ↔ ∃ old h j g, s.surfaces.look id = some old ∧ old.owner = some h ∧ j ≠ id ∧
      j ∈ (s.heads.look h).flipSet ∧ s.surfaces.look j = some g ∧ g.geometry ≠ f.geometry := by
  unfold State.mismatches
  constructor
  · intro m
    split at m
    next => exact absurd m Bool.false_ne_true
    next old hold =>
      split at m
      next => exact absurd m Bool.false_ne_true
      next h hh =>
        obtain ⟨j, hj, unlike⟩ := List.any_eq_true.1 m
        rw [List.mem_filter, decide_eq_true_eq] at hj
        split at unlike
        next g hg => exact ⟨old, h, j, g, hold, hh, hj.2, hj.1, hg, of_decide_eq_true unlike⟩
        next => exact absurd unlike Bool.false_ne_true
  · rintro ⟨old, h, j, g, hold, hh, other, member, hg, unlike⟩
    simp only [hold, hh]
    refine List.any_eq_true.2 ⟨j, List.mem_filter.2 ⟨member, decide_eq_true other⟩, ?_⟩
    simp only [hg]
    exact decide_eq_true unlike

/-- The outcome of a SURFACE descriptor that passes R35, by the checks of the tables. -/
theorem State.checkSurface_of_checked {d : DescriptorSlot} {s : State} {id : Fin 16} {f : Surface}
    (h : d.surfaceFields.checked s.straps = some (id, f)) :
    s.checkSurface d =
      if s.overlaps id f then .overlap
      else if 98304 < s.tilesAfter id f then .capacity
      else if s.mismatches id f then .mismatch
      else .taken := by
  simp only [State.checkSurface, h]

/-- Settles O18: R36 to R38 as the model checks them are those of the statement, in this order. -/
theorem surfaceTableChecks : Obligations.SurfaceTableChecks := by
  intro d s id f hs h overlap tiles mismatch
  obtain ⟨fmt, r, -, rfl⟩ := SurfaceFields.checked_eq_some.1 h
  have meets : s.overlaps id (d.surfaceFields.entry fmt) = true ↔ overlap := State.overlaps_iff hs r.base_lt_limit
  have unlike : s.mismatches id (d.surfaceFields.entry fmt) = true ↔ mismatch := State.mismatches_iff id _ s
  have count : s.tilesAfter id (d.surfaceFields.entry fmt) = tiles := by
    rw [State.tilesAfter_eq]
    refine Eq.trans ?_ (sum_finRange_split id _).symm
    refine congrArg₂ (· + ·) (if_pos rfl).symm (congrArg List.sum (List.map_congr_left fun j hj => ?_))
    rw [if_neg (of_decide_eq_true (List.mem_filter.1 hj).2), State.tilesAt]
    cases s.surfaces.look j <;> rfl
  rw [State.checkSurface_of_checked h, count]
  refine ⟨fun o => if_pos (meets.2 o), fun o t => ?_, fun o t m => ?_, fun o t m => ?_⟩
  · rw [if_neg (mt meets.1 o), if_pos t]
  · rw [if_neg (mt meets.1 o), if_neg (Nat.not_lt.2 t), if_pos (unlike.2 m)]
  · rw [if_neg (mt meets.1 o), if_neg (Nat.not_lt.2 t), if_neg (mt unlike.1 m)]

/-! ### What a taken SURFACE descriptor does (R39, R40) -/

theorem State.takeSurface_empty {d : DescriptorSlot} {s : State} {id : Fin 16} {f : Surface}
    (h : d.surfaceFields.checked s.straps = some (id, f)) (he : s.surfaces.look id = none) :
    s.takeSurface d = s.declare id f := by
  simp only [State.takeSurface, h, he]

theorem State.takeSurface_declared {d : DescriptorSlot} {s : State} {id : Fin 16} {f old : Surface}
    (h : d.surfaceFields.checked s.straps = some (id, f)) (ho : s.surfaces.look id = some old) :
    s.takeSurface d = s.redeclare id old f := by
  simp only [State.takeSurface, h, ho]

/-- With the head table sound, the head that owns a surface has it in its flip set and is not OFF (R41). -/
theorem State.headsSound.owner {s : State} (hs : s.headsSound) {id : Fin 16} {f : Surface} {h : Fin 4}
    (hf : s.surfaces.look id = some f) (ho : f.owner = some h) :
    id ∈ (s.heads.look h).flipSet ∧ (s.heads.look h).state ≠ .off := by
  have member := hs.2 id f hf h ho
  refine ⟨member, fun off => ?_⟩
  obtain ⟨empty, -⟩ := (hs.1 h).1 off
  rw [empty] at member
  exact List.not_mem_nil member

/-- Settles O19: an EMPTY id is declared, and a DECLARED one is replaced in the steps of R40. -/
theorem surfaceDescriptorTaken : Obligations.SurfaceDescriptorTaken := by
  intro d s id f hs h t entry
  obtain ⟨fmt, -, -, rfl⟩ := SurfaceFields.checked_eq_some.1 h
  refine ⟨fun empty => State.takeSurface_empty h empty, fun old declared => ?_⟩
  have taken : t = s.redeclare id old (d.surfaceFields.entry fmt) := State.takeSurface_declared h declared
  rw [taken]
  cases ho : old.owner with
  | none =>
    rw [State.redeclare_unowned ho]
    obtain ⟨-, heads, scans, rovers, -, -, control, -⟩ := s.replaceEntry_frame id _
    exact ⟨s.replaceEntry_surfaces id _, s.replaceEntry_withdraws id _, fun _ => ⟨heads, scans, rovers, control⟩, nofun⟩
  | some q =>
    have r := State.redeclare_redeclares (s := s) (id := id) (f := d.surfaceFields.entry fmt) ho
    refine ⟨r.surfaces, r.withdraws, nofun, fun h hq => ?_⟩
    obtain rfl := Option.some.inj hq
    exact ⟨r.heads, r.scans, r.rovers, fun up => r.waits up (hs.owner declared ho).2, r.control⟩

end Sys2Proof.Machine
end

section
/-! SUPPORT. HEAD descriptors: their fields and the checks of R42. -/

namespace Sys2Proof.Machine

/-! ### The fields (R42 check 1) -/

theorem headOf_eq_some {b : Byte} {h : Fin 4} : headOf b = some h ↔ b.toNat = h.1 := by
  unfold headOf
  split
  next lt => rw [Option.some.injEq, Fin.ext_iff]
  next ge => exact ⟨nofun, fun eq => absurd (eq ▸ h.2) ge⟩

theorem headOf_eq_none {b : Byte} : headOf b = none ↔ 4 ≤ b.toNat := by
  unfold headOf
  split <;> simp <;> omega

/-- R42 check 1 on the bytes: the head is one of 0 to 3, and 1 to 3 ids are named, each one of 0 to 15. -/
structure DescriptorSlot.HeadInRange (d : DescriptorSlot) : Prop where
  head : (d.byte 4).toNat ≤ 3
  one_le : 1 ≤ (d.byte 5).toNat
  le_three : (d.byte 5).toNat ≤ 3
  ids : ∀ k, k < (d.byte 5).toNat → (d.byte (6 + k)).toNat ≤ 15

/-- The id in byte `6 + k`, when it is one of 0 to 15. -/
def DescriptorSlot.idAt (d : DescriptorSlot) (k : Nat) : Option (Fin 16) :=
  if hk : (d.byte (6 + k)).toNat < 16 then some ⟨(d.byte (6 + k)).toNat, hk⟩ else none

theorem DescriptorSlot.isSome_idAt {d : DescriptorSlot} {k : Nat} :
    (d.idAt k).isSome ↔ (d.byte (6 + k)).toNat ≤ 15 := by
  unfold idAt
  split <;> simp <;> omega

/-- The ids that bytes 6 on name are all of the `n` exactly when each is in range. -/
theorem DescriptorSlot.length_ids_iff {d : DescriptorSlot} {n : Nat} :
    ((List.range n).filterMap d.idAt).length = n ↔ ∀ k, k < n → (d.byte (6 + k)).toNat ≤ 15 := by
  have all := List.filterMap_length_eq_length (f := d.idAt) (l := List.range n)
  simp only [List.length_range, List.mem_range, isSome_idAt] at all
  exact all

theorem DescriptorSlot.map_val_ids {d : DescriptorSlot} {n : Nat} (h : ∀ k, k < n → (d.byte (6 + k)).toNat ≤ 15) :
    ((List.range n).filterMap d.idAt).map (·.1) = (List.range n).map fun k => (d.byte (6 + k)).toNat := by
  have value : ∀ k ∈ List.range n, (d.idAt k).map (·.1) = some (d.byte (6 + k)).toNat := by
    intro k hk
    have lt : (d.byte (6 + k)).toNat < 16 := Nat.lt_succ_of_le (h k (List.mem_range.1 hk))
    simp only [idAt, dif_pos lt, Option.map_some]
  rw [List.map_filterMap, List.filterMap_congr value, ← List.filterMap_eq_map]
  rfl

/-- The head and the ids of a HEAD descriptor in range. -/
theorem DescriptorSlot.headFields_of_inRange {d : DescriptorSlot} (r : d.HeadInRange) :
    ∃ h ids, d.headFields = some (h, ids) ∧ h.1 = (d.byte 4).toNat ∧
      ids.map (·.1) = (List.range (d.byte 5).toNat).map fun k => (d.byte (6 + k)).toNat := by
  have head : headOf (d.byte 4) = some ⟨(d.byte 4).toNat, Nat.lt_succ_of_le r.head⟩ := headOf_eq_some.2 rfl
  refine ⟨⟨_, Nat.lt_succ_of_le r.head⟩, (List.range (d.byte 5).toNat).filterMap d.idAt, ?_, rfl, map_val_ids r.ids⟩
  simp only [headFields, head, if_pos (And.intro r.one_le r.le_three)]
  exact if_pos (length_ids_iff.2 r.ids)

/-- A HEAD descriptor with its head and its ids is in range. -/
theorem DescriptorSlot.inRange_of_headFields {d : DescriptorSlot} {h : Fin 4} {ids : List (Fin 16)}
    (hd : d.headFields = some (h, ids)) : d.HeadInRange := by
  unfold headFields at hd
  dsimp only at hd
  split at hd
  next => exact absurd hd.symm (Option.some_ne_none _)
  next q hq =>
    split at hd
    next count =>
      split at hd
      next length =>
        have lt := q.2
        have head := headOf_eq_some.1 hq
        exact ⟨by omega, count.1, count.2, length_ids_iff.1 length⟩
      next => exact absurd hd.symm (Option.some_ne_none _)
    next => exact absurd hd.symm (Option.some_ne_none _)

/-- A HEAD descriptor names 1 to 3 ids. -/
theorem DescriptorSlot.length_of_headFields {d : DescriptorSlot} {h : Fin 4} {ids : List (Fin 16)}
    (hd : d.headFields = some (h, ids)) : 1 ≤ ids.length ∧ ids.length ≤ 3 := by
  have r := inRange_of_headFields hd
  obtain ⟨h', ids', fields, -, values⟩ := headFields_of_inRange r
  obtain ⟨-, rfl⟩ := Prod.mk.inj (Option.some.inj (hd.symm.trans fields))
  have length := congrArg List.length values
  rw [List.length_map, List.length_map, List.length_range] at length
  exact length ▸ ⟨r.one_le, r.le_three⟩

/-! ### The checks of the tables (R42 checks 2 to 5) -/

/-- R42 check 2: every id of the list is DECLARED. -/
abbrev State.declaresAll (ids : List (Fin 16)) (s : State) : Prop := ∀ id ∈ ids, s.surfaces.look id ≠ none

/-- R42 check 4: the DECLARED surfaces of the list have one geometry. -/
abbrev State.alike (ids : List (Fin 16)) (s : State) : Prop :=
  ∀ id ∈ ids, ∀ id' ∈ ids, ∀ f g, s.surfaces.look id = some f → s.surfaces.look id' = some g → f.geometry = g.geometry

/-- R42 check 5: a surface of the list is in the flip set of a head other than `h`. -/
abbrev State.usedByOther (h : Fin 4) (ids : List (Fin 16)) (s : State) : Prop :=
  ∃ id ∈ ids, ∃ q, q ≠ h ∧ id ∈ (s.heads.look q).flipSet

theorem State.mem_entriesOf {ids : List (Fin 16)} {s : State} {e : Surface} :
    e ∈ s.entriesOf ids ↔ ∃ id ∈ ids, s.surfaces.look id = some e := List.mem_filterMap

theorem State.entriesOf_length_iff {ids : List (Fin 16)} {s : State} :
    (s.entriesOf ids).length = ids.length ↔ s.declaresAll ids := by
  unfold State.entriesOf
  rw [List.filterMap_length_eq_length]
  exact forall₂_congr fun id _ => Option.isSome_iff_ne_none

theorem State.any_geometry_iff {ids : List (Fin 16)} {s : State} :
    ((s.entriesOf ids).any fun e => (s.entriesOf ids).any fun e' => decide (e.geometry ≠ e'.geometry)) = true ↔
      ¬ s.alike ids := by
  simp only [List.any_eq_true, State.mem_entriesOf, decide_eq_true_eq]
  constructor
  · rintro ⟨f, ⟨id, hid, hf⟩, g, ⟨id', hid', hg⟩, other⟩ same
    exact other (same id hid id' hid' f g hf hg)
  · intro other
    simp only [State.alike] at other
    push Not at other
    obtain ⟨id, hid, id', hid', f, g, hf, hg, ne⟩ := other
    exact ⟨f, ⟨id, hid, hf⟩, g, ⟨id', hid', hg⟩, ne⟩

/-- With the head table sound, a surface in a head's flip set is DECLARED, that head's, and of its geometry (R41). -/
theorem State.headsSound.member {s : State} (hs : s.headsSound) {id : Fin 16} {q : Fin 4}
    (hid : id ∈ (s.heads.look q).flipSet) :
    ∃ f, s.surfaces.look id = some f ∧ f.owner = some q ∧ (s.heads.look q).geometry = some f.geometry := by
  obtain ⟨off, on, -⟩ := hs.1 q
  have isOn : (s.heads.look q).state ≠ .off := fun isOff => by
    obtain ⟨empty, -⟩ := off isOff
    rw [empty] at hid
    exact List.not_mem_nil hid
  obtain ⟨-, -, -, some, all⟩ := on isOn
  obtain ⟨g, hg⟩ := Option.ne_none_iff_exists'.1 some
  obtain ⟨declared, owned⟩ := (all g hg).2 id hid
  obtain ⟨f, hf⟩ := Option.ne_none_iff_exists'.1 declared
  obtain ⟨owner, geometry⟩ := owned f hf
  exact ⟨f, hf, owner, hg.trans (congrArg Option.some geometry.symm)⟩

/-- What the table says of a surface in a head's flip set. -/
theorem State.headsSound.of_member {s : State} (hs : s.headsSound) {id : Fin 16} {q : Fin 4} {f : Surface}
    (hid : id ∈ (s.heads.look q).flipSet) (hf : s.surfaces.look id = some f) :
    f.owner = some q ∧ (s.heads.look q).geometry = some f.geometry := by
  obtain ⟨g, hg, owner, geometry⟩ := hs.member hid
  obtain rfl := Option.some.inj (hf.symm.trans hg)
  exact ⟨owner, geometry⟩

/-- No surface is in the flip sets of two heads (R41). -/
theorem State.headsSound.flipSet_inj {s : State} (hs : s.headsSound) {id : Fin 16} {q q' : Fin 4}
    (hid : id ∈ (s.heads.look q).flipSet) (hid' : id ∈ (s.heads.look q').flipSet) : q = q' := by
  obtain ⟨f, hf, owner, -⟩ := hs.member hid
  obtain ⟨owner', -⟩ := hs.of_member hid' hf
  exact Option.some.inj (owner.symm.trans owner')

/-- What is in head `h`'s flip set is in no other head's. -/
theorem State.headsSound.not_usedByOther {s : State} (hs : s.headsSound) (h : Fin 4) :
    ¬ s.usedByOther h (s.heads.look h).flipSet :=
  fun ⟨_, mem, _, other, mem'⟩ => other (hs.flipSet_inj mem' mem)

theorem State.any_owner_iff {s : State} (hs : s.headsSound) {ids : List (Fin 16)} {h : Fin 4} :
    ((s.entriesOf ids).any fun e => decide (e.owner ≠ none ∧ e.owner ≠ some h)) = true ↔ s.usedByOther h ids := by
  simp only [List.any_eq_true, State.mem_entriesOf, decide_eq_true_eq]
  constructor
  · rintro ⟨f, ⟨id, hid, hf⟩, owned, other⟩
    obtain ⟨q, hq⟩ := Option.ne_none_iff_exists'.1 owned
    exact ⟨id, hid, q, fun same => other (same ▸ hq), (hs.owner hf hq).1⟩
  · rintro ⟨id, hid, q, other, member⟩
    obtain ⟨f, hf, owner, -⟩ := hs.member member
    exact ⟨f, ⟨id, hid, hf⟩, owner ▸ Option.some_ne_none q, fun same => other (Option.some.inj (owner.symm.trans same))⟩

/-- The checks of R42 in their order. -/
theorem State.checkHead_eq {s : State} {d : DescriptorSlot} {h : Fin 4} {ids : List (Fin 16)} (hs : s.headsSound)
    (hd : d.headFields = some (h, ids)) (_ : Decidable (s.usedByOther h ids)) (_ : Decidable (s.alike ids)) :
    s.checkHead d =
      if ¬ s.declaresAll ids then .noSurface
      else if ¬ ids.Nodup then .badValue
      else if ¬ s.alike ids then .mismatch
      else if s.usedByOther h ids then .inUse else .taken := by
  unfold State.checkHead
  simp only [hd, ne_eq, State.entriesOf_length_iff, ← State.any_geometry_iff, ← State.any_owner_iff hs]

/-- Settles O20: the checks of R42 in their order. -/
theorem headDescriptorChecks : Obligations.HeadDescriptorChecks := by
  intro d s hs n named inRange
  have range : inRange ↔ d.HeadInRange :=
    ⟨fun ⟨a, b, c, e⟩ => ⟨a, b, c, e⟩, fun r => ⟨r.head, r.one_le, r.le_three, r.ids⟩⟩
  refine ⟨fun out => ?_, fun r => ?_⟩
  · cases hd : d.headFields with
    | none => simp only [State.checkHead, hd]
    | some f => exact absurd (range.2 (DescriptorSlot.inRange_of_headFields hd)) out
  · obtain ⟨h, ids, hd, head, values⟩ := DescriptorSlot.headFields_of_inRange (range.1 r)
    refine ⟨h, ids, hd, head, values, ?_⟩
    intro declared alike inUse
    have check := State.checkHead_eq hs hd (Classical.dec _) (Classical.dec _)
    refine ⟨fun no => ?_, fun yes no => ?_, fun yes nodup no => ?_, fun yes nodup same used => ?_,
      fun yes nodup same free => ?_⟩
    · rw [check, if_pos no]
    · rw [check, if_neg (not_not.2 yes), if_pos no]
    · rw [check, if_neg (not_not.2 yes), if_neg (not_not.2 nodup), if_pos no]
    · rw [check, if_neg (not_not.2 yes), if_neg (not_not.2 nodup), if_neg (not_not.2 same), if_pos used]
    · rw [check, if_neg (not_not.2 yes), if_neg (not_not.2 nodup), if_neg (not_not.2 same), if_neg free]

/-- A HEAD descriptor that passes every check names DECLARED surfaces of one geometry, each once and none of another
head's flip set. -/
theorem State.checkHead_taken {s : State} {d : DescriptorSlot} {h : Fin 4} {ids : List (Fin 16)} (hs : s.headsSound)
    (hd : d.headFields = some (h, ids)) (taken : s.checkHead d = .taken) :
    s.declaresAll ids ∧ ids.Nodup ∧ s.alike ids ∧ ¬ s.usedByOther h ids := by
  rw [State.checkHead_eq hs hd (Classical.dec _) (Classical.dec _)] at taken
  split at taken
  next => exact absurd taken (by decide)
  next declared =>
    split at taken
    next => exact absurd taken (by decide)
    next nodup =>
      split at taken
      next => exact absurd taken (by decide)
      next alike =>
        split at taken
        next => exact absurd taken (by decide)
        next free => exact ⟨not_not.1 declared, not_not.1 nodup, not_not.1 alike, free⟩

end Sys2Proof.Machine
end

section
/-! SUPPORT. What a taken HEAD descriptor (R43) and a taken WITHDRAW HEAD descriptor (R45) leave. -/

namespace Sys2Proof.Machine

/-! ### The flip set given up (R43 step 1, R45) -/

/-- The records of the surfaces of a list withdrawn, and none of them any head's. -/
def State.disown (ids : List (Fin 16)) (s : State) : State := (s.withdrawFlipSet ids).setOwners ids none

@[simp] theorem State.disown_frame (ids : List (Fin 16)) (s : State) :
    (s.disown ids).straps = s.straps ∧ (s.disown ids).heads = s.heads ∧ (s.disown ids).scans = s.scans ∧
    (s.disown ids).rovers = s.rovers ∧ (s.disown ids).budget.now = s.budget.now ∧
    (s.disown ids).link.state = s.link.state ∧ (s.disown ids).link.current = s.link.current := by
  simp [State.disown]

theorem State.disown_look_of_notMem {ids : List (Fin 16)} {id : Fin 16} (h : id ∉ ids) (s : State) :
    (s.disown ids).surfaces.look id = s.surfaces.look id := by
  rw [State.disown, State.setOwners_look, if_neg h]
  exact State.withdrawWhere_look_of_unnamed
    (fun r named same => h (same.subst (motive := (· ∈ ids)) (List.contains_iff_mem.1 named))) s

/-- A surface given up is as it was but for its marks, and no head's. -/
theorem State.disown_unmarked {ids : List (Fin 16)} {id : Fin 16} (h : id ∈ ids) (s : State) :
    ((s.disown ids).surfaces.look id).map Surface.unmarked =
      (s.surfaces.look id).map fun f => { f.unmarked with owner := none } := by
  have marks := congrArg (Option.map fun f : Surface => { f with owner := none })
    (s.onlyMarks_withdrawWhere (fun r => ids.contains r.surface) id)
  simp only [Option.map_map] at marks
  rw [State.disown, State.setOwners_look, if_pos h, Option.map_map]
  exact marks

theorem State.disown_some {ids : List (Fin 16)} {id : Fin 16} {f : Surface} (h : id ∈ ids) {s : State}
    (hf : s.surfaces.look id = some f) : ∃ l, (s.disown ids).surfaces.look id = some { f with owner := none, stale := l } := by
  have same := State.disown_unmarked h s
  rw [hf, Option.map_some, Option.map_eq_some_iff] at same
  obtain ⟨g, hg, e⟩ := same
  refine ⟨g.stale, hg.trans (congrArg some ?_)⟩
  obtain ⟨base, pitch, geometry, owner, stale⟩ := g
  simp only [Surface.unmarked, Surface.mk.injEq] at e ⊢
  obtain ⟨rfl, rfl, rfl, rfl, -⟩ := e
  exact ⟨rfl, rfl, rfl, rfl, trivial⟩

theorem State.disown_withdraws (ids : List (Fin 16)) (s : State) :
    s.withdraws (fun r => ids.contains r.surface) (s.disown ids) :=
  State.withdraws_of_after (State.withdrawWhere_withdraws _ s) (by simp [State.disown, State.withdrawFlipSet])
    (by simp [State.disown, State.withdrawFlipSet]) (fun _ => by simp [State.disown, State.withdrawFlipSet])
    (by simp [State.disown, State.withdrawFlipSet]) (by simp [State.disown, State.withdrawFlipSet])

theorem State.disown_share (ids : List (Fin 16)) (s : State) (h : Fin 4) :
    ((s.disown ids).budget.heads.look h).share = (s.budget.heads.look h).share := by
  rw [show (s.disown ids).budget = (s.withdrawFlipSet ids).budget by simp [State.disown]]
  exact (s.withdrawFlipSet_keeps ids).shares h

/-- A change of owners marks no tile. -/
theorem State.isStale_setOwners (ids : List (Fin 16)) (o : Option (Fin 4)) (s : State) (id : Fin 16) (c w : Nat) :
    (s.setOwners ids o).isStale id c w = s.isStale id c w := by
  unfold State.isStale
  rw [State.setOwners_look]
  by_cases h : id ∈ ids
  · rw [if_pos h]
    cases s.surfaces.look id <;> rfl
  · rw [if_neg h]

/-- The marks of surface `id` are read from its entry. -/
theorem State.marksOf_of_look {s t u : State} {p : Record → Prop} {id : Fin 16} (h : s.marksOf p id t)
    (hu : u.surfaces.look id = t.surfaces.look id) : s.marksOf p id u := by
  have same : ∀ c w, u.isStale id c w = t.isStale id c w := fun c w => by
    unfold State.isStale
    rw [hu]
  unfold State.marksOf at *
  simpa only [same] using h

theorem State.disown_marksOf (ids : List (Fin 16)) (s : State) (id : Fin 16) :
    s.marksOf (fun r => ids.contains r.surface = true ∧ r.releasedAtOnce = true) id (s.disown ids) := by
  have marks := State.withdrawWhere_marksOf (fun r => ids.contains r.surface) s id
  unfold State.marksOf State.disown State.withdrawFlipSet at *
  simpa only [State.isStale_setOwners] using marks

/-- Of a surface given up, every record released at once marks its tile. -/
theorem State.disown_marksOf_mem {ids : List (Fin 16)} {id : Fin 16} (h : id ∈ ids) (s : State) :
    s.marksOf (fun r => r.releasedAtOnce = true) id (s.disown ids) := by
  intro f hf hl c w hg
  refine (s.disown_marksOf ids id f hf hl c w hg).trans (or_congr Iff.rfl ?_)
  refine exists_congr fun i => exists_congr fun r => and_congr_right fun _ => ?_
  constructor
  · rintro ⟨⟨-, released⟩, at_⟩
    exact ⟨released, at_⟩
  · rintro ⟨released, rfl, at_⟩
    exact ⟨⟨List.contains_iff_mem.2 h, released⟩, rfl, at_⟩

/-! ### The budget of a head that comes or goes (R122 to R124, R129) -/

/-- The head's budget cleared and the shares recomputed, when `fresh`; a recomputation is requested. -/
def State.rebudget (h : Fin 4) (fresh : Bool) (s : State) : State :=
  (if fresh then (s.updBudget h HeadBudget.cleared).recomputeShares else s).requestRecompute

@[simp] theorem State.rebudget_frame (h : Fin 4) (fresh : Bool) (s : State) :
    (s.rebudget h fresh).straps = s.straps ∧ (s.rebudget h fresh).surfaces = s.surfaces ∧
    (s.rebudget h fresh).heads = s.heads ∧ (s.rebudget h fresh).scans = s.scans ∧
    (s.rebudget h fresh).slots = s.slots ∧ (s.rebudget h fresh).rovers = s.rovers ∧
    (s.rebudget h fresh).encodeQueue = s.encodeQueue ∧ (s.rebudget h fresh).link = s.link ∧
    (s.rebudget h fresh).counters = s.counters ∧ (s.rebudget h fresh).budget.recompute = true := by
  cases fresh <;> exact ⟨rfl, rfl, rfl, rfl, rfl, rfl, rfl, rfl, rfl, rfl⟩

theorem State.rebudget_deferred (h : Fin 4) (fresh : Bool) (s : State) (q : Fin 4) :
    ((s.rebudget h fresh).budget.heads.look q).deferred = (s.budget.heads.look q).deferred := by
  cases fresh with
  | false => rfl
  | true =>
    refine (congrArg HeadBudget.deferred (Table.look_tab _ q)).trans ?_
    change ((s.updBudget h HeadBudget.cleared).budget.heads.look q).deferred = _
    rw [State.updBudget_heads, Table.look_upd]
    by_cases hq : q = h
    · rw [if_pos hq, hq]
      rfl
    · rw [if_neg hq]

/-- The budget of a head that comes or goes: nothing is left of what it had, and the shares are those of the heads
there now. -/
theorem State.rebudget_fresh (h : Fin 4) (s : State) :
    ((s.rebudget h true).budget.heads.look h).credit = 0 ∧ ((s.rebudget h true).budget.heads.look h).demand = 0 ∧
    ((s.rebudget h true).budget.heads.look h).accumulator = 0 ∧ (s.rebudget h true).sharesSpendTheBudget := by
  have cleared : (s.updBudget h HeadBudget.cleared).budget.heads.look h = (s.budget.heads.look h).cleared :=
    Table.look_upd_self ..
  have entry : (s.rebudget h true).budget.heads.look h =
      (s.budget.heads.look h).cleared.withShare ((s.updBudget h HeadBudget.cleared).newShare h) :=
    (Table.look_tab _ h).trans (congrArg (HeadBudget.withShare · _) cleared)
  refine ⟨?_, ?_, ?_, (s.updBudget h HeadBudget.cleared).recomputeShares_spends⟩
  · rw [entry]
    exact Nat.zero_min _
  · rw [entry]
    rfl
  · rw [entry]
    rfl

/-- The same records are withdrawn, whatever HEAD frame is offered and whatever budget is cleared. -/
theorem State.withdraws_offer_rebudget {s t : State} {p : Record → Bool} (w : s.withdraws p t) (h : Fin 4)
    (fresh : Bool) : s.withdraws p ((t.offerHead h).rebudget h fresh) :=
  State.withdraws_of_after w (by simp) (by simp) (fun q => by rw [State.rebudget_deferred]; simp) (by simp)
    (by simp [State.offerHead_capturesAbandoned])

end Sys2Proof.Machine
end

section
/-! SUPPORT. The head table after one head changes, a taken HEAD descriptor (R43), and withdrawals (R44, R45). -/

namespace Sys2Proof.Machine

/-! ### One head of a sound table changed -/

/-- A sound head table stays sound when one head takes surfaces that are no other head's, and gives up its own. -/
theorem State.headsSound.put {s t : State} {h : Fin 4} {d : Head} (hs : s.headsSound)
    (heads : t.heads = s.heads.put h d) (off : d.state = .off → d.offSound) (on : d.state ≠ .off → t.onSound h)
    (shown : d.shownSound) (unused : ¬ s.usedByOther h d.flipSet)
    (others : ∀ id, id ∉ d.flipSet → id ∉ (s.heads.look h).flipSet → t.surfaces.look id = s.surfaces.look id)
    (own : ∀ id f, t.surfaces.look id = some f → id ∈ d.flipSet → f.owner = some h)
    (free : ∀ id f, t.surfaces.look id = some f → id ∉ d.flipSet → id ∈ (s.heads.look h).flipSet → f.owner = none) :
    t.headsSound := by
  have changed : t.heads.look h = d := heads ▸ Table.look_put_self ..
  have kept : ∀ {q}, q ≠ h → t.heads.look q = s.heads.look q := fun hq => heads ▸ Table.look_put_ne _ hq _
  have unmoved : ∀ {q id}, q ≠ h → id ∈ (s.heads.look q).flipSet → t.surfaces.look id = s.surfaces.look id := by
    intro q id hq hid
    exact others id (fun mem => unused ⟨id, mem, q, hq, hid⟩) (fun mem => hq (hs.flipSet_inj hid mem))
  refine ⟨fun q => ?_, fun id f hf q hq => ?_⟩
  · by_cases hq : q = h
    · subst hq
      exact changed.symm ▸ ⟨off, changed ▸ on, shown⟩
    · obtain ⟨offQ, onQ, shownQ⟩ := hs.1 q
      rw [kept hq]
      refine ⟨offQ, fun isOn => ?_, shownQ⟩
      obtain ⟨ne, le, nodup, some, all⟩ := onQ isOn
      unfold State.onSound
      rw [kept hq]
      refine ⟨ne, le, nodup, some, fun g hg => ⟨(all g hg).1, fun id hid => ?_⟩⟩
      rw [unmoved hq hid]
      exact (all g hg).2 id hid
  · by_cases mem : id ∈ d.flipSet
    · obtain rfl := Option.some.inj ((own id f hf mem).symm.trans hq)
      exact changed.symm ▸ mem
    · have notOld : id ∉ (s.heads.look h).flipSet := fun old =>
        absurd ((free id f hf mem old).symm.trans hq) (Option.some_ne_none q).symm
      have member := hs.2 id f (others id mem notOld ▸ hf) q hq
      have hqh : q ≠ h := fun same => notOld (same ▸ member)
      exact (kept hqh).symm ▸ member

/-! ### A head defined (R43) -/

/-- R43 from step 2 to the quality map: the surfaces of `ids` are head `h`'s and wholly stale, the head waits on them,
its follower seeks and its rover is 0. -/
def State.enlist (h : Fin 4) (ids : List (Fin 16)) (s : State) : State :=
  let s := s.setOwners ids (some h)
  let g := ((s.entriesOf ids).head?).map (·.geometry)
  let s := s.updHead h fun d => { d with flipSet := ids, geometry := g }
  let s := s.updHead h fun d => { d with state := .waiting, shown := none }
  let s := (s.updScan h Scan.defined).restartStall h
  ({ s with rovers := s.rovers.put h 0 }.markEach ids).updHead h Head.allExact

theorem State.defineHead_eq (h : Fin 4) (ids : List (Fin 16)) (s : State) :
    s.defineHead h ids = (((s.disown (s.heads.look h).flipSet).enlist h ids).offerHead h).rebudget h
      (decide ((s.heads.look h).state = .off)) := rfl

@[simp] theorem State.enlist_frame (h : Fin 4) (ids : List (Fin 16)) (s : State) :
    (s.enlist h ids).straps = s.straps ∧ (s.enlist h ids).slots = s.slots ∧
    (s.enlist h ids).encodeQueue = s.encodeQueue ∧ (s.enlist h ids).budget = s.budget ∧
    (s.enlist h ids).link = s.link ∧ (s.enlist h ids).counters = s.counters ∧
    (s.enlist h ids).rovers = s.rovers.put h 0 := by
  simp [State.enlist]

theorem State.enlist_scans (h : Fin 4) (ids : List (Fin 16)) (s : State) :
    (s.enlist h ids).scans = s.scans.put h
      { mode := .seek, cursor := 0, lastStart := none, period := 0, frameCount := 0, stall := some (s.after 200000) } := by
  simp only [State.enlist, State.restartStall, State.updScan, State.updHead, Table.upd, State.markEach_frame,
    State.setOwners_frame, Table.put_put, Table.look_put_self, State.after]
  rfl

/-- The surfaces of a list are `h`'s, wholly stale; the rest are as they were. -/
theorem State.enlist_look (h : Fin 4) (ids : List (Fin 16)) (s : State) (id : Fin 16) :
    (s.enlist h ids).surfaces.look id = if id ∈ ids then
      (s.surfaces.look id).map fun f => { f with owner := some h }.markWhole else s.surfaces.look id := by
  simp only [State.enlist, State.updHead_frame, State.markEach_look, State.restartStall_frame, State.updScan_frame,
    State.setOwners_look]
  split
  next => rw [Option.map_map]; rfl
  next => rfl

/-- The head over surfaces of one geometry. -/
theorem State.enlist_heads {h : Fin 4} {ids : List (Fin 16)} {s : State} {g : Geometry} (ne : ids ≠ [])
    (all : ∀ id ∈ ids, ∃ f, s.surfaces.look id = some f ∧ f.geometry = g) :
    (s.enlist h ids).heads = s.heads.put h
      { state := .waiting, flipSet := ids, shown := none, geometry := some g,
        quality := List.replicate g.tileCount .exact } := by
  have first : (((s.setOwners ids (some h)).entriesOf ids).head?).map (·.geometry) = some g := by
    obtain ⟨id, rest, rfl⟩ := List.exists_cons_of_ne_nil ne
    obtain ⟨f, hf, hg⟩ := all id List.mem_cons_self
    have entry : (s.setOwners (id :: rest) (some h)).surfaces.look id = some { f with owner := some h } := by
      rw [State.setOwners_look, if_pos List.mem_cons_self, hf]
      rfl
    rw [State.entriesOf, List.filterMap_cons_some entry, List.head?_cons, Option.map_some, hg]
  simp only [State.enlist, first, State.updHead_heads, State.markEach_frame, State.restartStall_frame,
    State.updScan_frame, State.setOwners_frame, Table.upd, Table.put_put, Table.look_put_self]
  rfl

/-- The state after a taken HEAD descriptor (R43). -/
structure State.Defines (h : Fin 4) (ids : List (Fin 16)) (g : Geometry) (s t : State) : Prop where
  straps : t.straps = s.straps
  current : t.link.current = s.link.current
  heads : t.heads = s.heads.put h
    { state := .waiting, flipSet := ids, shown := none, geometry := some g,
      quality := List.replicate g.tileCount .exact }
  scans : t.scans = s.scans.put h
    { mode := .seek, cursor := 0, lastStart := none, period := 0, frameCount := 0
      stall := some (s.budget.now + 200000) }
  rovers : t.rovers = s.rovers.put h 0
  taken : ∀ id ∈ ids, ∃ f, s.surfaces.look id = some f ∧ f.geometry = g ∧
    t.surfaces.look id = some { f with owner := some h, stale := List.replicate g.tileCount true }
  rest : ∀ id, id ∉ ids → t.surfaces.look id = (s.disown (s.heads.look h).flipSet).surfaces.look id
  waits : s.link.state = .up → t.headFrameWaits h
    { head := h, state := .waiting, flipSet := ids, geometry := some g, period := 0 }
  withdraws : s.withdraws (fun r => (s.heads.look h).flipSet.contains r.surface) t
  recompute : t.budget.recompute = true
  fresh : (s.heads.look h).state = .off → (t.budget.heads.look h).credit = 0 ∧
    (t.budget.heads.look h).demand = 0 ∧ (t.budget.heads.look h).accumulator = 0 ∧ t.sharesSpendTheBudget
  shares : (s.heads.look h).state ≠ .off → ∀ q,
    (t.budget.heads.look q).share = (s.budget.heads.look q).share

theorem State.exists_geometry {ids : List (Fin 16)} {s : State} (ne : ids ≠ []) (declared : s.declaresAll ids)
    (alike : s.alike ids) : ∃ g, ∀ id ∈ ids, ∃ f, s.surfaces.look id = some f ∧ f.geometry = g := by
  obtain ⟨first, hfirst⟩ := List.exists_mem_of_ne_nil ids ne
  obtain ⟨f, hf⟩ := Option.ne_none_iff_exists'.1 (declared first hfirst)
  refine ⟨f.geometry, fun id hid => ?_⟩
  obtain ⟨f', hf'⟩ := Option.ne_none_iff_exists'.1 (declared id hid)
  exact ⟨f', hf', alike id hid first hfirst f' f hf' hf⟩

theorem State.disown_geometry {old : List (Fin 16)} {s : State} {id : Fin 16} {f : Surface}
    (hf : s.surfaces.look id = some f) :
    ∃ o l, (s.disown old).surfaces.look id = some { f with owner := o, stale := l } := by
  by_cases mem : id ∈ old
  · obtain ⟨l, hl⟩ := State.disown_some mem hf
    exact ⟨none, l, hl⟩
  · exact ⟨f.owner, f.stale, (State.disown_look_of_notMem mem s).trans hf⟩

theorem State.defineHead_defines {h : Fin 4} {ids : List (Fin 16)} {s : State} {g : Geometry} (ne : ids ≠ [])
    (all : ∀ id ∈ ids, ∃ f, s.surfaces.look id = some f ∧ f.geometry = g) : s.Defines h ids g (s.defineHead h ids) := by
  rw [State.defineHead_eq]
  have frame := s.disown_frame (s.heads.look h).flipSet
  have withdraws := s.disown_withdraws (s.heads.look h).flipSet
  have shares := s.disown_share (s.heads.look h).flipSet
  have entries : ∀ id ∈ ids, ∃ f, s.surfaces.look id = some f ∧ f.geometry = g ∧
      ∃ o l, (s.disown (s.heads.look h).flipSet).surfaces.look id = some { f with owner := o, stale := l } := by
    intro id hid
    obtain ⟨f, hf, hg⟩ := all id hid
    exact ⟨f, hf, hg, State.disown_geometry hf⟩
  have rest : ∀ id, id ∉ ids → (((s.disown (s.heads.look h).flipSet).enlist h ids).surfaces.look id) =
      (s.disown (s.heads.look h).flipSet).surfaces.look id := fun id hid => by rw [State.enlist_look, if_neg hid]
  revert frame withdraws shares entries rest
  generalize hw : s.disown (s.heads.look h).flipSet = w
  rintro ⟨straps, heads, scans, rovers, now, state, current⟩ withdraws shares entries rest
  have alike : ∀ id ∈ ids, ∃ f, w.surfaces.look id = some f ∧ f.geometry = g := by
    intro id hid
    obtain ⟨f, -, hg, o, l, hf⟩ := entries id hid
    exact ⟨_, hf, hg⟩
  have defined := State.enlist_heads (h := h) ne alike
  have scanned := w.enlist_scans h ids
  refine
    { straps := by simp [straps]
      current := by simp [current]
      heads := by simp [defined, heads]
      scans := by simp [scanned, scans, State.after, now]
      rovers := by simp [rovers]
      taken := ?_
      rest := fun id hid => ?_
      waits := fun up => ?_
      withdraws := ?_
      recompute := by simp
      fresh := fun off => ?_
      shares := fun on q => ?_ }
  · intro id hid
    obtain ⟨f, hf, hg, o, l, hw⟩ := entries id hid
    refine ⟨f, hf, hg, ?_⟩
    simp only [State.rebudget_frame, State.offerHead_frame, State.enlist_look, if_pos hid, hw, Option.map_some]
    rw [← hg]
    rfl
  · rw [hw]
    simpa using rest id hid
  · have head : (w.enlist h ids).heads.look h =
        { state := .waiting, flipSet := ids, shown := none, geometry := some g,
          quality := List.replicate g.tileCount .exact } := by
      rw [defined, Table.look_put_self]
    have period : ((w.enlist h ids).scans.look h).period = 0 := by
      rw [scanned, Table.look_put_self]
    exact State.headFrameWaits_of_control (by simp)
      (State.offerHead_waits_on (by simp [state, up]) head period nofun)
  · exact State.withdraws_offer_rebudget (State.withdraws_of_after withdraws (by simp) (by simp) (fun _ => by simp)
      (by simp) (by simp)) h _
  · rw [decide_eq_true off]
    exact State.rebudget_fresh h _
  · rw [decide_eq_false on, ← shares q]
    change (((w.enlist h ids).offerHead h).budget.heads.look q).share = _
    simp

/-- A head defined by a descriptor that passes the checks of R42. -/
theorem State.takeHead_defines {s : State} {d : DescriptorSlot} {h : Fin 4} {ids : List (Fin 16)} (hs : s.headsSound)
    (hd : d.headFields = some (h, ids)) (taken : s.checkHead d = .taken) :
    ∃ g, s.Defines h ids g (s.takeHead d) := by
  obtain ⟨declared, -, alike, -⟩ := State.checkHead_taken hs hd taken
  have ne : ids ≠ [] := List.length_pos_iff.1 (DescriptorSlot.length_of_headFields hd).1
  obtain ⟨g, all⟩ := State.exists_geometry ne declared alike
  refine ⟨g, ?_⟩
  rw [show s.takeHead d = s.defineHead h ids by simp only [State.takeHead, hd]]
  exact State.defineHead_defines ne all

/-- Settles O21: what R43 leaves of the head, its surfaces and those it gives up. -/
theorem headDescriptorTaken : Obligations.HeadDescriptorTaken := by
  intro d s h ids hs hd taken t old
  obtain ⟨g, def_⟩ := State.takeHead_defines hs hd taken
  refine ⟨⟨g, ?_, def_.taken, def_.waits⟩, def_.withdraws, fun q hq => ?_, fun id f out mem hf => ?_,
    fun id out notOld => ?_, ?_, ?_, def_.recompute, def_.fresh⟩
  · rw [def_.heads, Table.look_put_self]
  · rw [def_.heads, def_.scans]
    exact ⟨Table.look_put_ne _ hq _, Table.look_put_ne _ hq _⟩
  · obtain ⟨l, hl⟩ := State.disown_some mem hf
    exact ⟨⟨l, (def_.rest id out).trans hl⟩, State.marksOf_of_look (State.disown_marksOf_mem mem s) (def_.rest id out)⟩
  · exact (def_.rest id out).trans (State.disown_look_of_notMem notOld s)
  · rw [def_.scans, Table.look_put_self]
  · rw [def_.rovers, Table.look_put_self]

/-! ### Withdrawals (R44, R45) -/

/-- R45 to the HEAD frame, once the flip set is given up: the head is OFF, and has no follower. -/
def State.vacate (h : Fin 4) (s : State) : State := (s.updHead h fun _ => Head.reset).updScan h Scan.removed

theorem State.removeHead_eq (h : Fin 4) (s : State) :
    s.removeHead h = (((s.disown (s.heads.look h).flipSet).vacate h).offerHead h).rebudget h true := rfl

@[simp] theorem State.vacate_frame (h : Fin 4) (s : State) :
    (s.vacate h).straps = s.straps ∧ (s.vacate h).surfaces = s.surfaces ∧ (s.vacate h).slots = s.slots ∧
    (s.vacate h).encodeQueue = s.encodeQueue ∧ (s.vacate h).budget = s.budget ∧ (s.vacate h).link = s.link ∧
    (s.vacate h).counters = s.counters ∧ (s.vacate h).heads = s.heads.put h Head.reset ∧
    (s.vacate h).scans = s.scans.put h (s.scans.look h).removed := ⟨rfl, rfl, rfl, rfl, rfl, rfl, rfl, rfl, rfl⟩

/-- The state after a taken WITHDRAW HEAD descriptor for a head that is not OFF (R45). -/
structure State.Removes (h : Fin 4) (s t : State) : Prop where
  straps : t.straps = s.straps
  heads : t.heads = s.heads.put h Head.reset
  scans : t.scans = s.scans.put h (s.scans.look h).removed
  surfaces : t.surfaces = (s.disown (s.heads.look h).flipSet).surfaces
  withdraws : s.withdraws (fun r => (s.heads.look h).flipSet.contains r.surface) t
  waits : s.link.state = .up → t.headFrameWaits h
    { head := h, state := .off, flipSet := [], geometry := none, period := 0 }
  credit : (t.budget.heads.look h).credit = 0
  spends : t.sharesSpendTheBudget
  recompute : t.budget.recompute = true

theorem State.removeHead_removes (h : Fin 4) (s : State) : s.Removes h (s.removeHead h) := by
  rw [State.removeHead_eq]
  have frame := s.disown_frame (s.heads.look h).flipSet
  have withdraws := s.disown_withdraws (s.heads.look h).flipSet
  revert frame withdraws
  generalize hw : s.disown (s.heads.look h).flipSet = w
  rintro ⟨straps, heads, scans, rovers, now, state, current⟩ withdraws
  obtain ⟨credit, -, -, spends⟩ := State.rebudget_fresh h ((w.vacate h).offerHead h)
  refine
    { straps := by simp [straps]
      heads := by simp [heads]
      scans := by simp [scans]
      surfaces := by simp [hw]
      withdraws := State.withdraws_offer_rebudget (State.withdraws_of_after withdraws (by simp) (by simp)
        (fun _ => by simp) (by simp) (by simp)) h _
      waits := fun up => ?_
      credit := credit
      spends := spends
      recompute := by simp }
  have frame : (w.vacate h).headFrame h = { head := h, state := .off, flipSet := [], geometry := none, period := 0 } := by
    simp [State.headFrame, Head.reset]
  exact frame ▸ State.headFrameWaits_of_control (by simp)
    (State.offerHead_waits (s := w.vacate h) h (by simp [state, up]))

/-- With the head gone no share is left to it. -/
theorem State.Removes.share {s t : State} {h : Fin 4} (r : s.Removes h t) : (t.budget.heads.look h).share = 0 := by
  refine r.spends.1 h ?_
  rw [State.isOn, r.heads, Table.look_put_self]
  rfl

theorem DescriptorSlot.surfaceId_eq_none {d : DescriptorSlot} (h : 16 ≤ (d.byte 4).toNat) : d.surfaceId = none :=
  dif_neg (Nat.not_lt.2 h)

theorem DescriptorSlot.surfaceId_eq_some {d : DescriptorSlot} {id : Fin 16} (h : (d.byte 4).toNat = id.1) :
    d.surfaceId = some id := by
  rw [surfaceId, dif_pos (h ▸ id.2)]
  exact congrArg some (Fin.ext h)

/-- Settles O22: the checks and the effects of R44 and R45. -/
theorem withdrawalsTaken : Obligations.WithdrawalsTaken := by
  refine ⟨fun d s => ⟨fun out => ?_, fun id hid => ?_⟩, fun d s => ⟨fun out => ?_, fun h hh => ?_⟩⟩
  · simp only [State.checkWithdrawSurface, DescriptorSlot.surfaceId_eq_none out]
  · have named := DescriptorSlot.surfaceId_eq_some hid
    refine ⟨fun empty => ?_, fun f hf => ⟨fun owned => ?_, fun free => ?_⟩, ?_⟩
    · simp only [State.checkWithdrawSurface, named, empty]
    · simp only [State.checkWithdrawSurface, named, hf, if_pos owned]
    · simp only [State.checkWithdrawSurface, named, hf, if_neg (not_not.2 free)]
    · simp only [State.takeWithdrawSurface, named]
  · simp only [checkWithdrawHead, headOf_eq_none.2 out]
  · have named := headOf_eq_some.2 hh
    refine ⟨by simp only [checkWithdrawHead, named], fun off => ?_, fun on => ?_⟩
    · simp only [State.takeWithdrawHead, named, State.isOn, off]
      rfl
    · intro t set
      have removes : s.Removes h t := by
        have taken : t = s.removeHead h := by
          simp only [t, State.takeWithdrawHead, named, State.isOn, decide_eq_true on, if_true]
        exact taken ▸ s.removeHead_removes h
      have look : ∀ id, t.surfaces.look id = (s.disown set).surfaces.look id := fun id => by rw [removes.surfaces]
      refine ⟨removes.heads, removes.withdraws, fun id mem f hf => ?_, fun id mem => ?_, fun id out => ?_, fun id => ?_,
        ?_, ?_, ?_, removes.waits, removes.credit, removes.share, removes.spends, removes.recompute⟩
      · have unmarked := State.disown_unmarked mem s
        rw [← look, hf, Option.map_some, eq_comm, Option.map_eq_some_iff] at unmarked
        obtain ⟨g, -, e⟩ := unmarked
        exact (congrArg Surface.owner e).symm
      · rw [look]
        exact State.disown_unmarked mem s
      · rw [look]
        exact State.disown_look_of_notMem out s
      · exact State.marksOf_of_look (s.disown_marksOf set id) (look id)
      · rw [removes.scans, Table.look_put_self]; rfl
      · rw [removes.scans, Table.look_put_self]; rfl
      · rw [removes.scans, Table.look_put_self]; rfl

end Sys2Proof.Machine
end

section
/-! SUPPORT. What the operations that change the tables uphold: the soundness of the surface table and of the head table,
the followers' modes and the shares. -/

namespace Sys2Proof.Machine

/-! ### The sentences upheld -/

/-- From `s` to `t` the tables stay sound. -/
structure State.UpholdsTables (s t : State) : Prop where
  surfaces : s.surfacesSound → t.surfacesSound
  heads : s.headsSound → t.headsSound
  tracking : s.trackingIsShowing → t.trackingIsShowing

/-- From `s` to `t` the tables stay sound and, over a sound head table, the shares spend the budget. -/
structure State.Upholds (s t : State) : Prop extends s.UpholdsTables t where
  shares : s.headsSound → s.sharesSpendTheBudget → t.sharesSpendTheBudget

theorem State.UpholdsTables.trans {s t u : State} (h : s.UpholdsTables t) (k : t.UpholdsTables u) : s.UpholdsTables u :=
  ⟨k.surfaces ∘ h.surfaces, k.heads ∘ h.heads, k.tracking ∘ h.tracking⟩

/-- A change of none of the tables. -/
theorem State.UpholdsTables.of_eq {s t : State} (hp : t.straps = s.straps := by simp)
    (hs : t.surfaces = s.surfaces := by simp) (hh : t.heads = s.heads := by simp) (hm : t.scans = s.scans := by simp) :
    s.UpholdsTables t where
  surfaces h := by
    unfold State.surfacesSound at *
    rwa [hs, hp]
  heads h := by
    unfold State.headsSound State.onSound at *
    rwa [hh, hs]
  tracking h := by
    unfold State.trackingIsShowing at *
    rwa [hm, hh]

theorem State.Upholds.trans {s t u : State} (h : s.Upholds t) (k : t.Upholds u) : s.Upholds u :=
  ⟨h.toUpholdsTables.trans k.toUpholdsTables, fun hs => k.shares (h.heads hs) ∘ h.shares hs⟩

theorem State.Keeps.upholds {s t : State} (h : s.Keeps t) : s.Upholds t where
  surfaces := h.keepsShapes.surfacesSound
  heads := h.headsSound
  tracking := h.trackingIsShowing
  shares _ := State.sharesSpendTheBudget_of_eq h.isOn h.shares h.budget

theorem State.Upholds.refl (s : State) : s.Upholds s := (State.Keeps.refl s).upholds

theorem State.Upholds.ite {s t u : State} {c : Prop} {_ : Decidable c} (h : s.Upholds t) (k : s.Upholds u) :
    s.Upholds (if c then t else u) := by
  split
  · exact h
  · exact k

/-- Tables upheld, and the shares of a recomputation. -/
theorem State.UpholdsTables.recomputeShares {s t : State} (h : s.UpholdsTables t) : s.Upholds t.recomputeShares :=
  ⟨h.trans .of_eq, fun _ _ => t.recomputeShares_spends⟩

/-! ### The surface table -/

theorem State.overlaps_eq_false {id : Fin 16} {f : Surface} {s : State} (h : s.overlaps id f = false) :
    rangesMeet f.base f.limit s.straps.areaBase (s.straps.areaBase + areaSize) = false ∧
    ∀ j, j ≠ id → ∀ g ∈ s.surfaces.look j, rangesMeet f.base f.limit g.base g.limit = false := by
  unfold State.overlaps at h
  obtain ⟨area, rest⟩ := Bool.or_eq_false_iff.1 h
  refine ⟨area, fun j hj g hg => ?_⟩
  have free := List.any_eq_false.1 rest j (List.mem_finRange j)
  simp only [Option.mem_def.1 hg, decide_eq_true hj, Bool.true_and, Bool.not_eq_true] at free
  exact free

/-- A sound surface table takes an entry in range that meets nothing and is not too many tiles (R35 to R37). -/
theorem State.surfacesSound.put {s t : State} {id : Fin 16} {f : Surface} (hs : s.surfacesSound)
    (straps : t.straps = s.straps) (surfaces : t.surfaces = s.surfaces.put id (some f)) (sound : f.sound s.straps)
    (free : s.overlaps id f = false) (few : s.tilesAfter id f ≤ 98304) : t.surfacesSound := by
  obtain ⟨each, -⟩ := hs
  obtain ⟨area, apart⟩ := State.overlaps_eq_false free
  have own : t.surfaces.look id = some f := surfaces ▸ Table.look_put_self ..
  have kept : ∀ {j}, j ≠ id → t.surfaces.look j = s.surfaces.look j := fun hj => surfaces ▸ Table.look_put_ne _ hj _
  rw [State.surfacesSound_iff, straps]
  refine ⟨fun i g hg => ?_, ?_⟩
  · by_cases hi : i = id
    · subst hi
      obtain rfl := Option.some.inj (own.symm.trans hg)
      exact ⟨sound, area, fun j hj g hg => apart j hj g (kept hj ▸ hg)⟩
    · rw [kept hi] at hg
      obtain ⟨soundG, areaG, apartG⟩ := each i g hg
      refine ⟨soundG, areaG, fun j hj k hk => ?_⟩
      by_cases hji : j = id
      · subst hji
        obtain rfl := Option.some.inj (own.symm.trans hk)
        exact (rangesMeet_comm ..).trans (apart i hi g hg)
      · exact apartG j hj k (kept hji ▸ hk)
  · have tiles : t.tilesAt id = f.geometry.tileCount := by
      rw [State.tilesAt, own]
      rfl
    rw [State.tilesAfter_eq] at few
    rw [sum_finRange_split id, tiles]
    refine le_of_eq_of_le (congrArg (f.geometry.tileCount + ·) (congrArg List.sum
      (List.map_congr_left fun j hj => ?_))) few
    rw [State.tilesAt, State.tilesAt, kept (of_decide_eq_true (List.mem_filter.1 hj).2)]

/-- A sound surface table stays sound when a surface is withdrawn. -/
theorem State.surfacesSound.remove {s t : State} {id : Fin 16} (hs : s.surfacesSound) (straps : t.straps = s.straps)
    (surfaces : t.surfaces = s.surfaces.put id none) : t.surfacesSound := by
  rw [State.surfacesSound_iff] at hs ⊢
  obtain ⟨each, tiles⟩ := hs
  have own : t.surfaces.look id = none := surfaces ▸ Table.look_put_self ..
  have kept : ∀ {j}, j ≠ id → t.surfaces.look j = s.surfaces.look j := fun hj => surfaces ▸ Table.look_put_ne _ hj _
  have still : ∀ {j g}, t.surfaces.look j = some g → s.surfaces.look j = some g := fun {j g} hg => by
    by_cases hj : j = id
    · exact absurd ((hj ▸ hg).symm.trans own) (Option.some_ne_none g)
    · exact kept hj ▸ hg
  rw [straps]
  refine ⟨fun i f hf => ?_, ?_⟩
  · obtain ⟨sound, area, apart⟩ := each i f (still hf)
    exact ⟨sound, area, fun j hj g hg => apart j hj g (still hg)⟩
  · rw [sum_finRange_split id] at tiles ⊢
    have noTile : t.tilesAt id = 0 := by
      rw [State.tilesAt, own]
      rfl
    have rest : ((List.finRange 16).filter (· ≠ id)).map (fun j => t.tilesAt j) =
        ((List.finRange 16).filter (· ≠ id)).map fun j => s.tilesAt j :=
      List.map_congr_left fun j hj => by
        rw [State.tilesAt, State.tilesAt, kept (of_decide_eq_true (List.mem_filter.1 hj).2)]
    rw [noTile, rest]
    omega

/-- A surface that is in no flip set may be replaced by one that is no head's, or by none. -/
theorem State.headsSound.putFree {s t : State} {id : Fin 16} {o : Option Surface} (hs : s.headsSound)
    (heads : t.heads = s.heads) (surfaces : t.surfaces = s.surfaces.put id o)
    (unlisted : ∀ q, id ∉ (s.heads.look q).flipSet) (free : ∀ f ∈ o, f.owner = none) : t.headsSound := by
  have own : t.surfaces.look id = o := surfaces ▸ Table.look_put_self ..
  have kept : ∀ {j}, j ≠ id → t.surfaces.look j = s.surfaces.look j := fun hj => surfaces ▸ Table.look_put_ne _ hj _
  obtain ⟨each, owners⟩ := hs
  unfold State.headsSound State.onSound
  rw [heads]
  refine ⟨fun q => ?_, fun i f hf q hq => ?_⟩
  · obtain ⟨off, on, shown⟩ := each q
    refine ⟨off, fun isOn => ?_, shown⟩
    obtain ⟨ne, le, nodup, some, all⟩ := on isOn
    refine ⟨ne, le, nodup, some, fun g hg => ⟨(all g hg).1, fun j hj => ?_⟩⟩
    rw [kept fun same => unlisted q (same ▸ hj)]
    exact (all g hg).2 j hj
  · by_cases hi : i = id
    · exact absurd ((free f (own ▸ hi ▸ hf)).symm.trans hq) (Option.some_ne_none q).symm
    · exact owners i f (kept hi ▸ hf) q hq

/-- A surface that is not DECLARED, or no head's, is in no flip set (R41). -/
theorem State.headsSound.unlisted {s : State} (hs : s.headsSound) {id : Fin 16}
    (h : ∀ f ∈ s.surfaces.look id, f.owner = none) (q : Fin 4) : id ∉ (s.heads.look q).flipSet := fun member => by
  obtain ⟨f, hf, owner, -⟩ := hs.member member
  exact absurd ((h f hf).symm.trans owner) (Option.some_ne_none q).symm

/-! ### SURFACE descriptors (R39, R40) -/

/-- A declaration, or a redeclaration of a surface that is no head's. -/
theorem State.upholds_putFree {s t : State} {id : Fin 16} {f : Surface} (straps : t.straps = s.straps)
    (heads : t.heads = s.heads) (scans : t.scans = s.scans) (surfaces : t.surfaces = s.surfaces.put id (some f))
    (shares : ∀ k, (t.budget.heads.look k).share = (s.budget.heads.look k).share)
    (budget : t.link.current = s.link.current) (sound : f.sound s.straps) (apart : s.overlaps id f = false)
    (few : s.tilesAfter id f ≤ 98304) (was : ∀ f ∈ s.surfaces.look id, f.owner = none) (free : f.owner = none) :
    s.Upholds t where
  surfaces hs := hs.put straps surfaces sound apart few
  heads hs := hs.putFree heads surfaces (hs.unlisted was) fun g hg => Option.some.inj hg ▸ free
  tracking h := by
    unfold State.trackingIsShowing at *
    rwa [scans, heads]
  shares _ := State.sharesSpendTheBudget_of_eq (fun h => by rw [State.isOn, State.isOn, heads]) shares (by rw [budget])

/-- A redeclared surface of head `h`, with a geometry of which no other surface of the flip set differs, leaves the head
table sound. -/
theorem State.Redeclares.headsSound {s t : State} {id : Fin 16} {old f : Surface} {h : Fin 4}
    (r : s.Redeclares id old f h t) (hs : s.headsSound) (declared : s.surfaces.look id = some old)
    (ho : old.owner = some h) (alike : s.mismatches id f = false) : t.headsSound := by
  obtain ⟨member, isOn⟩ := hs.owner declared ho
  obtain ⟨-, was⟩ := hs.of_member member declared
  obtain ⟨-, on, shown⟩ := hs.1 h
  have entry : t.surfaces.look id = some { f with owner := some h }.markWhole := r.surfaces ▸ Table.look_put_self ..
  have kept : ∀ {j}, j ≠ id → t.surfaces.look j = s.surfaces.look j := fun hj => r.surfaces ▸ Table.look_put_ne _ hj _
  have geometry : (t.heads.look h).geometry = some f.geometry := by
    rw [r.heads, Table.look_put_self]
    by_cases other : f.geometry ≠ old.geometry
    · exact if_pos other
    · exact (if_neg other).trans (was.trans (congrArg some (not_not.1 other).symm))
  have notOff : (if (s.heads.look h).shown = some id then HeadState.waiting else (s.heads.look h).state) ≠ .off := by
    split
    · nofun
    · exact isOn
  obtain ⟨ne, le, nodup, -, all⟩ := on isOn
  refine hs.put (h := h) r.heads (fun off => absurd off notOff) (fun _ => ?_) ⟨fun away => ?_, fun there => ?_⟩
    (hs.not_usedByOther h) (fun j hj _ => kept fun same => hj (same ▸ member)) (fun j g hg hj => ?_)
    (fun j g _ hj hj' => absurd hj' hj)
  · have flipSet : (t.heads.look h).flipSet = (s.heads.look h).flipSet := by rw [r.heads, Table.look_put_self]
    unfold State.onSound
    rw [flipSet, geometry]
    refine ⟨ne, le, nodup, Option.some_ne_none _, fun g hg => ?_⟩
    obtain rfl := Option.some.inj hg
    refine ⟨?_, fun j hj => ?_⟩
    · rw [r.heads, Table.look_put_self]
      by_cases other : f.geometry ≠ old.geometry
      · exact (congrArg List.length (if_pos other)).trans List.length_replicate
      · exact (congrArg List.length (if_neg other)).trans ((all _ was).1.trans
          (congrArg Geometry.tileCount (not_not.1 other).symm))
    · by_cases same : j = id
      · subst same
        rw [entry]
        exact ⟨Option.some_ne_none _, fun g hg => Option.some.inj hg ▸ ⟨rfl, rfl⟩⟩
      · obtain ⟨g, hg, owner, -⟩ := hs.member hj
        rw [kept same, hg]
        refine ⟨Option.some_ne_none _, fun g' hg' => Option.some.inj hg' ▸ ⟨owner, ?_⟩⟩
        by_contra other
        have clash := (State.mismatches_iff id f s).2 ⟨old, h, j, g, declared, ho, same, hj, hg, other⟩
        exact Bool.false_ne_true (alike.symm.trans clash)
  · by_cases lost : (s.heads.look h).shown = some id
    · exact if_pos lost
    · refine (if_neg lost).trans (shown.1 ?_)
      simpa only [if_neg lost] using away
  · by_cases lost : (s.heads.look h).shown = some id
    · simp only [if_pos lost] at there
      exact there.elim nofun nofun
    · simp only [if_neg lost] at there ⊢
      exact shown.2 there
  · by_cases same : j = id
    · subst same
      obtain rfl := Option.some.inj (entry.symm.trans hg)
      rfl
    · obtain ⟨owner, -⟩ := hs.of_member hj (kept same ▸ hg)
      exact owner

/-- A head that loses its shown surface waits, and its follower seeks. -/
theorem State.Redeclares.trackingIsShowing {s t : State} {id : Fin 16} {old f : Surface} {h : Fin 4}
    (r : s.Redeclares id old f h t) (hs : s.trackingIsShowing) : t.trackingIsShowing := by
  intro q hq
  rw [r.scans] at hq
  rw [r.heads]
  by_cases same : q = h
  · subst same
    rw [Table.look_put_self]
    by_cases lost : (s.heads.look q).shown = some id
    · rw [if_pos lost, Table.look_put_self] at hq
      exact absurd hq nofun
    · rw [if_neg lost] at hq
      exact (if_neg lost).trans (hs q hq)
  · rw [Table.look_put_ne _ same]
    refine hs q ?_
    split at hq
    · rwa [Table.look_put_ne _ same] at hq
    · exact hq

/-- Which heads are ON when one head's entry is replaced by one ON or OFF as it was. -/
theorem State.isOn_of_put {s t : State} {h : Fin 4} {d : Head} (heads : t.heads = s.heads.put h d)
    (same : d.state = .off ↔ (s.heads.look h).state = .off) (q : Fin 4) : t.isOn q = s.isOn q := by
  unfold State.isOn
  rw [heads]
  by_cases hq : q = h
  · subst hq
    rw [Table.look_put_self]
    exact decide_eq_decide.2 (not_congr same)
  · rw [Table.look_put_ne _ hq]

theorem State.Redeclares.upholds {s t : State} {id : Fin 16} {old f : Surface} {h : Fin 4}
    (r : s.Redeclares id old f h t) (declared : s.surfaces.look id = some old) (ho : old.owner = some h)
    (sound : ({ f with owner := some h } : Surface).markWhole.sound s.straps) (apart : s.overlaps id f = false)
    (few : s.tilesAfter id f ≤ 98304) (alike : s.mismatches id f = false) : s.Upholds t where
  surfaces hs := hs.put r.straps r.surfaces sound apart few
  heads hs := r.headsSound hs declared ho alike
  tracking := r.trackingIsShowing
  shares hs := State.sharesSpendTheBudget_of_eq (State.isOn_of_put r.heads (by
    have isOn := (hs.owner declared ho).2
    refine iff_of_false ?_ isOn
    dsimp only
    split
    · nofun
    · exact isOn)) r.shares (by rw [r.current])

/-- A SURFACE descriptor taken has passed the checks of the tables. -/
theorem State.checkSurface_taken {s : State} {d : DescriptorSlot} (h : s.checkSurface d = .taken) :
    ∃ id fmt, d.surfaceFields.InRange s.straps fmt ∧
      d.surfaceFields.checked s.straps = some (id, d.surfaceFields.entry fmt) ∧
      s.overlaps id (d.surfaceFields.entry fmt) = false ∧
      s.tilesAfter id (d.surfaceFields.entry fmt) ≤ 98304 ∧ s.mismatches id (d.surfaceFields.entry fmt) = false := by
  cases fields : d.surfaceFields.checked s.straps with
  | none => exact absurd (h.symm.trans ((State.checkSurface_eq_badValue d s).2 fields)) (by decide)
  | some p =>
    obtain ⟨id, f⟩ := p
    obtain ⟨fmt, range, -, rfl⟩ := SurfaceFields.checked_eq_some.1 fields
    refine ⟨id, fmt, range, rfl, ?_⟩
    rw [State.checkSurface_of_checked fields] at h
    split at h
    next => exact absurd h (by decide)
    next apart =>
      split at h
      next => exact absurd h (by decide)
      next few =>
        split at h
        next => exact absurd h (by decide)
        next alike => exact ⟨Bool.eq_false_of_not_eq_true apart, Nat.not_lt.1 few, Bool.eq_false_of_not_eq_true alike⟩

theorem State.takeSurface_upholds {s : State} {d : DescriptorSlot} (taken : s.checkSurface d = .taken) :
    s.Upholds (s.takeSurface d) := by
  obtain ⟨id, fmt, range, fields, apart, few, alike⟩ := State.checkSurface_taken taken
  cases look : s.surfaces.look id with
  | none =>
    rw [State.takeSurface_empty fields look]
    exact State.upholds_putFree rfl rfl rfl rfl (fun _ => rfl) rfl (range.sound none) apart few
      (by rw [look]; nofun) rfl
  | some old =>
    rw [State.takeSurface_declared fields look]
    cases ho : old.owner with
    | none =>
      rw [State.redeclare_unowned ho]
      obtain ⟨straps, heads, scans, -, -, -, -, current⟩ := s.replaceEntry_frame id
        { d.surfaceFields.entry fmt with owner := none }
      exact State.upholds_putFree straps heads scans (s.replaceEntry_surfaces id _) (s.replaceEntry_shares id _) current
        (range.sound none) apart few (by rw [look]; exact fun f hf => Option.some.inj hf ▸ ho) rfl
    | some h => exact (State.redeclare_redeclares ho).upholds look ho (range.sound (some h)) apart few alike

/-! ### HEAD descriptors and withdrawals (R43 to R45) -/

theorem State.updEach_keepsShapes (f : Surface → Surface) (hf : ∀ x : Surface, x.SameShape (f x)) (s : State)
    {t : State} (straps : t.straps = s.straps) {ids : List (Fin 16)}
    (surfaces : ∀ id, t.surfaces.look id = if id ∈ ids then (s.surfaces.look id).map f else s.surfaces.look id) :
    s.KeepsShapes t where
  straps := straps
  shapes id := by
    rw [surfaces]
    split
    · exact optionRel_map hf _
    · exact optionRel_refl Surface.SameShape.refl _

theorem State.disown_keepsShapes (ids : List (Fin 16)) (s : State) : s.KeepsShapes (s.disown ids) :=
  (s.withdrawFlipSet_keeps ids).keepsShapes.trans
    (State.updEach_keepsShapes (fun f => { f with owner := none }) (fun _ => ⟨rfl, rfl, rfl, id⟩) _ (by simp)
      (State.setOwners_look ids none _))

theorem State.defineHead_keepsShapes (h : Fin 4) (ids : List (Fin 16)) (s : State) :
    s.KeepsShapes (s.defineHead h ids) := by
  rw [State.defineHead_eq]
  refine (s.disown_keepsShapes (s.heads.look h).flipSet).trans ?_
  generalize s.disown (s.heads.look h).flipSet = w
  exact State.updEach_keepsShapes (fun f => { f with owner := some h }.markWhole)
    (fun _ => ⟨rfl, rfl, rfl, fun _ => List.length_replicate⟩) _ (by simp) (fun id => by
      simpa using w.enlist_look h ids id)

end Sys2Proof.Machine
end

section
/-! SUPPORT. HEAD descriptors, withdrawals, commits, frame starts, stalls and the tick: what they uphold. -/

namespace Sys2Proof.Machine

/-! ### HEAD descriptors and withdrawals (R43 to R45) -/

/-- Followers of heads other than `h` are unchanged, and that of `h` does not track. -/
theorem State.trackingIsShowing.put {s t : State} {h : Fin 4} {d : Head} {c : Scan} (hs : s.trackingIsShowing)
    (heads : t.heads = s.heads.put h d) (scans : t.scans = s.scans.put h c)
    (own : c.mode = .track → d.state = .showing) : t.trackingIsShowing := by
  intro q hq
  rw [scans] at hq
  rw [heads]
  by_cases same : q = h
  · subst same
    rw [Table.look_put_self] at hq ⊢
    exact own hq
  · rw [Table.look_put_ne _ same] at hq ⊢
    exact hs q hq

theorem State.Defines.headsSound {s t : State} {h : Fin 4} {ids : List (Fin 16)} {g : Geometry}
    (def_ : s.Defines h ids g t) (hs : s.headsSound) (count : 1 ≤ ids.length ∧ ids.length ≤ 3) (nodup : ids.Nodup)
    (unused : ¬ s.usedByOther h ids) : t.headsSound := by
  have entry : t.heads.look h =
      { state := .waiting, flipSet := ids, shown := none, geometry := some g,
        quality := List.replicate g.tileCount .exact } := def_.heads ▸ Table.look_put_self ..
  refine hs.put (h := h) def_.heads nofun (fun _ => ?_) ⟨fun _ => rfl, fun k => k.elim nofun nofun⟩ unused
    (fun id out notOld => (def_.rest id out).trans (State.disown_look_of_notMem notOld s)) (fun id f hf mem => ?_)
    (fun id f hf out old => ?_)
  · unfold State.onSound
    rw [entry]
    refine ⟨List.length_pos_iff.1 count.1, count.2, nodup, Option.some_ne_none _, fun g' hg' => ?_⟩
    obtain rfl := Option.some.inj hg'
    refine ⟨List.length_replicate, fun id mem => ?_⟩
    obtain ⟨f, -, hg, look⟩ := def_.taken id mem
    rw [look]
    exact ⟨Option.some_ne_none _, fun f' hf' => Option.some.inj hf' ▸ ⟨rfl, hg⟩⟩
  · obtain ⟨f', -, -, look⟩ := def_.taken id mem
    obtain rfl := Option.some.inj (look.symm.trans hf)
    rfl
  · obtain ⟨f', hf', -, -⟩ := hs.member old
    obtain ⟨l, look⟩ := State.disown_some old hf'
    obtain rfl := Option.some.inj (look.symm.trans ((def_.rest id out).symm.trans hf))
    rfl

theorem State.defineHead_modes (h : Fin 4) (ids : List (Fin 16)) (s : State) :
    ∃ d c, (s.defineHead h ids).heads = s.heads.put h d ∧ (s.defineHead h ids).scans = s.scans.put h c ∧
      c.mode = .seek := by
  rw [State.defineHead_eq]
  obtain ⟨-, heads, scans, -⟩ := s.disown_frame (s.heads.look h).flipSet
  revert heads scans
  generalize s.disown (s.heads.look h).flipSet = w
  intro heads scans
  have scanned := w.enlist_scans h ids
  refine ⟨(w.enlist h ids).heads.look h, (w.enlist h ids).scans.look h, ?_, ?_, ?_⟩
  · rw [← heads]
    simp only [State.rebudget_frame, State.offerHead_frame]
    simp only [State.enlist, State.updHead_heads, State.markEach_frame, State.restartStall_frame, State.updScan_frame,
      State.setOwners_frame, Table.upd, Table.put_put, Table.look_put_self]
  · simp [scanned, scans]
  · rw [scanned, Table.look_put_self]

theorem State.takeHead_upholds {s : State} {d : DescriptorSlot} (taken : s.checkHead d = .taken) :
    s.Upholds (s.takeHead d) := by
  cases hd : d.headFields with
  | none => simp only [State.checkHead, hd, reduceCtorEq] at taken
  | some p =>
    obtain ⟨h, ids⟩ := p
    have eq : s.takeHead d = s.defineHead h ids := by simp only [State.takeHead, hd]
    have defines : s.headsSound → ∃ g, s.Defines h ids g (s.takeHead d) := fun hs => State.takeHead_defines hs hd taken
    refine ⟨⟨?_, fun hs => ?_, fun hs => ?_⟩, fun hs spends => ?_⟩
    · exact eq ▸ (s.defineHead_keepsShapes h ids).surfacesSound
    · obtain ⟨-, nodup, -, unused⟩ := State.checkHead_taken hs hd taken
      obtain ⟨g, def_⟩ := defines hs
      exact def_.headsSound hs (DescriptorSlot.length_of_headFields hd) nodup unused
    · obtain ⟨d, c, heads, scans, seeks⟩ := s.defineHead_modes h ids
      exact eq ▸ hs.put heads scans fun tracks => absurd (seeks.symm.trans tracks) (by decide)
    · obtain ⟨g, def_⟩ := defines hs
      by_cases off : (s.heads.look h).state = .off
      · obtain ⟨-, -, -, spends⟩ := def_.fresh off
        exact spends
      · exact State.sharesSpendTheBudget_of_eq (State.isOn_of_put def_.heads (iff_of_false nofun off)) (def_.shares off)
          (by rw [def_.current]) spends

theorem State.Removes.headsSound {s t : State} {h : Fin 4} (r : s.Removes h t) (hs : s.headsSound) : t.headsSound := by
  have look : ∀ id, t.surfaces.look id = (s.disown (s.heads.look h).flipSet).surfaces.look id := fun id => by
    rw [r.surfaces]
  refine hs.put (h := h) r.heads (fun _ => ⟨rfl, rfl, rfl, rfl⟩) (fun on => absurd rfl on)
    ⟨fun _ => rfl, fun k => k.elim nofun nofun⟩ (fun ⟨_, mem, _⟩ => absurd mem List.not_mem_nil)
    (fun id _ notOld => (look id).trans (State.disown_look_of_notMem notOld s))
    (fun _ _ _ mem => absurd mem List.not_mem_nil) (fun id f hf _ old => ?_)
  obtain ⟨f', hf', -, -⟩ := hs.member old
  obtain ⟨l, given⟩ := State.disown_some old hf'
  obtain rfl := Option.some.inj (given.symm.trans ((look id).symm.trans hf))
  rfl

theorem State.Removes.upholds {s t : State} {h : Fin 4} (r : s.Removes h t) : s.Upholds t where
  surfaces hs := by
    have shapes : s.KeepsShapes t :=
      ⟨r.straps, fun id => r.surfaces ▸ (s.disown_keepsShapes (s.heads.look h).flipSet).shapes id⟩
    exact shapes.surfacesSound hs
  heads := r.headsSound
  tracking hs := hs.put r.heads r.scans nofun
  shares _ _ := r.spends

theorem State.takeWithdrawHead_upholds (s : State) (d : DescriptorSlot) : s.Upholds (s.takeWithdrawHead d) := by
  unfold State.takeWithdrawHead
  split
  next => exact .refl s
  next h _ => exact .ite (s.removeHead_removes h).upholds (.refl s)

theorem State.takeWithdrawSurface_upholds {s : State} {d : DescriptorSlot} (taken : s.checkWithdrawSurface d = .taken) :
    s.Upholds (s.takeWithdrawSurface d) := by
  unfold State.checkWithdrawSurface at taken
  unfold State.takeWithdrawSurface
  split at taken
  next => exact absurd taken (by decide)
  next id named =>
    split at taken
    next => exact absurd taken (by decide)
    next f hf =>
      split at taken
      next => exact absurd taken (by decide)
      next free =>
        exact
          { surfaces := fun hs => hs.remove rfl rfl
            heads := fun hs => hs.putFree rfl rfl
              (hs.unlisted fun g hg => Option.some.inj (hf.symm.trans hg) ▸ not_not.1 free) nofun
            tracking := fun hs => hs
            shares := fun _ spends => spends }

/-! ### Commits (R28 to R32) -/

theorem State.applyDescriptor_upholds {s : State} {d : DescriptorSlot} (taken : s.checkCommit d = .taken) :
    s.Upholds (s.applyDescriptor d) := by
  unfold State.checkCommit at taken
  unfold State.applyDescriptor
  split at taken
  next => exact absurd taken (by decide)
  next =>
    split at taken
    next =>
      exact State.takeSurface_upholds taken
    next =>
      exact State.takeHead_upholds taken
    next =>
      exact State.takeWithdrawSurface_upholds taken
    next =>
      exact s.takeWithdrawHead_upholds d
    next => exact absurd taken (by decide)

theorem State.conclude_upholds (s : State) (i : Fin 16) (d : DescriptorSlot) : s.Upholds (s.conclude i d) := by
  unfold State.conclude
  extract_lets o applied stored noticed
  have toApplied : s.Upholds applied := by
    by_cases taken : o = .taken
    · simp only [applied, if_pos taken]
      exact State.applyDescriptor_upholds taken
    · simp only [applied, if_neg taken]
      exact .refl s
  have toNoticed : s.Upholds noticed :=
    toApplied.trans (State.Keeps.upholds (.after (t := stored) (stored.offerNotice_keeps _) rfl rfl rfl rfl rfl rfl))
  exact .ite toNoticed (toNoticed.trans (State.Keeps.of_eq).upholds)

theorem State.writeSlot_upholds (s : State) (i : Fin 16) (off : Nat) (bytes : List (Nat × Byte)) :
    s.Upholds (s.writeSlot i off bytes) := by
  unfold State.writeSlot
  extract_lets d written
  have toWritten : s.Keeps written := .of_eq rfl rfl rfl rfl rfl rfl
  exact .ite (toWritten.upholds.trans ((written.conclude_upholds i d).trans (State.sendDecision_keeps _).upholds))
    toWritten.upholds

/-! ### The Scan Follower (R72, R76, R80) -/

/-- A head ON put in another state, over the same flip set. -/
theorem State.headsSound.restate {s t : State} {h : Fin 4} {d : Head} (hs : s.headsSound)
    (heads : t.heads = s.heads.put h d) (surfaces : t.surfaces = s.surfaces) (was : (s.heads.look h).state ≠ .off)
    (on : d.state ≠ .off) (flipSet : d.flipSet = (s.heads.look h).flipSet)
    (geometry : d.geometry = (s.heads.look h).geometry) (quality : d.quality = (s.heads.look h).quality)
    (shown : d.shownSound) : t.headsSound := by
  obtain ⟨-, wasOn, -⟩ := hs.1 h
  refine hs.put heads (fun off => absurd off on) (fun _ => ?_) shown (flipSet ▸ hs.not_usedByOther h)
    (fun id _ _ => by rw [surfaces]) (fun id f hf mem => ?_) (fun id f hf out mem => absurd (flipSet ▸ mem) out)
  · have sound := wasOn was
    unfold State.onSound at sound ⊢
    rwa [heads, Table.look_put_self, surfaces, flipSet, geometry, quality]
  · obtain ⟨owner, -⟩ := hs.of_member (flipSet ▸ mem) (surfaces ▸ hf)
    exact owner

/-- A surface of head `h`'s flip set shown by it. -/
theorem State.showSurface_upholds {s : State} {h : Fin 4} {id : Fin 16} {f : Surface}
    (hf : s.surfaces.look id = some f) (ho : f.owner = some h) :
    s.Upholds (s.updHead h fun d => { d with state := .showing, shown := some id }) where
  surfaces hs := hs
  heads hs := by
    obtain ⟨member, isOn⟩ := hs.owner hf ho
    exact hs.restate (State.updHead_heads ..) rfl isOn nofun rfl rfl rfl
      ⟨fun k => k.elim nofun nofun, fun _ => ⟨Option.some_ne_none _, fun j hj => Option.some.inj hj ▸ member⟩⟩
  tracking hs q hq := by
    by_cases same : q = h
    · subst same
      rw [State.updHead_heads, Table.look_upd_self]
    · rw [State.updHead_heads, Table.look_upd_ne _ same]
      exact hs q hq
  shares hs := State.sharesSpendTheBudget_of_eq
    (State.isOn_of_put rfl (iff_of_false nofun (hs.owner hf ho).2)) (fun _ => rfl) rfl

theorem State.Keeps.exists_remarked {s t : State} (h : s.Keeps t) {id : Fin 16} {f : Surface}
    (hf : s.surfaces.look id = some f) : ∃ g, t.surfaces.look id = some g ∧ f.Remarked g := by
  have rel := h.surfaces id
  rw [hf] at rel
  generalize t.surfaces.look id = o at rel
  cases rel with
  | some remarked => exact ⟨_, rfl, remarked⟩

theorem State.frameStartHead_upholds {s : State} {h : Fin 4} {id : Fin 16} {f : Surface}
    (hf : s.surfaces.look id = some f) (ho : f.owner = some h) : s.Upholds (s.frameStartHead h id) := by
  have shows : ∀ {v : State}, s.Keeps v →
      s.Upholds (v.updHead h fun d => { d with state := .showing, shown := some id }) := fun {v} keeps => by
    obtain ⟨g, hg, same⟩ := keeps.exists_remarked hf
    exact keeps.upholds.trans (State.showSurface_upholds hg (same.owner.trans ho))
  unfold State.frameStartHead
  split
  next old _ =>
    split
    next => exact shows (.refl s)
    next => exact shows (s.withdrawSurface_keeps old)
  next => exact shows (.refl s)

/-- A follower sent to TRACK while its head shows. -/
theorem State.track_upholds {s : State} {h : Fin 4} (f : Scan → Scan) (shows : (s.heads.look h).state = .showing) :
    s.Upholds (s.updScan h f) where
  surfaces hs := hs
  heads hs := hs
  tracking hs q hq := by
    by_cases same : q = h
    · exact same ▸ shows
    · rw [State.updScan_scans, Table.look_upd_ne _ same] at hq
      exact hs q hq
  shares _ := id

theorem State.restartStall_keeps (s : State) (h : Fin 4) : s.Keeps (s.restartStall h) :=
  .updScan s h _ fun _ e => e

theorem State.frameStart_upholds {s : State} {h : Fin 4} {id : Fin 16} {f : Surface} (xb : Nat) (data : List Byte)
    (hf : s.surfaces.look id = some f) (ho : f.owner = some h) : s.Upholds (s.frameStart h id xb data) := by
  unfold State.frameStart
  extract_lets c period changed shows measured abandoned started offered tracked band filled
  have toAbandoned : s.Keeps abandoned :=
    (State.Keeps.updScan s h (fun c => { c with period := period, lastStart := some s.budget.now }) fun _ e => e).trans
      (measured.abandonWhere_keeps fun r => r.head == h)
  have toStarted : s.Upholds started := by
    obtain ⟨g, hg, same⟩ := toAbandoned.exists_remarked hf
    exact toAbandoned.upholds.trans (State.frameStartHead_upholds hg (same.owner.trans ho))
  have showing : (started.heads.look h).state = .showing := by
    simp only [started, State.frameStartHead, State.updHead_heads, Table.look_upd_self]
  have toOffered : s.Upholds offered :=
    toStarted.trans (.ite (started.offerHead_keeps h).upholds (.refl started))
  have stillShowing : (offered.heads.look h).state = .showing := by
    refine Eq.trans (congrArg (fun t : Table 4 Head => (t.look h).state) ?_) showing
    simp only [offered]
    split
    · simp
    · rfl
  exact (toOffered.trans (State.track_upholds _ stillShowing)).trans
    (((tracked.bandStart_keeps h 0).trans (band.fillRead_keeps id 0 xb data)).trans
      (filled.restartStall_keeps h)).upholds

theorem State.takeRead_upholds (s : State) (g : Nat) (data : List Byte) : s.Upholds (s.takeRead g data) := by
  unfold State.takeRead
  split
  next => exact .refl s
  next id _ =>
    split
    next => exact .refl s
    next f hf =>
      split
      next => exact .refl s
      next h ho =>
        have counted : s.Keeps (s.count .strayReads) := .of_eq rfl rfl rfl rfl rfl rfl
        dsimp only
        split
        · exact (State.frameStart_upholds _ data hf ho).trans (State.sendDecision_keeps _).upholds
        · exact (s.scanRead_keeps h id _ _ data).upholds
        · exact counted.upholds

/-- A head that shows becomes STALLED, its follower in SEEK. -/
theorem State.stall_upholds {s : State} {h : Fin 4} (shows : (s.heads.look h).state = .showing)
    (seeks : (s.scans.look h).mode = .seek) : s.Upholds (s.updHead h fun d => { d with state := .stalled }) where
  surfaces hs := hs
  heads hs := by
    obtain ⟨-, -, shown⟩ := hs.1 h
    exact hs.restate (State.updHead_heads ..) rfl (shows ▸ nofun) nofun rfl rfl rfl
      ⟨fun k => k.elim nofun nofun, fun _ => shown.2 (.inl shows)⟩
  tracking hs q hq := by
    have other : q ≠ h := fun same => absurd ((same ▸ hq).symm.trans seeks) (by decide)
    rw [State.updHead_heads, Table.look_upd_ne _ other]
    exact hs q hq
  shares _ := State.sharesSpendTheBudget_of_eq (State.isOn_of_put rfl (iff_of_false nofun (shows ▸ nofun)))
    (fun _ => rfl) rfl

/-- A head that shows, stalled: its follower seeks before it does. -/
theorem State.stallHead_upholds {s : State} {h : Fin 4} (shows : (s.heads.look h).state = .showing) :
    s.Upholds (s.stallHead h) := by
  unfold State.stallHead
  extract_lets abandoned seeking stalled
  have toAbandoned := s.abandonWhere_keeps fun r => r.head == h
  have toSeeking : s.Keeps seeking := toAbandoned.trans
    (.updScan abandoned h (fun c => { c.toSeek with lastStart := none, stall := none }) fun _ e => absurd e nofun)
  have showing : (seeking.heads.look h).state = .showing := (toSeeking.heads h).state.trans shows
  have seeks : (seeking.scans.look h).mode = .seek := by
    simp only [seeking, State.updScan_scans, Table.look_upd_self, Scan.toSeek]
  have toStalled : seeking.Upholds stalled := State.stall_upholds showing seeks
  have sent : stalled.Keeps ((stalled.offerHead h).raise .headStalled).sendDecision := .of_eq
  exact (toSeeking.upholds.trans toStalled).trans sent.upholds

/-! ### The tick and the epoch (R117, R124) -/

theorem State.formDemands_keeps (s : State) : s.Keeps s.formDemands where
  straps := rfl
  surfaces _ := optionRel_refl Surface.Remarked.refl _
  heads _ := .refl _
  modes _ := id
  shares h := (congrArg HeadBudget.share (Table.look_tab _ h)).trans rfl
  budget := rfl

theorem State.refill_keeps (s : State) : s.Keeps s.refill where
  straps := rfl
  surfaces _ := optionRel_refl Surface.Remarked.refl _
  heads _ := .refl _
  modes _ := id
  shares h := by
    refine (congrArg HeadBudget.share (Table.look_tab _ h)).trans ?_
    dsimp only
    split <;> rfl
  budget := rfl

theorem State.markReduced_keeps (s : State) (h : Fin 4) : s.Keeps (s.markReduced h) := by
  unfold State.markReduced
  refine .foldl _ (fun v t => ?_) _ s
  exact .foldl _ (fun v id => v.markStale_keeps id t.1 t.2) _ v

theorem State.applySettings_upholdsTables (s : State) : s.UpholdsTables s.applySettings := by
  unfold State.applySettings
  extract_lets becoming unmasked link applied
  have toApplied : s.UpholdsTables applied := .of_eq rfl rfl rfl rfl
  have marked : applied.Keeps (becoming.foldl (fun s h => s.markReduced h) applied) :=
    .foldl _ (fun v h => v.markReduced_keeps h) _ _
  exact toApplied.trans marked.upholds.toUpholdsTables

/-- A tick that applies settings recomputes the shares. -/
theorem State.tickBudget_upholds (s : State) : s.Upholds s.tickBudget := by
  unfold State.tickBudget
  extract_lets applied set ends formed shared budget cleared
  have rest : shared.Keeps cleared.refill := .after (t := cleared) cleared.refill_keeps rfl rfl rfl rfl rfl rfl
  have toFormed : set.Keeps formed := .ite set.formDemands_keeps (.refl set)
  refine State.Upholds.trans ?_ rest.upholds
  by_cases apply : applied = true
  · have recomputed : shared = formed.recomputeShares := if_pos (by rw [apply, Bool.or_true, Bool.true_or])
    have toSet : s.UpholdsTables set := by
      simp only [set, if_pos apply]
      exact s.applySettings_upholdsTables
    exact recomputed ▸ (toSet.trans toFormed.upholds.toUpholdsTables).recomputeShares
  · have unset : set = s := if_neg apply
    have tables : s.Keeps formed := unset ▸ toFormed
    exact .ite tables.upholds.toUpholdsTables.recomputeShares tables.upholds

theorem State.reachTime_keeps (s : State) (e : Time) : s.Keeps (s.reachTime e) := .of_eq

theorem State.takeTick_upholds (s : State) : s.Upholds s.takeTick := by
  unfold State.takeTick
  extract_lets reached budget ticked budgeted evaluated
  have toTicked : s.Keeps ticked := .before (t := reached) (s.reachTime_keeps _) rfl rfl rfl rfl rfl rfl
  have toEvaluated : budgeted.Keeps evaluated := .forHeads (fun h v => v.reevaluate_keeps h) _
  exact (toTicked.upholds.trans ticked.tickBudget_upholds).trans (toEvaluated.trans .of_eq).upholds

/-! ### Part reset (R34, R49, R68, R124) -/

theorem State.initial_headsSound (p : Straps) (line ready : Bool) : (State.initial p line ready).headsSound := by
  refine ⟨fun q => ?_, fun i f hf => ?_⟩
  · have off : (State.initial p line ready).heads.look q = Head.reset := Table.look_const _ q
    rw [off]
    exact ⟨fun _ => ⟨rfl, rfl, rfl, rfl⟩, fun on => absurd rfl on, fun _ => rfl, fun k => k.elim nofun nofun⟩
  · exact absurd ((Table.look_const none i).symm.trans hf) nofun

/-- Part reset leaves every table empty. -/
theorem State.upholds_initial {s t : State} (p : Straps) (line ready : Bool)
    (h : (State.initial p line ready).Upholds t) : s.Upholds t where
  surfaces _ := by
    refine h.surfaces ⟨fun i f hf => ?_, ?_⟩
    · exact absurd ((Table.look_const none i).symm.trans hf) nofun
    · have empty : ∀ i, (State.initial p line ready).surfaces.look i = none := Table.look_const none
      simp [empty]
  heads _ := h.heads (State.initial_headsSound p line ready)
  tracking _ := by
    refine h.tracking fun q hq => ?_
    have none : (State.initial p line ready).scans.look q = Scan.reset := Table.look_const _ q
    rw [none] at hq
    exact absurd hq nofun
  shares _ _ := by
    have allOff : ∀ q, (State.initial p line ready).isOn q = false := fun q => by
      rw [State.isOn, show (State.initial p line ready).heads.look q = Head.reset from Table.look_const _ q]
      rfl
    refine h.shares (State.initial_headsSound p line ready) ⟨fun q _ => ?_, fun ⟨q, on⟩ => ?_⟩
    · exact congrArg HeadBudget.share (Table.look_const HeadBudget.reset q)
    · exact absurd ((allOff q).symm.trans on) nofun

end Sys2Proof.Machine
end

section
/-! SUPPORT. What each command upholds: O57 and O58. -/

namespace Sys2Proof.Machine

/-- The command goes on, and upholds the tables. -/
def State.upholdsInto (s : State) (o : Host.Outcome State Fault Refusal) : Prop := ∃ t, o = .next t ∧ s.Upholds t

theorem State.Upholds.into {s t : State} (h : s.Upholds t) : s.upholdsInto (.next t) := ⟨t, rfl, h⟩

theorem State.Keeps.into {s t : State} (h : s.Keeps t) : s.upholdsInto (.next t) := h.upholds.into

theorem State.upholdsInto_self (s : State) : s.upholdsInto (.next s) := (State.Upholds.refl s).into

/-- A command that changes none of the tables. -/
theorem State.upholdsInto_of_eq {s t : State} (hp : t.straps = s.straps := by simp)
    (hs : t.surfaces = s.surfaces := by simp) (hh : t.heads = s.heads := by simp) (hm : t.scans = s.scans := by simp)
    (hb : t.budget.heads = s.budget.heads := by simp) (hc : t.link.current = s.link.current := by simp) :
    s.upholdsInto (.next t) := (State.Keeps.of_eq hp hs hh hm hb hc).into

/-! ### The commands of the Channel Follower -/

theorem execPartReset_upholds (p : Straps) (line ready : Bool) (s : State) :
    s.upholdsInto (execPartReset p line ready s) := by
  unfold execPartReset
  extract_lets reset fresh held
  have toFresh : (State.initial p line ready).Keeps fresh := .of_eq rfl rfl rfl rfl rfl rfl
  have toHeld : fresh.Keeps held := .ite fresh.assertMemoryReset_keeps (.refl fresh)
  have relayed : held.Keeps (held.updRelay Relay.tryBegin) := .of_eq rfl rfl rfl rfl rfl rfl
  exact (State.upholds_initial p line ready ((toFresh.trans toHeld).trans relayed).upholds).into

theorem rankCount_le_two (p : Straps) : p.rankCount ≤ 2 := by
  unfold Straps.rankCount
  cases p.ranks <;> decide

/-- A rank command, taken or not, keeps the tables. -/
theorem exec_rank_upholds {c : Instr} {n : Nat} (hc : c.rank? = some n) (s : State) : s.upholdsInto (exec c s) := by
  by_cases cal : c = .calibrate n
  · subst cal
    exact s.upholdsInto_self
  cases line : s.memoryResetLine with
  | true =>
    rw [exec_held line (.inl (hc ▸ Option.some_ne_none n))]
    exact s.upholdsInto_self
  | false =>
    by_cases present : n < s.straps.rankCount
    · have two : n < 2 := Nat.lt_of_lt_of_le present (rankCount_le_two s.straps)
      have taken : c.takenBy ⟨n, two⟩ s := ⟨hc, cal, present, line⟩
      rw [exec_of_takenBy taken]
      exact (State.takeCommand_keeps _ _ (.of_eq rfl rfl rfl rfl rfl rfl)).into
    · obtain ⟨missing, -, -⟩ := commandsWithoutEffect
      rw [missing c n s hc (Nat.not_lt.1 present)]
      exact s.upholdsInto_self

theorem execModeSet_upholds (n : Fin 4) (v : BitVec 16) (s : State) : s.upholdsInto (exec (.modeSet n v) s) := by
  cases line : s.memoryResetLine with
  | true =>
    rw [exec_held line (.inr (.inr ⟨n, v, rfl⟩))]
    exact s.upholdsInto_self
  | false =>
    rw [exec_modeSet line]
    exact (State.takeCommand_keeps _ _ (.of_eq rfl rfl rfl rfl rfl rfl)).into

theorem State.trackWrite_keeps (s : State) (g : Nat) (bytes : List (Nat × Byte)) : s.Keeps (s.trackWrite g bytes) := by
  unfold State.trackWrite
  split
  next id column row _ => exact s.surfaceWrite_keeps id column row
  next => exact .refl s

theorem execObservedWrite_upholds (o : WriteCompletion) (s : State) : s.upholdsInto (execObservedWrite o s) := by
  unfold execObservedWrite
  split
  next => exact s.upholdsInto_self
  next b _ =>
    extract_lets channel taken bytes
    have toTaken : s.Keeps taken := .of_eq rfl rfl rfl rfl rfl rfl
    split
    · unfold State.takeWrite
      exact (toTaken.upholds.trans (.ite (taken.writeSlot_upholds _ _ bytes)
        (taken.trackWrite_keeps b.address bytes).upholds)).into
    · exact toTaken.into

theorem execObservedRead_upholds (o : ReadCompletion) (s : State) : s.upholdsInto (execObservedRead o s) := by
  unfold execObservedRead
  split
  next => exact s.upholdsInto_self
  next b _ =>
    extract_lets channel taken
    have toTaken : s.Keeps taken := .of_eq rfl rfl rfl rfl rfl rfl
    split
    · exact (toTaken.upholds.trans (taken.takeRead_upholds b.address _)).into
    · exact toTaken.into

/-! ### The timers -/

theorem execStallTimerExpiry_upholds (h : Fin 4) (s : State) : s.upholdsInto (execStallTimerExpiry h s) := by
  unfold execStallTimerExpiry
  split
  next => exact s.upholdsInto_self
  next e _ =>
    have reached := s.reachTime_keeps e
    dsimp only
    split
    next => exact (reached.trans (State.restartStall_keeps _ h)).into
    next shows => exact (reached.upholds.trans (State.stallHead_upholds shows)).into
    next => exact reached.into

theorem State.startEncoder_keeps (s : State) : s.Keeps s.startEncoder := .of_eq

theorem execEncodeCompletion_upholds (s : State) : s.upholdsInto (execEncodeCompletion s) := by
  unfold execEncodeCompletion
  split
  next i _ =>
    have finished := s.finishEncoding_keeps i
    exact (finished.trans (.after (t := { s.finishEncoding i with encoder := none }) (State.startEncoder_keeps _)
      rfl rfl rfl rfl rfl rfl)).into
  next => exact s.upholdsInto_self

theorem execDeferralAbandoned_upholds (i : Fin 64) (s : State) : s.upholdsInto (execDeferralAbandoned i s) := by
  unfold execDeferralAbandoned
  split
  next r _ =>
    split
    · exact (s.abandonDeferral_keeps i r).into
    · exact s.upholdsInto_self
  next => exact s.upholdsInto_self

theorem execOverrideHoldExpiry_upholds (s : State) : s.upholdsInto (execOverrideHoldExpiry s) := by
  unfold execOverrideHoldExpiry
  split
  · exact s.upholdsInto_self
  · exact State.upholdsInto_of_eq

theorem execEpochEnd_upholds (s : State) : s.upholdsInto (execEpochEnd s) := by
  unfold execEpochEnd
  extract_lets formed
  have toFormed : s.Upholds formed := s.formDemands_keeps.upholds.toUpholdsTables.recomputeShares
  have cleared : formed.Keeps { formed with budget := { formed.budget with recompute := false } } :=
    .of_eq rfl rfl rfl rfl rfl rfl
  exact (toFormed.trans cleared.upholds).into

/-! ### The Desk Link -/

theorem execLanesAligned_upholds (s : State) : s.upholdsInto (execLanesAligned s) := by
  unfold execLanesAligned
  split
  · exact State.upholdsInto_of_eq
  · exact s.upholdsInto_self

theorem execLaneAlignmentLost_upholds (lane : Fin 2) (s : State) : s.upholdsInto (execLaneAlignmentLost lane s) := by
  unfold execLaneAlignmentLost
  split
  · extract_lets link lost
    have toLost : s.Keeps lost := .of_eq rfl rfl rfl rfl rfl rfl
    split
    · exact toLost.into
    · exact State.upholdsInto_of_eq rfl rfl rfl rfl rfl rfl
    · exact (toLost.trans lost.leaveUp_keeps).into
  · exact s.upholdsInto_self

theorem execHelloRepeatTimerExpiry_upholds (s : State) : s.upholdsInto (execHelloRepeatTimerExpiry s) := by
  unfold execHelloRepeatTimerExpiry
  split
  · exact State.upholdsInto_of_eq
  · exact s.upholdsInto_self

theorem execAligningTimerExpiry_upholds (s : State) : s.upholdsInto (execAligningTimerExpiry s) := by
  unfold execAligningTimerExpiry
  split
  next e _ _ =>
    extract_lets left
    have toLeft : s.Keeps left := (s.reachTime_keeps e).trans (.of_eq rfl rfl rfl rfl rfl rfl)
    refine State.Keeps.into (toLeft.trans ?_)
    exact .of_eq rfl rfl rfl rfl rfl rfl
  next => exact s.upholdsInto_self

theorem execHello_upholds (version : Byte) (s : State) : s.upholdsInto (execHello version s) := by
  unfold execHello
  split
  · exact s.upholdsInto_self
  · split
    · exact s.enterUp_keeps.into
    · exact State.upholdsInto_of_eq rfl rfl rfl rfl rfl rfl
  · exact s.upholdsInto_self

theorem execFrameEnd_upholds (s : State) : s.upholdsInto (execFrameEnd s) := by
  unfold execFrameEnd
  split
  · exact s.upholdsInto_self
  · exact (s.endFrame_keeps.trans (.after (t := { s.endFrame with link := { s.endFrame.link with wire := .idle } })
      (State.sendDecision_keeps _) rfl rfl rfl rfl rfl rfl)).into

theorem execSet_upholds (setting head : Byte) (value : BitVec 64) (s : State) :
    s.upholdsInto (execSet setting head value s) := by
  unfold execSet
  split
  · split
    · exact State.upholdsInto_of_eq
    · exact State.upholdsInto_of_eq
  · exact s.upholdsInto_self

theorem execApply_upholds (s : State) : s.upholdsInto (execApply s) := by
  unfold execApply
  split
  · exact State.upholdsInto_of_eq
  · exact s.upholdsInto_self

theorem State.offerAnswer_keeps (s : State) (id : BitVec 16) (valid : Bool) (value : BitVec 64) :
    s.Keeps (s.offerAnswer id valid value) := .of_eq

theorem execReadRequest_upholds (id : BitVec 16) (item head flags : Byte) (s : State) :
    s.upholdsInto (execReadRequest id item head flags s) := by
  unfold execReadRequest
  split
  · have cleared : s.Keeps (if flags.getLsbD 1 then s.clearItem item head else s) :=
      .ite (s.clearItem_keeps item head) (.refl s)
    exact ((cleared.trans (State.offerAnswer_keeps _ _ _ _)).trans (State.sendDecision_keeps _)).into
  · exact s.upholdsInto_self

theorem execClear_upholds (events : BitVec 16) (s : State) : s.upholdsInto (execClear events s) := by
  unfold execClear
  split
  · exact State.upholdsInto_of_eq
  · exact s.upholdsInto_self

theorem execResync_upholds (head : Byte) (s : State) : s.upholdsInto (execResync head s) := by
  unfold execResync
  split
  next h _ _ =>
    split
    · exact ((s.markEach_keeps (s.heads.look h).flipSet).trans (.updHead _ h _ Head.requalified_allExact)).into
    · exact s.upholdsInto_self
  next => exact s.upholdsInto_self

/-! ### The Input Relay -/

theorem execKeys_upholds (modifiers : Byte) (codes : Table 6 Byte) (s : State) :
    s.upholdsInto (execKeys modifiers codes s) := by
  unfold execKeys
  split
  · dsimp only
    split
    · exact State.upholdsInto_of_eq
    · exact State.upholdsInto_of_eq
  · exact s.upholdsInto_self

theorem State.interact_keeps (s : State) (i : Interaction) : s.Keeps (s.interact i) := .of_eq

theorem execPointer_upholds (x y : BitVec 16) (buttons wheel : Byte) (s : State) :
    s.upholdsInto (execPointer x y buttons wheel s) := by
  unfold execPointer
  split
  · extract_lets px py b moved pressed afterMotion afterButtons positioned
    have toMotion : s.Keeps afterMotion := .ite (s.interact_keeps _) (.refl s)
    have toButtons : afterMotion.Keeps afterButtons := .ite (afterMotion.interact_keeps _) (.refl _)
    have toPositioned : afterButtons.Keeps positioned := .of_eq rfl rfl rfl rfl rfl rfl
    have offered : positioned.Keeps (positioned.offerPointer px py b (pointerWheel wheel)) := .of_eq
    exact (((toMotion.trans toButtons).trans toPositioned).trans offered).into
  · exact s.upholdsInto_self

theorem execInputFrameEnd_upholds (s : State) : s.upholdsInto (execInputFrameEnd s) := by
  unfold execInputFrameEnd
  split
  · exact s.upholdsInto_self
  · exact State.upholdsInto_of_eq rfl rfl rfl rfl rfl rfl

theorem State.raise_keeps (s : State) (e : Event) : s.Keeps (s.raise e) := .of_eq

theorem execLamp_upholds (set : Byte) (s : State) : s.upholdsInto (execLamp set s) := by
  unfold execLamp
  extract_lets overrun received
  have toOverrun : s.Keeps overrun := .ite (s.raise_keeps _) (.refl s)
  have toReceived : s.Keeps received := toOverrun.trans (.of_eq rfl rfl rfl rfl rfl rfl)
  split
  · exact ((toReceived.trans (received.offerLamp_keeps set)).trans (State.sendDecision_keeps _)).into
  · exact toReceived.into

/-! ### A step -/

/-- Each command goes on and upholds the tables. -/
theorem exec_upholds (c : Instr) (s : State) : s.upholdsInto (exec c s) := by
  cases c with
  | partReset p line ready => exact execPartReset_upholds p line ready s
  | activate rank bank row => exact exec_rank_upholds rfl s
  | precharge rank bank => exact exec_rank_upholds rfl s
  | prechargeAll rank => exact exec_rank_upholds rfl s
  | write rank bank column chop => exact exec_rank_upholds rfl s
  | writeAutoPrecharge rank bank column chop => exact exec_rank_upholds rfl s
  | read rank bank column chop => exact exec_rank_upholds rfl s
  | readAutoPrecharge rank bank column chop => exact exec_rank_upholds rfl s
  | refresh rank => exact exec_rank_upholds rfl s
  | modeSet n v => exact execModeSet_upholds n v s
  | calibrate rank => exact s.upholdsInto_self
  | powerDownEntry rank => exact exec_rank_upholds rfl s
  | powerDownExit rank => exact exec_rank_upholds rfl s
  | selfRefreshEntry rank => exact exec_rank_upholds rfl s
  | selfRefreshExit rank => exact exec_rank_upholds rfl s
  | noOp => exact s.upholdsInto_self
  | memoryReset => exact s.assertMemoryReset_keeps.into
  | memoryResetRelease => exact State.upholdsInto_of_eq rfl rfl rfl rfl rfl rfl
  | observedWrite o => exact execObservedWrite_upholds o s
  | observedRead o => exact execObservedRead_upholds o s
  | encodeCompletion => exact execEncodeCompletion_upholds s
  | stallTimerExpiry h => exact execStallTimerExpiry_upholds h s
  | tick => exact s.takeTick_upholds.into
  | epochEnd => exact execEpochEnd_upholds s
  | deferralAbandoned i => exact execDeferralAbandoned_upholds i s
  | overrideHoldExpiry => exact execOverrideHoldExpiry_upholds s
  | lanesAligned => exact execLanesAligned_upholds s
  | laneAlignmentLost lane => exact execLaneAlignmentLost_upholds lane s
  | helloRepeatTimerExpiry => exact execHelloRepeatTimerExpiry_upholds s
  | aligningTimerExpiry => exact execAligningTimerExpiry_upholds s
  | frameEnd => exact execFrameEnd_upholds s
  | hello version => exact execHello_upholds version s
  | keys modifiers codes => exact execKeys_upholds modifiers codes s
  | pointer x y buttons wheel => exact execPointer_upholds x y buttons wheel s
  | set setting head value => exact execSet_upholds setting head value s
  | apply => exact execApply_upholds s
  | readRequest id item head flags => exact execReadRequest_upholds id item head flags s
  | clear events => exact execClear_upholds events s
  | resync head => exact execResync_upholds head s
  | badUpstreamFrame defect => exact State.upholdsInto_of_eq
  | readyLevelRise => exact State.upholdsInto_of_eq rfl rfl rfl rfl rfl rfl
  | readyLevelFall => exact State.upholdsInto_of_eq rfl rfl rfl rfl rfl rfl
  | inputFrameEnd => exact execInputFrameEnd_upholds s
  | lamp set => exact execLamp_upholds set s
  | inputLineBadFrame defect => exact State.upholdsInto_of_eq

/-- A step upholds the tables. -/
theorem step_upholds {s t : State} (h : step s = .next t) : s.Upholds t := by
  unfold step at h
  split at h
  · obtain rfl := Host.Outcome.next.inj h
    have passed : s.Keeps s.passMicrosecond := .of_eq rfl rfl rfl rfl rfl rfl
    exact passed.upholds
  next c rest _ =>
    obtain ⟨u, hu, upholds⟩ := exec_upholds c { s with pending := rest }
    obtain rfl := Host.Outcome.next.inj (h.symm.trans hu)
    have popped : s.Keeps { s with pending := rest } := .of_eq rfl rfl rfl rfl rfl rfl
    exact popped.upholds.trans upholds

/-- Settles O57: a step is a chain of operations of which each upholds the surface table. -/
theorem surfacesStaySound : Obligations.SurfacesStaySound := fun _ _ hs h => (step_upholds h).surfaces hs

/-- Settles O58: a step is a chain of operations of which each upholds the head table, the modes and the shares. -/
theorem headsAndSharesStaySound : Obligations.HeadsAndSharesStaySound :=
  ⟨fun _ _ hs h => (step_upholds h).heads hs, fun _ _ hs h => (step_upholds h).tracking hs,
    fun _ _ hs spends h => (step_upholds h).shares hs spends⟩

end Sys2Proof.Machine
end

section
/-! SUPPORT. What a commit concludes (R29 to R32). -/

namespace Sys2Proof.Machine

/-! ### The descriptor slots -/

theorem State.loseShown_descriptors (h : Fin 4) (s : State) : (s.loseShown h).descriptors = s.descriptors := by
  simp [State.loseShown_eq, State.hideShown]

theorem State.regrow_descriptors (h : Fin 4) (g : Geometry) (queued : Bool) (s : State) :
    (s.regrow h g queued).descriptors = s.descriptors := by
  rw [State.regrow_eq]
  cases queued <;> simp [State.reshapeHead]

theorem State.redeclare_descriptors (id : Fin 16) (old f : Surface) (s : State) :
    (s.redeclare id old f).descriptors = s.descriptors := by
  have entered : ∀ g, (s.replaceEntry id g).descriptors = s.descriptors := fun g => by
    simp [State.replaceEntry, State.declare]
  cases ho : old.owner with
  | none => rw [State.redeclare_unowned ho, entered]
  | some h =>
    have lost : ∀ w : State, (w.afterLoss id h).descriptors = w.descriptors := fun w => by
      unfold State.afterLoss
      split
      · exact w.loseShown_descriptors h
      · rfl
    rw [State.redeclare_owned ho]
    dsimp only
    split
    · rw [State.regrow_descriptors, lost, entered]
    · rw [lost, entered]

theorem State.rebudget_descriptors (h : Fin 4) (fresh : Bool) (s : State) :
    (s.rebudget h fresh).descriptors = s.descriptors := by
  cases fresh <;> rfl

/-- A descriptor changes no slot (R31). -/
theorem State.applyDescriptor_descriptors (d : DescriptorSlot) (s : State) :
    (s.applyDescriptor d).descriptors = s.descriptors := by
  have disowned : ∀ ids, (s.disown ids).descriptors = s.descriptors := fun ids => by simp [State.disown]
  unfold State.applyDescriptor
  split
  next =>
    unfold State.takeSurface
    split
    next => rfl
    next id f _ =>
      split
      next => rfl
      next old _ => exact s.redeclare_descriptors id old f
  next =>
    unfold State.takeHead
    split
    next => rfl
    next h ids _ =>
      rw [State.defineHead_eq, State.rebudget_descriptors]
      simp [State.enlist, disowned]
  next =>
    unfold State.takeWithdrawSurface
    split <;> rfl
  next =>
    unfold State.takeWithdrawHead
    split
    next => rfl
    next h _ =>
      split
      · rw [State.removeHead_eq, State.rebudget_descriptors]
        simp [State.vacate, disowned]
      · rfl
  next => rfl

/-! ### Whole descriptors (R30) -/

/-- The bytes that a descriptor of each kind must have seen (R30). -/
theorem DescriptorSlot.mem_required {d : DescriptorSlot} {b : Nat} :
    b ∈ d.required ↔ b = 0 ∨ b = 1 ∨ ((d.byte 0).toNat = 1 ∧ 4 ≤ b ∧ b ≤ 23) ∨
      ((d.byte 0).toNat = 2 ∧ (b = 4 ∨ b = 5 ∨
        (1 ≤ (d.byte 5).toNat ∧ (d.byte 5).toNat ≤ 3 ∧ 6 ≤ b ∧ b ≤ 5 + (d.byte 5).toNat))) ∨
      (((d.byte 0).toNat = 3 ∨ (d.byte 0).toNat = 4) ∧ b = 4) := by
  have shifted : ∀ n k, b ∈ (List.range n).map (· + k) ↔ k ≤ b ∧ b < n + k := fun n k => by
    simp only [List.mem_map, List.mem_range]
    exact ⟨fun ⟨a, ha, e⟩ => by omega, fun ⟨hk, hn⟩ => ⟨b - k, by omega, by omega⟩⟩
  unfold DescriptorSlot.required
  split
  next =>
    simp only [List.mem_append, shifted, List.mem_cons, List.not_mem_nil, or_false]
    omega
  next =>
    simp only [List.mem_append, List.mem_cons, List.not_mem_nil, or_false]
    split
    next =>
      rw [shifted]
      omega
    next =>
      simp only [List.not_mem_nil, or_false]
      omega
  next =>
    simp only [List.mem_cons, List.not_mem_nil, or_false]
    omega
  next =>
    simp only [List.mem_cons, List.not_mem_nil, or_false]
    omega
  next not1 not2 not3 not4 =>
    have other : (d.byte 0).toNat ≠ 1 ∧ (d.byte 0).toNat ≠ 2 ∧ (d.byte 0).toNat ≠ 3 ∧ (d.byte 0).toNat ≠ 4 :=
      ⟨not1, not2, not3, not4⟩
    simp only [List.mem_cons, List.not_mem_nil, or_false]
    omega

theorem DescriptorSlot.complete_iff {d : DescriptorSlot} :
    d.complete = true ↔ d.byte 1 = d.byte 56 ∧ d.byte 1 ≠ 0 ∧ ∀ b ∈ d.required, d.seen.getLsbD b = true := by
  simp only [DescriptorSlot.complete, Bool.and_eq_true, decide_eq_true_eq, List.all_eq_true, and_assoc]

/-- Settles O16: the outcome by the kind of the descriptor, and what a commit that is not ignored ends with. -/
theorem commitIsConcluded : Obligations.CommitIsConcluded := by
  intro s i d o kind n required complete slots notice
  have whole : d.complete = true ↔ complete := by
    rw [DescriptorSlot.complete_iff]
    exact and_congr_right fun _ => and_congr_right fun _ => forall_congr' fun b =>
      imp_congr_left DescriptorSlot.mem_required
  refine ⟨fun part => ?_, fun h => ?_, fun taken => ?_, fun refused => ?_⟩
  · have partial_ : (!d.complete) = true := by simpa using mt whole.1 part
    exact if_pos partial_
  · have outcome : o = _ := if_neg (by simpa using whole.2 h)
    refine ⟨fun other => ?_, fun k => ?_, fun k => ?_, fun k => ?_, fun k => ?_⟩
    · rw [outcome]
      split
      case h_5 => rfl
      all_goals omega
    · exact ⟨outcome.trans (by simp only [show (d.byte 0).toNat = 1 from k]),
        by simp only [State.applyDescriptor, show (d.byte 0).toNat = 1 from k]⟩
    · exact ⟨outcome.trans (by simp only [show (d.byte 0).toNat = 2 from k]),
        by simp only [State.applyDescriptor, show (d.byte 0).toNat = 2 from k]⟩
    · exact ⟨outcome.trans (by simp only [show (d.byte 0).toNat = 3 from k]),
        by simp only [State.applyDescriptor, show (d.byte 0).toNat = 3 from k]⟩
    · exact ⟨outcome.trans (by simp only [show (d.byte 0).toNat = 4 from k]),
        by simp only [State.applyDescriptor, show (d.byte 0).toNat = 4 from k]⟩
  · have check : s.checkCommit d = .taken := taken
    have sent : notice = .outcome i (d.byte 56) .taken := congrArg (Notice.outcome i (d.byte 56)) taken
    rw [sent]
    simp only [State.conclude, check, if_true, State.applyDescriptor_descriptors]
    rfl
  · have check : s.checkCommit d ≠ .taken := refused
    simp only [State.conclude, if_neg check]
    rfl

end Sys2Proof.Machine
end

section
/-! SUPPORT. An observed write in a surface (R46, R50, R97). -/

namespace Sys2Proof.Machine

/-! ### The surface and the tile of a byte (R46) -/

theorem Surface.contains_iff {f : Surface} {a : Nat} : f.contains a = true ↔ f.base ≤ a ∧ a < f.limit := by
  simp only [Surface.contains, Bool.and_eq_true, decide_eq_true_eq]

/-- In a sound table at most one surface holds a byte (R36). -/
theorem State.surfacesSound.contains_inj {s : State} (hs : s.surfacesSound) {i j : Fin 16} {f g : Surface} {a : Nat}
    (hf : s.surfaces.look i = some f) (hg : s.surfaces.look j = some g) (inF : f.contains a = true)
    (inG : g.contains a = true) : i = j := by
  by_contra other
  obtain ⟨-, -, apart⟩ := hs.1 i f hf
  rw [Surface.contains_iff] at inF inG
  have meet : rangesMeet f.base f.limit g.base g.limit = true := by
    simp only [rangesMeet, Bool.and_eq_true, decide_eq_true_eq]
    omega
  exact Bool.false_ne_true ((apart j (Ne.symm other) g hg).symm.trans meet)

theorem State.surfaceAt_eq_some {s : State} (hs : s.surfacesSound) {a : Nat} {id : Fin 16} :
    s.surfaceAt a = some id ↔ ∃ f, s.surfaces.look id = some f ∧ f.contains a = true := by
  have holds : ∀ {j}, s.surfaceAt a = some j → ∃ f, s.surfaces.look j = some f ∧ f.contains a = true := by
    intro j found
    have inside := List.find?_some found
    split at inside
    next f hf => exact ⟨f, hf, inside⟩
    next => exact absurd inside Bool.false_ne_true
  refine ⟨holds, fun ⟨f, hf, inF⟩ => ?_⟩
  have found : (s.surfaceAt a).isSome = true :=
    List.find?_isSome.2 ⟨id, List.mem_finRange id, by simp only [hf, inF]⟩
  obtain ⟨j, hj⟩ := Option.isSome_iff_exists.1 found
  obtain ⟨g, hg, inG⟩ := holds hj
  exact hj.trans (congrArg some (hs.contains_inj hg hf inG inF))

theorem State.tileOfByte_eq_some {s : State} (hs : s.surfacesSound) {a : Nat} {id : Fin 16} {c r : Nat} :
    s.tileOfByte a = some (id, c, r) ↔
      ∃ f, s.surfaces.look id = some f ∧ f.base ≤ a ∧ a - f.base < f.pitch * f.geometry.height ∧
        (a - f.base) % f.pitch < f.geometry.lineBytes ∧
        c = (a - f.base) % f.pitch / f.geometry.format.bytesPerPixel / 32 ∧ r = (a - f.base) / f.pitch / 32 := by
  have inside : ∀ f : Surface, f.contains a = true ↔ f.base ≤ a ∧ a - f.base < f.pitch * f.geometry.height := fun f => by
    rw [Surface.contains_iff, Surface.limit]
    omega
  constructor
  · intro tile
    unfold State.tileOfByte at tile
    split at tile
    next => exact absurd tile.symm (Option.some_ne_none _)
    next j hj =>
      obtain ⟨f, hf, inF⟩ := (State.surfaceAt_eq_some hs).1 hj
      simp only [hf] at tile
      split at tile
      next => exact absurd tile.symm (Option.some_ne_none _)
      next inLine =>
        obtain ⟨rfl, rfl, rfl⟩ : j = id ∧ _ = c ∧ _ = r := by simpa using tile
        obtain ⟨low, high⟩ := (inside f).1 inF
        exact ⟨f, hf, low, high, Nat.not_le.1 inLine, rfl, rfl⟩
  · rintro ⟨f, hf, low, high, inLine, rfl, rfl⟩
    have at_ : s.surfaceAt a = some id := (State.surfaceAt_eq_some hs).2 ⟨f, hf, (inside f).2 ⟨low, high⟩⟩
    simp only [State.tileOfByte, at_, hf, if_neg (Nat.not_le.2 inLine)]

/-- The tile of a byte lies in its surface's grid. -/
theorem State.hasTileAt_of_tileOfByte {s : State} (hs : s.surfacesSound) {a : Nat} {id : Fin 16} {c r : Nat}
    (tile : s.tileOfByte a = some (id, c, r)) : s.hasTileAt id c r := by
  obtain ⟨f, hf, -, high, inLine, rfl, rfl⟩ := (State.tileOfByte_eq_some hs).1 tile
  obtain ⟨-, -, -, -, -, -, -, -, -, marks⟩ := (hs.1 id f hf).1
  have bpp : 0 < f.geometry.format.bytesPerPixel := by cases f.geometry.format <;> decide
  have column : (a - f.base) % f.pitch / f.geometry.format.bytesPerPixel < f.geometry.width :=
    (Nat.div_lt_iff_lt_mul bpp).2 inLine
  have line : (a - f.base) / f.pitch < f.geometry.height := Nat.div_lt_of_lt_mul high
  refine ⟨f, hf, marks, (Geometry.hasTile_iff ..).2 ⟨?_, ?_⟩⟩
  · unfold Geometry.tileColumns
    omega
  · unfold Geometry.tileRows
    omega

/-! ### Marks, tears and counts (R50, R97) -/

/-- A marking of a tile leaves every other tile's mark. -/
theorem State.isStale_markStale_ne {s : State} {id id' : Fin 16} {c r c' r' : Nat}
    (h : (id', c', r') ≠ (id, c, r)) : (s.markStale id c r).isStale id' c' r' = s.isStale id' c' r' := by
  by_cases e : id' = id
  · subst e
    have other : ¬ (c' = c ∧ r' = r) := fun ⟨hc, hr⟩ => h (by rw [hc, hr])
    simp only [State.markStale, State.isStale, State.updSurface_surfaces, Table.look_upd_self]
    cases s.surfaces.look id' with
    | none => rfl
    | some f =>
      simp only [Option.map_some, Surface.withMark]
      split
      next tile =>
        simp only [Surface.isStale]
        cases tile' : f.geometry.hasTile c' r' with
        | false => rfl
        | true =>
          have ne : f.geometry.tileIndex c r ≠ f.geometry.tileIndex c' r' := fun same => by
            obtain ⟨hc, hr⟩ := Geometry.tileIndex_inj tile tile' same
            exact other ⟨hc.symm, hr.symm⟩
          simp only [List.getD_eq_getElem?_getD, List.getElem?_set_ne ne]
      next => rfl
  · simp only [State.markStale, State.isStale, State.updSurface_surfaces, Table.look_upd_ne _ e]

/-- The live record of a tile, when it has one. -/
theorem State.liveSlot_eq_some {s : State} (hu : s.recordsUnique) {i : Fin 64} {q : Record}
    (hq : s.slots.look i = some q) : s.liveSlot q.surface q.column q.row = some i := by
  cases found : s.liveSlot q.surface q.column q.row with
  | none => exact absurd ⟨rfl, rfl, rfl⟩ ((State.liveSlot_eq_none_iff ..).1 found i q hq)
  | some j =>
    have named := List.find?_some found
    split at named
    next r hr =>
      simp only [Bool.and_eq_true, beq_iff_eq, and_assoc] at named
      obtain ⟨surface, column, row⟩ := named
      exact congrArg some (hu j i r hr q hq surface column row)
    next => exact absurd named Bool.false_ne_true

/-- A CAPTURING record of the tile is torn. -/
theorem State.tear_capturing {s : State} (hu : s.recordsUnique) {i : Fin 64} {q : Record}
    (hq : s.slots.look i = some q) (capturing : q.state = .capturing) :
    s.tear q.surface q.column q.row = (s.freeSlot i).count .capturesTorn := by
  simp only [State.tear, State.liveSlot_eq_some hu hq, hq, capturing, if_true]

/-- Without a CAPTURING record of the tile nothing is torn. -/
theorem State.tear_of_none {s : State} {id : Fin 16} {c r : Nat}
    (none : ∀ i q, s.slots.look i = some q → q.surface = id → q.column = c → q.row = r → q.state ≠ .capturing) :
    s.tear id c r = s := by
  unfold State.tear
  split
  next => rfl
  next i found =>
    split
    next q hq =>
      have named := List.find?_some found
      simp only [hq, Bool.and_eq_true, beq_iff_eq, and_assoc] at named
      obtain ⟨surface, column, row⟩ := named
      exact if_neg (none i q hq surface column row)
    next => rfl

/-- A write to a surface changes the marks, the slots and the counters. -/
theorem State.surfaceWrite_rest (id : Fin 16) (c r : Nat) (s : State) : s.surfaceWrite id c r =
    { s with surfaces := (s.surfaceWrite id c r).surfaces, slots := (s.surfaceWrite id c r).slots,
             counters := (s.surfaceWrite id c r).counters } := by
  unfold State.surfaceWrite State.tear
  split
  · rfl
  · split
    · split <;> rfl
    · rfl

theorem State.surfaceWrite_surfaces (id : Fin 16) (c r : Nat) (s : State) :
    (s.surfaceWrite id c r).surfaces = (s.markStale id c r).surfaces := by
  simp [State.surfaceWrite]

/-- A write that tears a capture. -/
theorem State.surfaceWrite_capturing {s : State} (hu : s.recordsUnique) {i : Fin 64} {q : Record}
    (hq : s.slots.look i = some q) (capturing : q.state = .capturing) :
    s.surfaceWrite q.surface q.column q.row =
      (((s.markStale q.surface q.column q.row).freeSlot i).count .capturesTorn).count .surfaceWrites :=
  congrArg (State.count .surfaceWrites)
    (State.tear_capturing (s := s.markStale q.surface q.column q.row) hu hq capturing)

/-- A write that tears none. -/
theorem State.surfaceWrite_of_none {s : State} {id : Fin 16} {c r : Nat}
    (none : ∀ i q, s.slots.look i = some q → q.surface = id → q.column = c → q.row = r → q.state ≠ .capturing) :
    s.surfaceWrite id c r = (s.markStale id c r).count .surfaceWrites :=
  congrArg (State.count .surfaceWrites) (State.tear_of_none (s := s.markStale id c r) none)

/-- However it ends, a write to a surface is counted once. -/
theorem State.surfaceWrite_count (id : Fin 16) (c r : Nat) (s : State) :
    (s.surfaceWrite id c r).counters.surfaceWrites = saturatingAdd s.counters.surfaceWrites 1 := by
  unfold State.surfaceWrite State.tear
  split
  · rfl
  · split
    · split <;> rfl
    · rfl

/-- Settles O24: the first byte in a tile says which surface is marked; the record there, if CAPTURING, is torn. -/
theorem surfaceWriteMarksItsTile : Obligations.SurfaceWriteMarksItsTile := by
  intro s o b hs hu following hb outside bytes taken
  have step : ∀ u, taken.trackWrite b.address bytes = u → (bytes = [] → u = taken) →
      exec (.observedWrite o) s = .next u := by
    intro u track empty
    rw [exec_observedWrite hb]
    refine congrArg Host.Outcome.next ?_
    by_cases none : bytes = []
    · exact (if_neg fun k => k.2 none).trans (empty none).symm
    · refine (if_pos ⟨following, none⟩).trans (Eq.trans ?_ track)
      exact if_neg (by rw [show taken.straps.inArea b.address = false from outside]; exact Bool.false_ne_true)
  refine ⟨fun a id c r => State.tileOfByte_eq_some hs, fun none => ?_, fun id c r first => ?_⟩
  · have noTile : bytes.findSome? (fun x => taken.tileOfByte (b.address + x.1)) = Option.none :=
      List.findSome?_eq_none_iff.2 none
    exact step taken (by simp only [State.trackWrite, noTile]) fun _ => rfl
  · have track : taken.trackWrite b.address bytes = taken.surfaceWrite id c r := by
      have first' : bytes.findSome? (fun x => taken.tileOfByte (b.address + x.1)) = some (id, c, r) := first
      simp only [State.trackWrite, first']
    obtain ⟨x, -, tile⟩ := List.exists_of_findSome?_eq_some first
    refine ⟨_, step _ track fun empty => ?_, State.surfaceWrite_rest id c r taken, ?_, fun id' c' r' other => ?_,
      fun i q hq surface column row capturing => ?_, fun none => ?_, State.surfaceWrite_count id c r taken⟩
    · rw [empty] at first
      exact absurd first nofun
    · rw [State.isStale_of_surfaces (taken.surfaceWrite_surfaces id c r)]
      exact (State.isStale_markStale (State.hasTileAt_of_tileOfByte hs tile)).2 (.inr ⟨rfl, rfl, rfl⟩)
    · rw [State.isStale_of_surfaces (taken.surfaceWrite_surfaces id c r)]
      exact State.isStale_markStale_ne other
    · subst surface column row
      rw [State.surfaceWrite_capturing (s := taken) hu hq capturing]
      exact ⟨rfl, rfl⟩
    · rw [State.surfaceWrite_of_none (s := taken) none]
      exact ⟨rfl, rfl⟩

end Sys2Proof.Machine
end

section
/-! SUPPORT. Part reset and the blocks other than the Channel Follower (R8, R14, R15). -/

namespace Sys2Proof.Machine

/-! ### A channel lost with nothing under way -/

/-- With no live record an abandonment does nothing. -/
theorem State.abandonWhere_of_empty {s : State} (empty : ∀ i, s.slots.look i = none) (p : Record → Bool) :
    s.abandonWhere p = s := by
  unfold State.abandonWhere State.forSlots
  exact List.foldl_fixed' (fun i => by simp only [empty]) allSlots

/-- With every head OFF no follower is sent to SEEK. -/
theorem State.allToSeek_of_off {s : State} (off : ∀ h, s.isOn h = false) : s.allToSeek = s := by
  unfold State.allToSeek State.forHeads
  exact List.foldl_fixed' (fun h => by simp only [off, Bool.false_eq_true, if_false]) allHeads

theorem State.loseChannel_idle {s : State} (empty : ∀ i, s.slots.look i = none) (off : ∀ h, s.isOn h = false) :
    s.loseChannel = { s with channel := { s.channel with writeBursts := [], readBursts := [] } } := by
  unfold State.loseChannel
  have kept : ∀ v : State, v.slots = s.slots → v.abandonWhere (fun _ => true) = v := fun v hv =>
    State.abandonWhere_of_empty (fun i => by rw [hv, empty]) _
  have unsought : ∀ v : State, v.heads = s.heads → v.allToSeek = v := fun v hv =>
    State.allToSeek_of_off fun h => by rw [State.isOn, hv, ← State.isOn, off]
  extract_lets _ v
  rw [kept v rfl, unsought v rfl]

/-! ### Part reset -/

/-- The Desk Link after part reset, with MEMORY_RESET raised when the line is asserted. -/
def Link.fresh (p : Straps) (line : Bool) : Link := if line then (Link.reset p).raise .memoryReset else Link.reset p

/-- Everything of the Desk Link but the latches is at its reset value. -/
theorem Link.fresh_eq (p : Straps) (line : Bool) :
    Link.fresh p line = { Link.reset p with latches := (Link.fresh p line).latches, statusPending := line } := by
  cases line with
  | false => rfl
  | true => simp [Link.fresh, Link.raise, Link.reset, Settings.reset]

/-- Part reset leaves the state that the straps and the levels give, with only the Channel Follower's channel to say. -/
theorem execPartReset_fresh (p : Straps) (line ready : Bool) (s : State) :
    ∃ c : Channel, c.writeBursts = [] ∧ c.readBursts = [] ∧ exec (.partReset p line ready) s = .next
      { State.initial p line ready with
        channel := c
        link := Link.fresh p line
        relay := (Relay.reset ready).tryBegin
        pending := s.pending } := by
  cases line with
  | false => exact ⟨Channel.reset p, rfl, rfl, rfl⟩
  | true =>
    refine ⟨{ (Channel.reset p).heldInReset with writeBursts := [], readBursts := [] }, rfl, rfl, ?_⟩
    have off : ∀ h, (State.initial p true ready).isOn h = false := fun h => by
      rw [State.isOn, show (State.initial p true ready).heads.look h = Head.reset from Table.look_const _ h]
      rfl
    have held : State.assertMemoryReset { State.initial p true ready with pending := s.pending } = _ :=
      (State.assertMemoryReset_eq _).trans
        (congrArg (State.raise .memoryReset) (State.loseChannel_idle (fun i => Table.look_const none i) off))
    refine congrArg (fun t => Host.Outcome.next (State.updRelay Relay.tryBegin t)) held

/-- The RESTART notice waits in the queue, or is sent at once to a console that is ready. -/
theorem Relay.tryBegin_reset (ready : Bool) : (Relay.reset ready).tryBegin =
    { queue := if ready then [] else [.notice .restart]
      sending := if ready then some { entry := .notice .restart, lost := false } else none
      ready := ready, lost := false, heldModifiers := 0, heldKeys := [], position := none, buttons := 0,
      lamps := 0, lampPending := false, receiver := .hunting } := by
  cases ready <;> rfl

theorem State.held_of_empty {s : State} (empty : ∀ i, s.slots.look i = none) (h : Fin 4) : s.held h = 0 := by
  simp only [State.held, empty, List.countP_false]
  rfl

/-- Settles O5: every block but the Channel Follower is at its reset value, whatever it held. -/
theorem partResetEveryOtherBlock : Obligations.PartResetEveryOtherBlock := by
  intro p line ready s
  obtain ⟨c, writes, reads, step⟩ := execPartReset_fresh p line ready s
  refine ⟨_, step, rfl, writes, reads, ?_⟩
  have held := State.held_of_empty (s := { State.initial p line ready with
    channel := c
    link := Link.fresh p line
    relay := (Relay.reset ready).tryBegin
    pending := s.pending }) fun i => Table.look_const none i
  simp only [held]
  rw [Link.fresh_eq, Relay.tryBegin_reset]
  simp only [State.initial, Table.look_const]
  refine ⟨fun _ => ⟨rfl, trivial⟩, fun h => ⟨rfl, rfl, trivial, trivial, Table.look_const _ h, Table.look_const _ h,
    Table.look_tab _ h⟩, fun _ => trivial, trivial, trivial, rfl, rfl, rfl, rfl, rfl, rfl, rfl,
    fun l => ⟨Table.look_const _ l, Table.look_const _ l⟩, rfl, rfl, rfl, rfl, rfl, rfl, rfl, rfl, rfl, rfl, rfl, rfl,
    rfl, rfl, rfl, trivial, fun k => ?_, trivial⟩
  cases k <;> rfl

end Sys2Proof.Machine
end

end

section
-- One after another, as the theorems of the section before this one, for the same limit.
set_option Elab.async false

section
/-! SUPPORT. Two states are one when they agree field by field: with it the frame of an operation becomes an equation
between states. -/

namespace Sys2Proof.Machine

/-- States that agree in every field. -/
theorem State.eq_of_fields {s t : State} (straps : s.straps = t.straps := by simp)
    (memoryResetLine : s.memoryResetLine = t.memoryResetLine := by simp)
    (channel : s.channel = t.channel := by simp) (descriptors : s.descriptors = t.descriptors := by simp)
    (surfaces : s.surfaces = t.surfaces := by simp) (heads : s.heads = t.heads := by simp)
    (scans : s.scans = t.scans := by simp) (slots : s.slots = t.slots := by simp)
    (rovers : s.rovers = t.rovers := by simp) (encodeQueue : s.encodeQueue = t.encodeQueue := by simp)
    (encoder : s.encoder = t.encoder := by simp) (budget : s.budget = t.budget := by simp)
    (link : s.link = t.link := by simp) (relay : s.relay = t.relay := by simp)
    (counters : s.counters = t.counters := by simp) (pending : s.pending = t.pending := by simp) : s = t := by
  cases s
  cases t
  simp only [State.mk.injEq]
  exact ⟨straps, memoryResetLine, channel, descriptors, surfaces, heads, scans, slots, rovers, encodeQueue, encoder,
    budget, link, relay, counters, pending⟩

/-- Budgets that agree in every field. -/
theorem Budget.eq_of_fields {b c : Budget} (now : b.now = c.now := by simp) (tickAt : b.tickAt = c.tickAt := by simp)
    (epochTicks : b.epochTicks = c.epochTicks := by simp) (heads : b.heads = c.heads := by simp)
    (recompute : b.recompute = c.recompute := by simp)
    (overrideActive : b.overrideActive = c.overrideActive := by simp) (hold : b.hold = c.hold := by simp) : b = c := by
  cases b
  cases c
  simp only [Budget.mk.injEq]
  exact ⟨now, tickAt, epochTicks, heads, recompute, overrideActive, hold⟩

/-- Links that agree in every field. -/
theorem Link.eq_of_fields {k l : Link} (state : k.state = l.state := by simp)
    (acquired : k.acquired = l.acquired := by simp) (arriving : k.arriving = l.arriving := by simp)
    (aligned : k.aligned = l.aligned := by simp) (aligningAt : k.aligningAt = l.aligningAt := by simp)
    (helloAt : k.helloAt = l.helloAt := by simp) (control : k.control = l.control := by simp)
    (send : k.send = l.send := by simp) (wire : k.wire = l.wire := by simp)
    (lastServed : k.lastServed = l.lastServed := by simp) (staged : k.staged = l.staged := by simp)
    (current : k.current = l.current := by simp) (applyRequest : k.applyRequest = l.applyRequest := by simp)
    (latches : k.latches = l.latches := by simp) (statusPending : k.statusPending = l.statusPending := by simp) :
    k = l := by
  cases k
  cases l
  simp only [Link.mk.injEq]
  exact ⟨state, acquired, arriving, aligned, aligningAt, helloAt, control, send, wire, lastServed, staged, current,
    applyRequest, latches, statusPending⟩

end Sys2Proof.Machine
end

section
/-! SUPPORT. A desk resync (R59), and the abandonment of a deferral (R134). -/

namespace Sys2Proof.Machine

/-! ### A desk resync -/

/-- RESYNC while the link is UP, for a head that is not OFF (R59). -/
theorem execResync_on {s : State} {q : Byte} {h : Fin 4} (up : s.link.state = .up) (number : q.toNat = h.1)
    (on : (s.heads.look h).state ≠ .off) :
    execResync q s = .next ((s.markEach (s.heads.look h).flipSet).updHead h Head.allExact) := by
  simp only [execResync, up, headOf_eq_some.2 number, State.isOn, on, ne_eq, not_false_eq_true, decide_true, if_true]

/-- Settles O50, by the head's number and whether it is OFF. -/
theorem deskResyncRequest : Obligations.DeskResyncRequest := by
  intro s q up
  refine ⟨fun out => ?_, fun h number => ⟨fun off => ?_, fun g on geometry => ?_⟩⟩
  · simp only [exec, execResync, up, headOf_eq_none.2 out]
  · simp [exec, execResync, up, headOf_eq_some.2 number, State.isOn, off]
  · refine (execResync_on up number on).trans (congrArg Host.Outcome.next ?_)
    have marked : (s.markEach (s.heads.look h).flipSet).surfaces = Table.tab fun id =>
        if id ∈ (s.heads.look h).flipSet then (s.surfaces.look id).map fun f =>
          { f with stale := List.replicate f.geometry.tileCount true }
        else s.surfaces.look id :=
      Table.ext_look fun id => by rw [State.markEach_look, Table.look_tab]; rfl
    exact State.eq_of_fields (surfaces := marked) (heads := by simp [Table.upd, Head.allExact, geometry])

/-! ### The abandonment of a deferral -/

/-- A DEFERRED record whose waiting ends is abandoned, and until then only ages (R133). -/
theorem State.ageDeferred_of_look {s : State} {i : Fin 64} {r : Record} (hr : s.slots.look i = some r) :
    s.ageDeferred i = if 31 ≤ r.age then s.abandonDeferral i r
      else { s with slots := s.slots.put i (some { r with age := r.age + 1 }) } := by
  have due : 32 ≤ r.age + 1 ↔ 31 ≤ r.age := by omega
  simp only [State.ageDeferred, hr, due]
  split
  · rfl
  · simp only [State.updRecord, Table.upd, hr, Option.map_some]

/-- A marking of a tile that an entry does not have, or of an EMPTY entry, keeps the entry (R49). -/
theorem State.markStale_look_of_out {s : State} {id : Fin 16} {c w : Nat}
    (out : ∀ f, s.surfaces.look id = some f → f.geometry.hasTile c w = false) :
    (s.markStale id c w).surfaces.look id = s.surfaces.look id := by
  simp only [State.markStale, State.updSurface_surfaces, Table.look_upd_self]
  cases hf : s.surfaces.look id with
  | none => rfl
  | some f => simp only [Option.map_some, Surface.withMark, out f hf, Bool.false_eq_true, if_false]

/-- Settles O39: the abandonment is a release, a count and an event, at age 32 and where the command stands alone. -/
theorem deferralAbandonment : Obligations.DeferralAbandonment := by
  intro s i
  refine ⟨fun none => ?_, fun r hr deferred => ?_⟩
  · cases hr : s.slots.look i with
    | none => simp only [exec, execDeferralAbandoned, hr]
    | some r => simp only [exec, execDeferralAbandoned, hr, none r hr, if_false]
  · intro b
    have alone : exec (.deferralAbandoned i) s = .next (s.abandonDeferral i r) := by
      simp only [exec, execDeferralAbandoned, hr, deferred, if_true]
    refine ⟨fun young => ?_, fun old => ?_, s.abandonDeferral i r, alone, rfl,
      State.onlyMarks_markStale s r.surface r.column r.row, fun id other => s.markStale_look_ne other _ _,
      fun empty => ?_, fun f hf out => ?_, fun f hf inside marks => ⟨?_, fun c w other => ?_⟩⟩
    · rw [State.ageDeferred_of_look hr, if_neg (by omega)]
    · rw [alone, State.ageDeferred_of_look hr, if_pos old]
    · exact (State.markStale_look_of_out (by simp [empty])).trans empty
    · exact (State.markStale_look_of_out (by simp [hf, out])).trans hf
    · exact (State.isStale_markStale ⟨f, hf, marks, inside⟩).2 (.inr ⟨rfl, rfl, rfl⟩)
    · exact State.isStale_markStale_ne fun same => other (Prod.mk.inj same).2

end Sys2Proof.Machine
end

section
/-! SUPPORT. The withdrawal of records (R62 to R65, R73, R58). -/

namespace Sys2Proof.Machine

/-- A change of one head's budget that keeps everything but its deferral list. -/
def HeadBudget.undeferred (b : HeadBudget) : HeadBudget := { b with deferred := [] }

/-- The withdrawal of one record refunds no charge and changes no accumulator (R62). -/
theorem State.withdrawSlot_undeferred (s : State) (i : Fin 64) (h : Fin 4) :
    ((s.withdrawSlot i).budget.heads.look h).undeferred = (s.budget.heads.look h).undeferred := by
  unfold State.withdrawSlot
  split
  next => rfl
  next r _ =>
    cases r.state
    case deferred =>
      by_cases own : h = r.head
      · subst own
        simp [State.dropDeferred, HeadBudget.undeferred]
      · simp [State.dropDeferred, Table.look_upd_ne _ own]
    all_goals simp

/-- Budgets that agree but for the deferral list. -/
theorem HeadBudget.eq_of_undeferred {b c : HeadBudget} (h : b.undeferred = c.undeferred) :
    b = { c with deferred := b.deferred } := by
  cases b
  cases c
  simpa [HeadBudget.undeferred] using h

/-- A withdrawal changes of the budgets the deferral lists alone (R62). -/
theorem State.withdrawWhere_budget (p : Record → Bool) (s : State) (h : Fin 4) :
    (s.withdrawWhere p).budget.heads.look h = { s.budget.heads.look h with
      deferred := ((s.withdrawWhere p).budget.heads.look h).deferred } := by
  have each : ∀ (t : State) i, ((t.withdrawNamed p i).budget.heads.look h).undeferred =
      (t.budget.heads.look h).undeferred := by
    intro t i
    unfold State.withdrawNamed
    split
    · split
      · exact t.withdrawSlot_undeferred i h
      · rfl
    · rfl
  have kept := foldl_keeps (fun t : State => (t.budget.heads.look h).undeferred)
    (fun t i => State.withdrawNamed p i t) each allSlots s
  rw [← State.forSlots, ← State.withdrawWhere_eq] at kept
  exact HeadBudget.eq_of_undeferred kept

/-- What a withdrawal can change (R62 to R65). -/
theorem State.withdrawWhere_rest (p : Record → Bool) (s : State) :
    s.withdrawWhere p = { s with
      slots := (s.withdrawWhere p).slots
      surfaces := (s.withdrawWhere p).surfaces
      encodeQueue := (s.withdrawWhere p).encodeQueue
      budget := { s.budget with heads := (s.withdrawWhere p).budget.heads }
      link := { s.link with send := (s.withdrawWhere p).link.send }
      counters := { s.counters with capturesAbandoned := (s.withdrawWhere p).counters.capturesAbandoned } } :=
  State.eq_of_fields (budget := Budget.eq_of_fields) (link := Link.eq_of_fields)
    (counters := State.withdrawWhere_counters p s)

/-- A flip withdraws the records of the surface left, and the head shows the new one (R73). -/
theorem State.frameStartHead_of_shown {s : State} {h : Fin 4} {old : Fin 16} (shown : (s.heads.look h).shown = some old)
    (id : Fin 16) : s.frameStartHead h id = (if old = id then s else s.withdrawSurface old).updHead h
      fun d => { d with state := .showing, shown := some id } := by
  simp only [State.frameStartHead, shown]

/-- A withdrawal that names no SENDING record and one that names them all do the same (R65). -/
theorem State.withdraws_of_sending {s t : State} {p q : Record → Bool} (h : s.withdraws p t)
    (same : ∀ r, r.state ≠ .sending → p r = q r) : s.withdraws q t := by
  have after : ∀ r, Record.afterWithdrawal p r = Record.afterWithdrawal q r := by
    intro r
    by_cases sending : r.state = .sending
    · simp [Record.afterWithdrawal, sending]
    · simp only [Record.afterWithdrawal, same r sending]
  have holds : ∀ (x : RecordState), x ≠ .sending → ∀ (m : Record → Bool) i,
      s.holds x (fun r => p r && m r) i = s.holds x (fun r => q r && m r) i := by
    intro x notSending m i
    unfold State.holds
    split
    next r _ =>
      by_cases hx : r.state = x
      · simp only [same r (hx ▸ notSending)]
      · simp only [hx, decide_false, Bool.false_and]
    next => rfl
  have named : ∀ (x : RecordState), x ≠ .sending → ∀ i, s.holds x p i = s.holds x q i := fun x notSending i => by
    simpa only [Bool.and_true] using holds x notSending (fun _ => true) i
  obtain ⟨slots, queue, deferred, send, count⟩ := h
  refine ⟨fun i => (slots i).trans ?_, queue.trans ?_, fun h => (deferred h).trans ?_, fun h => (send h).trans ?_,
    count.trans ?_⟩
  · exact congrArg _ (funext after)
  · simp only [named .captured nofun]
  · simp only [holds .deferred nofun]
  · simp only [holds .queued nofun]
  · simp only [named .capturing nofun]

/-- Blind marking withdraws every record that is not CAPTURING (R58). -/
theorem State.blindMarking_withdraws (s : State) :
    s.withdraws (fun r => decide (r.state ≠ .capturing)) s.blindMarking := by
  have marked := State.withdrawWhere_withdraws (fun r => decide (r.state ≠ .capturing ∧ r.state ≠ .sending))
    s.markEverySurface
  have named : s.withdraws (fun r => decide (r.state ≠ .capturing ∧ r.state ≠ .sending)) s.blindMarking := by
    simpa only [State.withdraws, State.holds_eq, State.blindMarking, State.markEverySurface_frame] using marked
  exact State.withdraws_of_sending named fun r sending => by simp [sending]

/-- Settles O23: for any set of records, at a flip and at blind marking. -/
theorem withdrawalOfRecords : Obligations.WithdrawalOfRecords := by
  refine ⟨fun s p => ?_, fun s h id old shown => ?_, fun s => ⟨s.blindMarking_withdraws, s.blindMarking_surfaces⟩⟩
  · dsimp only
    exact ⟨s.withdrawWhere_withdraws p, s.withdrawWhere_marksOf p, s.onlyMarks_withdrawWhere p,
      s.withdrawWhere_budget p, s.withdrawWhere_rest p⟩
  · rw [State.frameStartHead_of_shown shown]
    exact ⟨fun flip => by rw [if_neg flip]; rfl, fun same => by rw [if_pos same]; rfl⟩

end Sys2Proof.Machine
end

section
/-! SUPPORT. The end of a tile frame: what a send completion makes of the tables (R53, R54), and which slot a send
decision can change (R145). -/

namespace Sys2Proof.Machine

/-! ### The send decision and the slots -/

/-- A tile frame that begins changes the record of a slot that waits in a send FIFO, and no other. -/
theorem State.sendTile_slots (s : State) (l : List HeadClass) : (s.sendTile l).slots = s.slots ∨
    ∃ h i, i ∈ s.link.send.look h ∧
      (s.sendTile l).slots = s.slots.upd i (Option.map fun r => { r with state := .sending }) := by
  induction l with
  | nil => exact .inl rfl
  | cons c l ih =>
    rw [State.sendTile]
    split
    next h _ =>
      split
      next i rest fifo => exact .inr ⟨h, i, fifo ▸ List.mem_cons_self .., rfl⟩
      next => exact .inl rfl
    next => exact ih

/-- A send decision changes the record of a slot that waits in a send FIFO, or none (R145). -/
theorem State.sendDecision_slots (s : State) : s.sendDecision.slots = s.slots ∨
    ∃ h i, i ∈ s.link.send.look h ∧
      s.sendDecision.slots = s.slots.upd i (Option.map fun r => { r with state := .sending }) := by
  unfold State.sendDecision
  split
  · exact .inl rfl
  · split
    · exact .inl (by simp)
    · split
      · exact s.sendTile_slots _
      · exact .inl rfl
  · exact .inl rfl

/-- A send decision leaves a slot that waits in no send FIFO. -/
theorem State.sendDecision_look_of_notQueued {s : State} {i : Fin 64} (out : ∀ h, i ∉ s.link.send.look h) :
    s.sendDecision.slots.look i = s.slots.look i := by
  obtain same | ⟨h, j, queued, begun⟩ := s.sendDecision_slots
  · rw [same]
  · rw [begun, Table.look_upd_ne]
    rintro rfl
    exact out h queued

/-- Of any record a send decision changes at most the state, and that to SENDING. -/
theorem State.sendDecision_look (s : State) (i : Fin 64) : s.sendDecision.slots.look i = s.slots.look i ∨
    s.sendDecision.slots.look i = (s.slots.look i).map fun r => { r with state := .sending } := by
  obtain same | ⟨h, j, -, begun⟩ := s.sendDecision_slots
  · exact .inl (by rw [same])
  · rw [begun, Table.look_upd]
    split
    next own => exact .inr (by rw [own])
    next => exact .inl rfl

/-- A FREE slot stays FREE at a send decision. -/
theorem State.sendDecision_look_none {s : State} {i : Fin 64} (free : s.slots.look i = none) :
    s.sendDecision.slots.look i = none := by
  obtain same | begun := s.sendDecision_look i
  · exact same.trans free
  · rw [begun, free, Option.map_none]

/-! ### The marks of a send completion -/

/-- A mark set twice is a mark set once. -/
theorem Surface.withMark_withMark (f : Surface) (c w : Nat) (m : Bool) :
    (f.withMark c w m).withMark c w m = f.withMark c w m := by
  by_cases tile : f.geometry.hasTile c w = true
  · simp [Surface.withMark, tile]
  · simp [Surface.withMark, tile]

/-- A sent record's tile marked in the other surfaces of its head's flip set (R53, R54). -/
def State.markSiblings (r : Record) (s : State) : State :=
  ((s.heads.look r.head).flipSet.filter (· ≠ r.surface)).foldl (fun s id => s.markStale id r.column r.row) s

/-- The marking of the siblings leaves heads, slots and the link. -/
theorem State.markSiblings_keeps (r : Record) (s : State) : (s.markSiblings r).heads = s.heads ∧
    (s.markSiblings r).slots = s.slots ∧ (s.markSiblings r).link = s.link := by
  simp [State.markSiblings]

theorem State.markSiblings_look (r : Record) (s : State) (id : Fin 16) : (s.markSiblings r).surfaces.look id =
    if id ∈ (s.heads.look r.head).flipSet ∧ id ≠ r.surface then
      (s.surfaces.look id).map fun f => f.withMark r.column r.row true
    else s.surfaces.look id := by
  have each := State.updEach_look (fun f => f.withMark r.column r.row true)
    (fun f => f.withMark_withMark r.column r.row true) ((s.heads.look r.head).flipSet.filter (· ≠ r.surface)) s id
  simp only [List.mem_filter, decide_eq_true_eq] at each
  exact each

/-- The tile's quality entry takes the code of the frame (R53, R54). -/
def State.enterCode (r : Record) (c : Code) (s : State) : State :=
  s.updHead r.head fun d => d.withQuality r.column r.row c

theorem State.enterCode_flipSet (r : Record) (c : Code) (s : State) :
    ((s.enterCode r c).heads.look r.head).flipSet = (s.heads.look r.head).flipSet := by
  simp only [State.enterCode, State.updHead_heads, Table.look_upd_self]
  exact (Head.requalified_withQuality ..).flipSet

/-- A send completion in its steps (R53, R54). -/
theorem State.sendCompletion_eq (i : Fin 64) (r : Record) (c : Code) (s : State) : s.sendCompletion i r c =
    State.freeSlot i (if r.surface ∈ (s.heads.look r.head).flipSet then
      if c = .reduced ∧ s.exactOnly r.head = true then
        ((s.enterCode r c).markSiblings r).markStale r.surface r.column r.row
      else (s.enterCode r c).markSiblings r
    else s.enterCode r c) := by
  have exactOnly : ((s.enterCode r c).markSiblings r).exactOnly r.head = s.exactOnly r.head :=
    congrArg (fun k : Link => (k.current.heads.look r.head).exactOnly) (State.markSiblings_keeps ..).2.2
  simp only [← exactOnly, ← s.enterCode_flipSet r c, ← List.contains_iff_mem]
  rfl

/-- The heads after a send completion. -/
theorem State.sendCompletion_heads (i : Fin 64) (r : Record) (c : Code) (s : State) :
    (s.sendCompletion i r c).heads = s.heads.put r.head ((s.heads.look r.head).withQuality r.column r.row c) := by
  have marked : (State.markSiblings r (s.enterCode r c)).heads = (s.enterCode r c).heads :=
    (State.markSiblings_keeps ..).1
  rw [State.sendCompletion_eq, State.freeSlot]
  split
  · split
    · exact marked
    · exact marked
  · rfl

/-- The slot of a sent record is freed. -/
theorem State.sendCompletion_slots (i : Fin 64) (r : Record) (c : Code) (s : State) :
    (s.sendCompletion i r c).slots = s.slots.put i none := by
  have marked : (State.markSiblings r (s.enterCode r c)).slots = s.slots := (State.markSiblings_keeps ..).2.1
  rw [State.sendCompletion_eq, State.freeSlot]
  refine congrArg (Table.put · i none) ?_
  split
  · split
    · exact marked
    · exact marked
  · rfl

/-- A surface takes the mark of a sent tile: one of the flip set that still holds the record's surface, and the
record's own only when the code is REDUCED and the head exact-only (R53, R54). -/
abbrev State.marksSent (r : Record) (c : Code) (id : Fin 16) (s : State) : Prop :=
  r.surface ∈ (s.heads.look r.head).flipSet ∧ id ∈ (s.heads.look r.head).flipSet ∧
    (id = r.surface → c = .reduced ∧ s.exactOnly r.head = true)

/-- The surfaces after a send completion. -/
theorem State.sendCompletion_look (i : Fin 64) (r : Record) (c : Code) (s : State) (id : Fin 16) :
    (s.sendCompletion i r c).surfaces.look id =
      if s.marksSent r c id then (s.surfaces.look id).map fun f => f.withMark r.column r.row true
      else s.surfaces.look id := by
  have entered : (s.enterCode r c).surfaces = s.surfaces := rfl
  have others := State.markSiblings_look r (s.enterCode r c) id
  rw [s.enterCode_flipSet, entered] at others
  rw [State.sendCompletion_eq, State.freeSlot]
  split
  next inSet =>
    by_cases own : id = r.surface
    · subst own
      rw [if_neg fun k => k.2 rfl] at others
      split
      next both =>
        rw [if_pos ⟨inSet, inSet, fun _ => both⟩, ← others]
        exact Table.look_upd_self ..
      next not => rw [if_neg fun marks => not (marks.2.2 rfl), others]
    · have marks : s.marksSent r c id ↔ id ∈ (s.heads.look r.head).flipSet ∧ id ≠ r.surface :=
        ⟨fun marks => ⟨marks.2.1, own⟩, fun mem => ⟨inSet, mem.1, fun same => absurd same own⟩⟩
      simp only [marks, ← others]
      split
      · exact State.markStale_look_ne _ own _ _
      · rfl
  next out => rw [if_neg fun marks => out marks.1, entered]

/-- A send completion changes marks alone in the surface table (R53, R54). -/
theorem State.sendCompletion_onlyMarks (i : Fin 64) (r : Record) (c : Code) (s : State) :
    s.onlyMarks (s.sendCompletion i r c) := by
  intro id
  rw [State.sendCompletion_look]
  split
  · cases s.surfaces.look id <;> simp only [Option.map_none, Option.map_some, Surface.unmarked_withMark]
  · rfl

/-- A tile marked by a send completion is stale. -/
theorem State.sendCompletion_isStale {i : Fin 64} {r : Record} {c : Code} {s : State} {id : Fin 16}
    (marks : s.marksSent r c id) (tile : s.hasTileAt id r.column r.row) :
    (s.sendCompletion i r c).isStale id r.column r.row = true := by
  obtain ⟨f, hf, hl, hg⟩ := tile
  have look := State.sendCompletion_look i r c s id
  rw [if_pos marks, hf, Option.map_some] at look
  simp only [State.isStale, look]
  exact (Surface.isStale_withMark hl hg).2 (.inr ⟨rfl, rfl⟩)

/-! ### The command -/

/-- The state at the end of a tile frame, before the next send decision (R146). -/
def State.endTile (i : Fin 64) (r : Record) (d : Decision) (s : State) : State :=
  { (s.sendCompletion i r d.code).countTile d with link := { s.link with wire := .idle } }

/-- FRAME_END with the tile frame of a record on the wire (R145, R146). -/
theorem exec_frameEnd_tile {s : State} {i : Fin 64} {r : Record} {d : Decision} (wire : s.link.wire = .tile i)
    (hr : s.slots.look i = some r) (hd : r.decision = some d) :
    exec .frameEnd s = .next (s.endTile i r d).sendDecision := by
  have link : ((s.sendCompletion i r d.code).countTile d).link = s.link := by simp
  simp only [exec, execFrameEnd, State.endFrame, wire, hr, hd, link, State.endTile]

/-- The counters after a tile frame (R146). -/
theorem State.countTile_counters (d : Decision) (s : State) : (s.countTile d).counters =
    match d.code with
    | .exact => { s.counters with
        tilesExact := saturatingAdd s.counters.tilesExact 1
        tileBytes := saturatingAdd s.counters.tileBytes d.frameSize }
    | .reduced => { s.counters with
        tilesReduced := saturatingAdd s.counters.tilesReduced 1
        tileBytes := saturatingAdd s.counters.tileBytes d.frameSize } := by
  unfold State.countTile
  cases d.code <;> rfl

/-- What the end of a tile frame changes: the slot, marks, a quality entry, counters and the wire. -/
theorem State.endTile_eq (i : Fin 64) (r : Record) (d : Decision) (s : State) : s.endTile i r d = { s with
    slots := s.slots.put i none
    surfaces := (s.sendCompletion i r d.code).surfaces
    heads := s.heads.put r.head ((s.heads.look r.head).withQuality r.column r.row d.code)
    counters := ((s.sendCompletion i r d.code).countTile d).counters
    link := { s.link with wire := .idle } } := by
  unfold State.endTile
  exact State.eq_of_fields (slots := by simp [State.sendCompletion_slots]) (heads := by simp [State.sendCompletion_heads])

/-- The quality entry of a tile takes the code when the head is ON and the tile lies in its geometry (R53, R54). -/
theorem Head.withQuality_of_tile {k : Head} {g : Geometry} {column row : Nat} (c : Code) (on : k.state ≠ .off)
    (geometry : k.geometry = some g) (tile : g.hasTile column row = true) :
    k.withQuality column row c = { k with quality := k.quality.set (g.tileIndex column row) c } := by
  cases hs : k.state with
  | off => exact absurd hs on
  | _ => simp only [Head.withQuality, hs, geometry, tile, if_true]

/-- Otherwise nothing is entered. -/
theorem Head.withQuality_of_out {k : Head} {column row : Nat} (c : Code)
    (out : k.state = .off ∨ ∀ g, k.geometry = some g → g.hasTile column row = false) :
    k.withQuality column row c = k := by
  unfold Head.withQuality
  split
  next => rfl
  next => rfl
  next g geometry on => exact if_neg (by simp [out.resolve_left on g geometry])

/-- Settles O44: the tables after the frame are those of the send completion, and the decision after it changes none. -/
theorem tileFrameEnds : Obligations.TileFrameEnds := by
  intro s i r d sound wire hr hd k
  have ended := s.endTile_eq i r d
  have surfaces : (s.endTile i r d).sendDecision.surfaces = (s.sendCompletion i r d.code).surfaces := by simp [ended]
  have heads : (s.endTile i r d).sendDecision.heads =
      s.heads.put r.head (k.withQuality r.column r.row d.code) := by simp [ended, k]
  have counters : (s.endTile i r d).sendDecision.counters = ((s.sendCompletion i r d.code).countTile d).counters := by
    simp [ended]
  have tileAt : ∀ {id f}, s.surfaces.look id = some f → f.geometry.hasTile r.column r.row = true →
      s.hasTileAt id r.column r.row := fun hf tile =>
    have ⟨_, _, _, _, _, _, _, _, _, marks⟩ := (sound.1 _ _ hf).1
    ⟨_, hf, marks, tile⟩
  have unmarked : ∀ {id}, ¬ s.marksSent r d.code id →
      (s.endTile i r d).sendDecision.surfaces.look id = s.surfaces.look id := fun {id} not => by
    rw [surfaces, State.sendCompletion_look, if_neg not]
  refine ⟨s.endTile i r d, (s.endTile i r d).sendDecision, exec_frameEnd_tile wire hr hd, rfl, ?_, ?_, ?_, ?_, ?_, fun g on geometry tile => ?_,
    fun out => ?_, fun id f mem inSet other hf tile => ?_, fun out => ?_, fun id out => unmarked fun m => out m.2.1,
    fun exact => unmarked fun m => ?_, fun f exactOnly reduced inSet hf tile => ?_, fun code => ?_, fun code => ?_, ?_⟩
  · rw [surfaces, heads, counters]
    exact ended
  · exact fun id => (congrArg (fun t => (Table.look t id).map Surface.unmarked) surfaces).trans
      (State.sendCompletion_onlyMarks i r d.code s id)
  · exact State.sendDecision_look_none (by rw [ended, Table.look_put_self])
  · simp [ended]
  · simp [ended]
  · rw [heads, Head.withQuality_of_tile d.code on geometry tile]
  · rw [heads, Head.withQuality_of_out d.code out, Table.put_look]
  · rw [State.isStale_of_surfaces surfaces]
    exact State.sendCompletion_isStale ⟨inSet, mem, fun same => absurd same other⟩ (tileAt hf tile)
  · exact Table.ext_look fun id => unmarked fun m => out m.1
  · obtain ⟨-, -, own⟩ := m
    obtain ⟨reduced, exactOnly⟩ := own rfl
    rcases exact with off | code
    · exact Bool.false_ne_true (off.symm.trans exactOnly)
    · exact absurd (code.symm.trans reduced) nofun
  · rw [State.isStale_of_surfaces surfaces]
    exact State.sendCompletion_isStale ⟨inSet, inSet, fun _ => ⟨reduced, exactOnly⟩⟩ (tileAt hf tile)
  · rw [counters, State.countTile_counters, code]
    exact ⟨by simp, by simp⟩
  · rw [counters, State.countTile_counters, code]
    exact ⟨by simp, by simp⟩
  · rw [counters, State.countTile_counters]
    cases d.code <;> simp

end Sys2Proof.Machine
end

section
/-! SUPPORT. Encode completion (R113, R114, R130, R131): what a charge and a deferral make of the record and of its
head's budget, and what the encoder takes next. -/

namespace Sys2Proof.Machine

/-! ### The test of R130 -/

section
variable {k : RecordKind} {exactOnly : Bool} {credit : Nat} {f : CodedForms}

/-- The exact frame fits the credit (R130 case 2). -/
theorem affordable_of_exact (fits : f.exact.length + 12 ≤ credit) :
    affordable k exactOnly credit f = some { code := .exact, frameSize := f.exact.length + 12 } :=
  if_pos fits

/-- Only the reduced frame fits, for a NEW record of a head that is not exact-only (R130 case 3). -/
theorem affordable_of_reduced (not : ¬ f.exact.length + 12 ≤ credit)
    (fits : k = .new ∧ exactOnly = false ∧ f.reduced.length + 12 ≤ credit) :
    affordable k exactOnly credit f = some { code := .reduced, frameSize := f.reduced.length + 12 } := by
  obtain ⟨rfl, rfl, fits⟩ := fits
  simp only [affordable, frameCost, not, fits, if_false, Bool.not_false, decide_true, Bool.and_self, if_true]

/-- Neither frame fits (R130 case 4, R131). -/
theorem affordable_of_none (not : ¬ f.exact.length + 12 ≤ credit)
    (unfit : ¬ (k = .new ∧ exactOnly = false ∧ f.reduced.length + 12 ≤ credit)) :
    affordable k exactOnly credit f = none := by
  simp only [affordable, frameCost, not, if_false]
  cases k with
  | refine => rfl
  | new =>
    refine if_neg fun fits => unfit ⟨rfl, ?_⟩
    obtain ⟨reducible, fits⟩ := (Bool.and_eq_true ..).mp fits
    exact ⟨(Bool.not_eq_true' _).mp reducible, of_decide_eq_true fits⟩

end

/-! ### A charge and a deferral -/

/-- A charged record is QUEUED, or SENDING where its joining an idle wire has begun it (R144, R145). -/
theorem State.charge_look {s : State} {i : Fin 64} {r : Record} (hr : s.slots.look i = some r) (h : Fin 4)
    (d : Decision) : ∃ st, (st = .queued ∨ st = .sending) ∧
      (s.charge h i d).slots.look i = some { r with state := st, decision := some d } := by
  unfold State.charge State.joinSendFifo
  extract_lets paid queued
  have look : queued.slots.look i = some { r with state := .queued, decision := some d } := by
    simp [queued, paid, State.updRecord, State.updBudget, hr]
  obtain same | begun := State.sendDecision_look { queued with link := { queued.link with
    send := queued.link.send.upd h fun l => l ++ [i] } } i
  · exact ⟨.queued, .inl rfl, same.trans look⟩
  · refine ⟨.sending, .inr rfl, begun.trans ?_⟩
    rw [look, Option.map_some]

/-- A charge leaves the record of another slot that waits in no send FIFO. -/
theorem State.charge_look_of_notQueued {s : State} {i j : Fin 64} (other : j ≠ i) (out : ∀ h, j ∉ s.link.send.look h)
    (h : Fin 4) (d : Decision) : (s.charge h i d).slots.look j = s.slots.look j := by
  unfold State.charge State.joinSendFifo
  extract_lets paid queued
  have look : queued.slots.look j = s.slots.look j := Table.look_upd_ne _ other _
  refine (State.sendDecision_look_of_notQueued fun q mem => ?_).trans look
  have fifo : j ∈ (s.link.send.upd h fun l => l ++ [i]).look q := mem
  rw [Table.look_upd] at fifo
  split at fifo
  next own => exact (List.mem_append.1 fifo).elim (own ▸ out h) fun mem => other (List.mem_singleton.1 mem)
  next => exact out q fifo

/-- A charge takes its frame size from the credit of its head (R128). -/
theorem State.charge_budget (s : State) (h : Fin 4) (i : Fin 64) (d : Decision) :
    (s.charge h i d).budget = (s.updBudget h fun b => { b with credit := b.credit - d.frameSize }).budget := by
  simp [State.charge]

/-- An encode decision that charges (R130 cases 2 and 3). -/
theorem State.encodeDecision_of_charged {s : State} {i : Fin 64} {r : Record} {f : CodedForms} {d : Decision}
    (none : (s.budget.heads.look r.head).deferred = [])
    (charged : affordable r.kind (s.exactOnly r.head) (s.budget.heads.look r.head).credit f = some d) :
    s.encodeDecision i r f = (s.addDemand r.head d.frameSize).charge r.head i d := by
  simp only [State.encodeDecision, none, ne_eq, not_true_eq_false, if_false, charged]

/-- An encode decision that defers (R130 cases 1 and 4). -/
theorem State.encodeDecision_of_deferred {s : State} {i : Fin 64} {r : Record} {f : CodedForms}
    (deferred : (s.budget.heads.look r.head).deferred ≠ [] ∨
      affordable r.kind (s.exactOnly r.head) (s.budget.heads.look r.head).credit f = none) :
    s.encodeDecision i r f = s.defer r.head i f := by
  by_cases behind : (s.budget.heads.look r.head).deferred = []
  · simp only [State.encodeDecision, behind, ne_eq, not_true_eq_false, if_false,
      deferred.resolve_left (not_not_intro behind)]
  · simp only [State.encodeDecision, ne_eq, behind, not_false_eq_true, if_true]

/-- An encode decision leaves the record of another slot that waits in no send FIFO. -/
theorem State.encodeDecision_look_of_notQueued {s : State} {i j : Fin 64} (other : j ≠ i)
    (out : ∀ h, j ∉ s.link.send.look h) (r : Record) (f : CodedForms) :
    (s.encodeDecision i r f).slots.look j = s.slots.look j := by
  have deferred : (s.defer r.head i f).slots.look j = s.slots.look j := Table.look_upd_ne _ other _
  unfold State.encodeDecision
  dsimp only
  split
  · exact deferred
  · split
    · exact State.charge_look_of_notQueued (s := s.addDemand r.head _) other out _ _
    · exact deferred

section
variable {s : State} {i : Fin 64} {r : Record} {f : CodedForms} (hr : s.slots.look i = some r)

include hr

/-- The record and the budget of its head after a charge (R122, R128, R130). -/
theorem State.encodeDecision_charges {d : Decision} (none : (s.budget.heads.look r.head).deferred = [])
    (charged : affordable r.kind (s.exactOnly r.head) (s.budget.heads.look r.head).credit f = some d) :
    (∃ st, (st = .queued ∨ st = .sending) ∧
      (s.encodeDecision i r f).slots.look i = some { r with state := st, decision := some d }) ∧
    (s.encodeDecision i r f).budget.heads.look r.head = { s.budget.heads.look r.head with
      credit := (s.budget.heads.look r.head).credit - d.frameSize
      accumulator := (s.budget.heads.look r.head).accumulator + d.frameSize } := by
  rw [State.encodeDecision_of_charged none charged]
  refine ⟨State.charge_look (s := s.addDemand r.head d.frameSize) hr r.head d, ?_⟩
  rw [State.charge_budget]
  simp [State.addDemand, State.updBudget]

/-- The record and the budget of its head after a deferral (R122, R130). -/
theorem State.encodeDecision_defers (deferred : (s.budget.heads.look r.head).deferred ≠ [] ∨
      affordable r.kind (s.exactOnly r.head) (s.budget.heads.look r.head).credit f = none) :
    (s.encodeDecision i r f).slots.look i = some { r with state := .deferred, age := 0 } ∧
    (s.encodeDecision i r f).budget.heads.look r.head = { s.budget.heads.look r.head with
      deferred := (s.budget.heads.look r.head).deferred ++ [i]
      accumulator := (s.budget.heads.look r.head).accumulator + (f.exact.length + 12) } := by
  rw [State.encodeDecision_of_deferred deferred]
  simp [State.defer, State.addDemand, State.updBudget, State.updRecord, hr, frameCost]

/-- The completion of a withdrawn record is a release (R64, R114). -/
theorem State.finishEncoding_of_withdrawn (withdrawn : r.withdrawn = true) : s.finishEncoding i = s.release i r := by
  simp only [State.finishEncoding, hr, withdrawn, if_true]

/-- The completion of any other record keeps both payloads and takes the encode decision (R114). -/
theorem State.finishEncoding_of_kept (kept : r.withdrawn = false) : s.finishEncoding i =
    State.encodeDecision i { r with coded := some r.codedForms } r.codedForms
      (s.updRecord i fun r' => { r' with coded := some r.codedForms }) := by
  simp only [State.finishEncoding, hr, kept, Bool.false_eq_true, if_false]

/-- A completion leaves the record of another slot that waits in no send FIFO. -/
theorem State.finishEncoding_look_of_notQueued {j : Fin 64} (other : j ≠ i) (out : ∀ h, j ∉ s.link.send.look h) :
    (s.finishEncoding i).slots.look j = s.slots.look j := by
  cases kept : r.withdrawn with
  | true =>
    rw [State.finishEncoding_of_withdrawn hr kept]
    exact Table.look_put_ne _ other _
  | false =>
    rw [State.finishEncoding_of_kept hr kept]
    exact (State.encodeDecision_look_of_notQueued
      (s := s.updRecord i fun r' => { r' with coded := some r.codedForms }) other out _ _).trans
        (Table.look_upd_ne _ other _)

end

/-! ### The encoder -/

/-- An IDLE encoder with nothing queued stays IDLE (R113). -/
theorem State.startEncoder_of_nil {s : State} (nil : s.encodeQueue = []) : s.startEncoder = s := by
  unfold State.startEncoder
  split
  next some => exact absurd (nil.symm.trans some) nofun
  next => rfl

/-- An IDLE encoder takes the record at the head of its queue (R113). -/
theorem State.startEncoder_of_cons {s : State} {j : Fin 64} {rest : List (Fin 64)} (idle : s.encoder = none)
    (queue : s.encodeQueue = j :: rest) : s.startEncoder = { s with
      encoder := some j
      encodeQueue := rest
      slots := s.slots.upd j (Option.map fun r => { r with state := .encoding }) } := by
  unfold State.startEncoder
  simp only [idle, queue]
  rfl

/-- The encoder leaves the records that are not in its queue. -/
theorem State.startEncoder_look_of_notMem {s : State} {i : Fin 64} (out : i ∉ s.encodeQueue) :
    s.startEncoder.slots.look i = s.slots.look i := by
  unfold State.startEncoder
  split
  next j rest _ queue =>
    refine Table.look_upd_ne _ (fun own => out ?_) _
    rw [queue, own]
    exact List.mem_cons_self
  next => rfl

/-! ### Where a record stands -/

/-- The record in the encode queue is CAPTURED, and in no send FIFO (R112, R144). -/
theorem State.slotsInPlace.captured {s : State} (hs : s.slotsInPlace) {j : Fin 64} (queued : j ∈ s.encodeQueue) :
    ∃ x, s.slots.look j = some x ∧ x.state = .captured ∧ ∀ h, j ∉ s.link.send.look h := by
  obtain ⟨place, -⟩ := hs
  cases hx : s.slots.look j with
  | none => exact absurd queued ((place j).2 hx).1
  | some x =>
    obtain ⟨captured, -, -, send, -⟩ := (place j).1 x hx
    refine ⟨x, rfl, captured.1 queued, fun h mem => ?_⟩
    exact absurd ((captured.1 queued).symm.trans ((send h).1 mem).1) nofun

/-- The record in the encoder is ENCODING, and neither queued for it nor for the wire (R113). -/
theorem State.slotsInPlace.encoding {s : State} (hs : s.slotsInPlace) {i : Fin 64} {r : Record}
    (encoder : s.encoder = some i) (hr : s.slots.look i = some r) :
    r.state = .encoding ∧ i ∉ s.encodeQueue := by
  obtain ⟨place, -⟩ := hs
  obtain ⟨captured, encoding, -⟩ := (place i).1 r hr
  have state := encoding.1 encoder
  exact ⟨state, fun queued => absurd ((captured.1 queued).symm.trans state) nofun⟩

/-! ### The command -/

/-- The encoder gives up its record (R113). -/
def State.idleEncoder (s : State) : State := { s with encoder := none }

/-- ENCODE_COMPLETION with a record in the encoder (R113, R114). -/
theorem exec_encodeCompletion {s : State} {i : Fin 64} (encoder : s.encoder = some i) :
    exec .encodeCompletion s = .next (s.finishEncoding i).idleEncoder.startEncoder := by
  simp only [exec, execEncodeCompletion, encoder, State.idleEncoder]

/-- What the encoder does next leaves the budget and the surfaces. -/
theorem State.idleEncoder_frame (v : State) : v.idleEncoder.startEncoder.budget = v.budget ∧
    v.idleEncoder.startEncoder.surfaces = v.surfaces := by
  simp [State.idleEncoder]

/-- Settles O31: the record is released or decided on, and the encoder turns to the next one. -/
theorem encodeCompletion : Obligations.EncodeCompletion := by
  refine ⟨fun s idle => by simp only [exec, execEncodeCompletion, idle], fun s i r hs encoder hr => ?_⟩
  intro b forms e q reducedFits
  obtain ⟨encoding, notQueued⟩ := hs.encoding encoder hr
  have queue : (s.finishEncoding i).idleEncoder.encodeQueue = s.encodeQueue := by simp [State.idleEncoder]
  obtain ⟨budget, surfaces⟩ := (s.finishEncoding i).idleEncoder_frame
  have own : (s.finishEncoding i).idleEncoder.startEncoder.slots.look i = (s.finishEncoding i).slots.look i :=
    State.startEncoder_look_of_notMem (queue ▸ notQueued)
  refine ⟨_, exec_encodeCompletion encoder, fun nil => ?_, fun j rest cons => ?_, fun withdrawn => ?_, fun kept => ?_⟩
  · rw [State.startEncoder_of_nil (queue.trans nil)]
    exact ⟨rfl, queue.trans nil⟩
  · obtain ⟨x, hx, captured, out⟩ := hs.captured (cons ▸ List.mem_cons_self : j ∈ s.encodeQueue)
    have other : j ≠ i := by
      rintro rfl
      obtain rfl := Option.some.inj (hx.symm.trans hr)
      exact absurd (captured.symm.trans encoding) nofun
    have kept : (s.finishEncoding i).idleEncoder.slots.look j = some x :=
      (State.finishEncoding_look_of_notQueued hr other out).trans hx
    rw [State.startEncoder_of_cons rfl (queue.trans cons)]
    exact ⟨rfl, rfl, { x with state := .encoding }, by rw [Table.look_upd_self, kept, Option.map_some], rfl⟩
  · rw [own, budget, State.isStale_of_surfaces surfaces, State.finishEncoding_of_withdrawn hr withdrawn]
    exact ⟨Table.look_put_self .., by simp [State.release, State.freeSlot], fun f hf tile marks =>
      (State.isStale_markStale (s := s.freeSlot i) ⟨f, hf, marks, tile⟩).2 (.inr ⟨rfl, rfl, rfl⟩)⟩
  · have look : (s.updRecord i fun r' => { r' with coded := some forms }).slots.look i =
        some { r with coded := some forms } := by simp [State.updRecord, hr]
    have finished : s.finishEncoding i = State.encodeDecision i { r with coded := some forms } forms
        (s.updRecord i fun r' => { r' with coded := some forms }) := State.finishEncoding_of_kept hr kept
    rw [own, budget, finished]
    have defers : b.deferred ≠ [] ∨ (¬ e ≤ b.credit ∧ ¬ reducedFits) → _ := fun not =>
      State.encodeDecision_defers look (not.imp_right fun unfit => affordable_of_none unfit.1 unfit.2)
    by_cases none : b.deferred = []
    · by_cases exact : e ≤ b.credit
      · obtain ⟨⟨st, queued, looks⟩, paid⟩ := State.encodeDecision_charges look none (affordable_of_exact exact)
        exact ⟨_, looks, rfl, fun _ _ => ⟨queued, rfl, paid⟩, fun _ not => absurd exact not,
          fun not => (not.elim (· none) (·.1 exact)).elim⟩
      · by_cases reduced : reducedFits
        · obtain ⟨⟨st, queued, looks⟩, paid⟩ :=
            State.encodeDecision_charges look none (affordable_of_reduced exact reduced)
          exact ⟨_, looks, rfl, fun _ fits => absurd fits exact, fun _ _ _ => ⟨queued, rfl, paid⟩,
            fun not => (not.elim (· none) (·.2 reduced)).elim⟩
        · obtain ⟨looks, behind⟩ := defers (.inr ⟨exact, reduced⟩)
          exact ⟨_, looks, rfl, fun _ fits => absurd fits exact, fun _ _ fits => absurd fits reduced,
            fun _ => ⟨rfl, rfl, behind⟩⟩
    · obtain ⟨looks, behind⟩ := defers (.inl none)
      exact ⟨_, looks, rfl, fun nil => absurd nil none, fun nil => absurd nil none, fun _ => ⟨rfl, rfl, behind⟩⟩

end Sys2Proof.Machine
end

section
/-! SUPPORT. The marks of an apply (R61): a step that marks the tiles it names, taken for each item of a list, marks the
tiles that any of them names. -/

namespace Sys2Proof.Machine

/-- The mark of a tile after a step for each item of a list, when a step marks it exactly when `M` holds of the item,
of any state in which `P` holds. -/
theorem foldl_isStale {α : Type} {f : State → α → State} {id : Fin 16} {c w : Nat} {M : α → Prop} {P : State → Prop}
    (kept : ∀ v a, P v → P (f v a)) (keeps : ∀ (v : State) a, v.onlyMarks (f v a))
    (marks : ∀ v a, P v → v.hasTileAt id c w → ((f v a).isStale id c w = true ↔ v.isStale id c w = true ∨ M a))
    (l : List α) (s : State) (hP : P s) (hs : s.hasTileAt id c w) :
    (l.foldl f s).isStale id c w = true ↔ s.isStale id c w = true ∨ ∃ a ∈ l, M a := by
  induction l generalizing s with
  | nil => simp
  | cons a l ih =>
    rw [List.foldl_cons, ih _ (kept s a hP) (State.hasTileAt_of_onlyMarks (keeps s a) hs), marks s a hP hs]
    simp only [List.mem_cons, exists_eq_or_imp, or_assoc]

/-- A step that changes marks alone does so taken for each item of a list. -/
theorem State.onlyMarks_foldl {α : Type} {f : State → α → State} (keeps : ∀ (v : State) a, v.onlyMarks (f v a)) (l : List α)
    (s : State) : s.onlyMarks (l.foldl f s) := by
  induction l generalizing s with
  | nil => exact State.onlyMarks_of_eq rfl
  | cons a l ih => exact State.onlyMarks_trans (keeps s a) (ih (f s a))

/-- A tile marked in each surface of a list. -/
theorem State.markTileEach_isStale {id : Fin 16} {c w : Nat} (t : Nat × Nat) (ids : List (Fin 16)) (s : State)
    (hs : s.hasTileAt id c w) : (ids.foldl (fun s id => s.markStale id t.1 t.2) s).isStale id c w = true ↔
      s.isStale id c w = true ∨ (id ∈ ids ∧ t = (c, w)) := by
  have each := foldl_isStale (f := fun s id => State.markStale id t.1 t.2 s) (P := fun _ => True)
    (M := fun k => k = id ∧ t.1 = c ∧ t.2 = w) (fun _ _ _ => trivial) (fun v k => v.onlyMarks_markStale k t.1 t.2)
    (fun v k _ hv => State.isStale_markStale hv) ids s trivial hs
  rw [each]
  refine or_congr_right ⟨?_, ?_⟩
  · rintro ⟨k, mem, rfl, rfl, rfl⟩
    exact ⟨mem, rfl⟩
  · rintro ⟨mem, rfl⟩
    exact ⟨id, mem, rfl, rfl, rfl⟩

/-- The REDUCED tiles of a quality map are those whose entry is REDUCED (R52, R61). -/
theorem Head.mem_reducedTiles {d : Head} {c w : Nat} :
    (c, w) ∈ d.reducedTiles ↔ d.qualityOf c w = some .reduced := by
  unfold Head.reducedTiles
  split
  next none => simp [Head.qualityOf, none]
  next g some =>
    rw [List.mem_filter, decide_eq_true_eq]
    refine ⟨And.right, fun reduced => ⟨?_, reduced⟩⟩
    have tile : g.hasTile c w = true := by
      by_contra out
      simp [Head.qualityOf, some, out] at reduced
    obtain ⟨column, row⟩ := (Geometry.hasTile_iff g c w).1 tile
    exact List.mem_flatMap.2 ⟨w, List.mem_range.2 row, List.mem_map.2 ⟨c, List.mem_range.2 column, rfl⟩⟩

theorem State.onlyMarks_markReduced (s : State) (h : Fin 4) : s.onlyMarks (s.markReduced h) := by
  unfold State.markReduced
  refine State.onlyMarks_foldl (fun v t => ?_) _ s
  exact State.onlyMarks_foldl (fun v k => v.onlyMarks_markStale k t.1 t.2) _ v

/-- A head that becomes exact-only marks its REDUCED tiles in the surfaces of its flip set (R61). -/
theorem State.markReduced_isStale {id : Fin 16} {c w : Nat} (h : Fin 4) (s : State) (hs : s.hasTileAt id c w) :
    (s.markReduced h).isStale id c w = true ↔ s.isStale id c w = true ∨
      (id ∈ (s.heads.look h).flipSet ∧ (s.heads.look h).qualityOf c w = some .reduced) := by
  have each := foldl_isStale (P := fun _ => True)
    (f := fun v (t : Nat × Nat) => (s.heads.look h).flipSet.foldl (fun v id => State.markStale id t.1 t.2 v) v)
    (M := fun t => id ∈ (s.heads.look h).flipSet ∧ t = (c, w)) (fun _ _ _ => trivial)
    (fun v t => State.onlyMarks_foldl (fun v k => v.onlyMarks_markStale k t.1 t.2) _ v)
    (fun v t _ hv => State.markTileEach_isStale t _ v hv) (s.heads.look h).reducedTiles s trivial hs
  refine each.trans (or_congr_right ⟨?_, ?_⟩)
  · rintro ⟨t, mem, inSet, rfl⟩
    exact ⟨inSet, Head.mem_reducedTiles.1 mem⟩
  · rintro ⟨inSet, reduced⟩
    exact ⟨(c, w), Head.mem_reducedTiles.2 reduced, inSet, rfl⟩

/-- The marks of an apply, for the heads that become exact-only (R61). -/
theorem State.markReducedEach_isStale {id : Fin 16} {c w : Nat} (l : List (Fin 4)) (s : State)
    (hs : s.hasTileAt id c w) : (l.foldl (fun s h => s.markReduced h) s).isStale id c w = true ↔
      s.isStale id c w = true ∨ ∃ h ∈ l, id ∈ (s.heads.look h).flipSet ∧
        (s.heads.look h).qualityOf c w = some .reduced :=
  foldl_isStale (P := fun v => v.heads = s.heads) (fun v h same => (by simp : (v.markReduced h).heads = v.heads).trans same)
    (fun v h => v.onlyMarks_markReduced h)
    (fun v h same hv => by rw [State.markReduced_isStale h v hv, same]) l s rfl hs

end Sys2Proof.Machine
end

section
/-! SUPPORT. The tick's steps before the re-evaluation (R117 to R119, R123, R124, R128, R150), each a state of its own. -/

namespace Sys2Proof.Machine

/-- The tick's timer set on, the time base at the expiry at least, and the tick counted (R117, log 2). -/
def State.ticked (s : State) : State :=
  { s.reachTime s.budget.tickAt with budget := { (s.reachTime s.budget.tickAt).budget with
    tickAt := s.budget.tickAt + 1000
    epochTicks := s.budget.epochTicks + 1 } }

/-- A requested apply (R119). -/
def State.applied (s : State) : State := if s.link.applyRequest then s.applySettings else s

/-- The demand formed at the end of an epoch (R123). -/
def State.accounted (s : State) : State := if decide (16 ≤ s.budget.epochTicks) then s.formDemands else s

/-- The shares of a tick: recomputed at the end of an epoch, at an apply and at a recompute request (R124). -/
def State.shared (s : State) : State :=
  if decide (16 ≤ s.applied.budget.epochTicks) || s.link.applyRequest || s.applied.accounted.budget.recompute then
    s.applied.accounted.recomputeShares
  else s.applied.accounted

/-- The recompute request cleared (R124). -/
def State.divided (s : State) : State := { s.shared with budget := { s.shared.budget with recompute := false } }

/-- Steps 1 to 4 of a tick (R118). -/
theorem State.tickBudget_eq (s : State) : s.tickBudget = s.divided.refill := rfl

/-- What an apply changes: marks, the settings in force, the request and the STATUS pending flag (R119, R150). -/
theorem State.applied_eq (s : State) : s.applied = { s with
    surfaces := s.applied.surfaces
    link := { s.link with
      current := if s.link.applyRequest then s.link.staged.reduceQuotas else s.link.current
      applyRequest := false
      statusPending := s.link.statusPending || (s.link.applyRequest &&
        decide (s.link.latches &&& s.link.current.mask &&& ~~~s.link.staged.mask ≠ 0)) } } := by
  unfold State.applied
  cases apply : s.link.applyRequest with
  | false => exact State.eq_of_fields (link := Link.eq_of_fields (applyRequest := apply))
  | true => exact State.eq_of_fields (link := by simp [State.applySettings])

theorem State.accounted_eq (s : State) : s.accounted = { s with budget := s.accounted.budget } := by
  unfold State.accounted
  split <;> rfl

/-- When a tick recomputes the shares (R124). -/
theorem State.shared_eq (s : State) : s.shared =
    if 16 ≤ s.budget.epochTicks ∨ s.link.applyRequest = true ∨ s.budget.recompute = true then
      s.applied.accounted.recomputeShares
    else s.applied.accounted := by
  have budget : s.applied.budget = s.budget := by rw [State.applied_eq]
  have request : s.applied.accounted.budget.recompute = s.budget.recompute := by
    rw [← budget, State.accounted]
    split <;> rfl
  unfold State.shared
  rw [request, budget]
  simp only [Bool.or_eq_true, decide_eq_true_eq, or_assoc]

/-- What a tick changes before the re-evaluation, besides what its apply changes: the budget. -/
theorem State.tickBudget_rest (s : State) : s.tickBudget = { s.applied with budget := s.tickBudget.budget } := by
  rw [State.tickBudget_eq, State.divided, State.shared_eq, State.accounted_eq]
  split <;> rfl

/-- A head is ON in the middle of a tick as before it. -/
theorem State.accounted_isOn (s : State) (h : Fin 4) : s.applied.accounted.isOn h = s.isOn h := by
  rw [State.accounted_eq, State.applied_eq]
  rfl

/-- A head's budget once the demand is formed (R123). -/
def HeadBudget.accountedFor (b : HeadBudget) (ends on : Bool) : HeadBudget :=
  if ends then { b with demand := if on then (b.accumulator + 15) / 16 else 0, accumulator := 0 } else b

theorem State.accounted_look (s : State) (h : Fin 4) : s.applied.accounted.budget.heads.look h =
    (s.budget.heads.look h).accountedFor (decide (16 ≤ s.budget.epochTicks)) (s.isOn h) := by
  have budget : s.applied.budget = s.budget := by rw [State.applied_eq]
  have on : s.applied.isOn h = s.isOn h := by rw [State.applied_eq]; rfl
  rw [State.accounted, HeadBudget.accountedFor, budget]
  split
  · rw [State.formDemands, Table.look_tab, budget, on]
  · rw [budget]

/-- A head's budget after a refill (R128). -/
def HeadBudget.refilled (b : HeadBudget) (on : Bool) : HeadBudget :=
  if on then { b with credit := min (b.credit + b.share) b.cap } else b

/-- A head's budget once the shares are divided, `share` being its own when the tick recomputes (R124). -/
def HeadBudget.dividedInto (b : HeadBudget) (recomputes : Bool) (share : Nat) : HeadBudget :=
  if recomputes then b.withShare share else b

/-- A head's budget after the steps of a tick (R118). -/
def HeadBudget.afterTick (b : HeadBudget) (ends recomputes on : Bool) (share : Nat) : HeadBudget :=
  ((b.accountedFor ends on).dividedInto recomputes share).refilled on

section
variable (b : HeadBudget) (ends recomputes on : Bool) (share : Nat)

theorem HeadBudget.accountedFor_rest : (b.accountedFor ends on).share = b.share ∧
    (b.accountedFor ends on).cap = b.cap ∧ (b.accountedFor ends on).credit = b.credit ∧
    (b.accountedFor ends on).deferred = b.deferred := by
  cases ends <;> exact ⟨rfl, rfl, rfl, rfl⟩

theorem HeadBudget.dividedInto_rest : (b.dividedInto recomputes share).demand = b.demand ∧
    (b.dividedInto recomputes share).accumulator = b.accumulator ∧
    (b.dividedInto recomputes share).deferred = b.deferred ∧ (b.dividedInto recomputes share).credit =
      if recomputes then min b.credit (b.dividedInto recomputes share).cap else b.credit := by
  cases recomputes <;> exact ⟨rfl, rfl, rfl, rfl⟩

theorem HeadBudget.refilled_rest : (b.refilled on).share = b.share ∧ (b.refilled on).cap = b.cap ∧
    (b.refilled on).demand = b.demand ∧ (b.refilled on).accumulator = b.accumulator ∧
    (b.refilled on).deferred = b.deferred ∧
    (b.refilled on).credit = if on then min (b.credit + b.share) b.cap else b.credit := by
  cases on <;> exact ⟨rfl, rfl, rfl, rfl, rfl, rfl⟩

/-- What the steps of a tick make of a head's budget (R123, R124, R127, R128). -/
theorem HeadBudget.afterTick_spec :
    let c := b.afterTick ends recomputes on share
    let held := if recomputes then min b.credit c.cap else b.credit
    (ends = true → c.demand = (if on then (b.accumulator + 15) / 16 else 0) ∧ c.accumulator = 0) ∧
    (ends = false → c.demand = b.demand ∧ c.accumulator = b.accumulator) ∧
    (recomputes = true → c.cap = max (4 * c.share) 8192) ∧
    (recomputes = false → c.share = b.share ∧ c.cap = b.cap) ∧ c.deferred = b.deferred ∧
    c.credit = if on then min (held + c.share) c.cap else held := by
  obtain ⟨shareA, capA, creditA, deferredA⟩ := b.accountedFor_rest ends on
  obtain ⟨demandD, accumulatorD, deferredD, creditD⟩ := (b.accountedFor ends on).dividedInto_rest recomputes share
  obtain ⟨shareR, capR, demandR, accumulatorR, deferredR, creditR⟩ :=
    ((b.accountedFor ends on).dividedInto recomputes share).refilled_rest on
  rw [creditA] at creditD
  intro c held
  refine ⟨fun ended => ?_, fun not => ?_, fun recomputed => ?_, fun not => ?_,
    deferredR.trans (deferredD.trans deferredA), ?_⟩
  · subst ended
    exact ⟨demandR.trans demandD, accumulatorR.trans accumulatorD⟩
  · subst not
    exact ⟨demandR.trans demandD, accumulatorR.trans accumulatorD⟩
  · subst recomputed
    exact capR.trans (congrArg (fun n => max (4 * n) 8192) shareR.symm)
  · subst not
    exact ⟨shareR.trans shareA, capR.trans capA⟩
  · simp only [held, c, HeadBudget.afterTick, creditR, creditD, shareR, capR]

end

/-- A head's budget once the shares are divided (R124, R127). -/
theorem State.shared_look (s : State) (h : Fin 4) : s.shared.budget.heads.look h =
    if 16 ≤ s.budget.epochTicks ∨ s.link.applyRequest = true ∨ s.budget.recompute = true then
      (s.applied.accounted.budget.heads.look h).withShare (s.applied.accounted.newShare h)
    else s.applied.accounted.budget.heads.look h := by
  rw [State.shared_eq]
  split
  · rw [State.recomputeShares, Table.look_tab]
  · rfl

theorem State.tickBudget_look (s : State) (h : Fin 4) : s.tickBudget.budget.heads.look h =
    (s.budget.heads.look h).afterTick (decide (16 ≤ s.budget.epochTicks))
      (decide (16 ≤ s.budget.epochTicks ∨ s.link.applyRequest = true ∨ s.budget.recompute = true)) (s.isOn h)
      (s.applied.accounted.newShare h) := by
  have on : s.divided.isOn h = s.isOn h := by
    rw [← s.accounted_isOn h, State.divided, State.shared_eq]
    split <;> rfl
  have divided : s.divided.budget.heads.look h = s.shared.budget.heads.look h := rfl
  rw [State.tickBudget_eq, State.refill, Table.look_tab, on, divided, HeadBudget.afterTick, ← s.accounted_look h,
    State.shared_look, HeadBudget.refilled, HeadBudget.dividedInto]
  simp only [decide_eq_true_eq]

/-- When a tick recomputes the shares they spend the link budget (R124). -/
theorem State.tickBudget_spends {s : State}
    (recomputes : 16 ≤ s.budget.epochTicks ∨ s.link.applyRequest = true ∨ s.budget.recompute = true) :
    s.tickBudget.sharesSpendTheBudget := by
  have shared := s.applied.accounted.recomputeShares_spends
  have divided : s.shared = s.applied.accounted.recomputeShares := by rw [State.shared_eq, if_pos recomputes]
  rw [← divided] at shared
  refine State.sharesSpendTheBudget_of_eq (s := s.shared) (fun h => rfl) (fun h => ?_) rfl shared
  exact s.divided.refill_keeps.shares h

/-- The epoch's ticks and the recompute request after the steps of a tick (R117, R124). -/
theorem State.tickBudget_counts (s : State) : s.tickBudget.budget.epochTicks =
      (if 16 ≤ s.budget.epochTicks then 0 else s.budget.epochTicks) ∧ s.tickBudget.budget.recompute = false := by
  have budget : s.applied.budget = s.budget := by rw [State.applied_eq]
  have formed : s.applied.accounted.budget.epochTicks = if 16 ≤ s.budget.epochTicks then 0 else s.budget.epochTicks := by
    rw [State.accounted, budget]
    simp only [decide_eq_true_eq]
    split
    · rfl
    · rw [budget]
  refine ⟨?_, rfl⟩
  rw [← formed]
  have divided : s.tickBudget.budget.epochTicks = s.shared.budget.epochTicks := rfl
  rw [divided, State.shared_eq]
  split <;> rfl

/-- An apply makes head `h` exact-only (R61). -/
def State.turnsExactOnly (h : Fin 4) (s : State) : Prop :=
  s.link.applyRequest = true ∧ (s.heads.look h).state ≠ .off ∧
    (s.link.current.heads.look h).exactOnly = false ∧ (s.link.staged.heads.look h).exactOnly = true

theorem State.turnsExactOnly_iff (s : State) (h : Fin 4) :
    s.turnsExactOnly h ↔ s.link.applyRequest = true ∧ s.becomesExactOnly h = true := by
  simp only [State.turnsExactOnly, State.becomesExactOnly, State.isOn, Bool.and_eq_true, decide_eq_true_eq,
    Bool.not_eq_true', and_assoc]

/-- The marks of an apply: the REDUCED tiles of the heads that become exact-only (R61). -/
theorem State.applied_isStale {s : State} {id : Fin 16} {c w : Nat} (hs : s.hasTileAt id c w) :
    s.applied.isStale id c w = true ↔ s.isStale id c w = true ∨ ∃ h, s.turnsExactOnly h ∧
      id ∈ (s.heads.look h).flipSet ∧ (s.heads.look h).qualityOf c w = some .reduced := by
  simp only [State.turnsExactOnly_iff]
  unfold State.applied
  cases s.link.applyRequest with
  | false => simp
  | true =>
    have marked := fun k : Link => State.markReducedEach_isStale (allHeads.filter fun h => s.becomesExactOnly h)
      { s with link := k } hs
    simp only [List.mem_filter, mem_allHeads, true_and] at marked ⊢
    exact marked _

/-- With no head that becomes exact-only an apply marks nothing. -/
theorem State.applied_surfaces_of_none {s : State} (none : ∀ h, ¬ s.turnsExactOnly h) :
    s.applied.surfaces = s.surfaces := by
  simp only [State.turnsExactOnly_iff, not_and, Bool.not_eq_true] at none
  unfold State.applied
  split
  next apply =>
    have empty : (allHeads.filter fun h => s.becomesExactOnly h) = [] :=
      List.filter_eq_nil_iff.2 fun h _ => by simp [none h apply]
    simp only [State.applySettings, empty, List.foldl_nil]
  next => rfl

/-- The command, step by step (R118). -/
theorem exec_tick (s : State) : exec .tick s =
    .next (allHeads.foldl (fun v h => v.reevaluate h) s.ticked.tickBudget).statusTest.sendDecision := by
  have ticked : s.takeTick =
      (allHeads.foldl (fun v h => v.reevaluate h) s.ticked.tickBudget).statusTest.sendDecision := by
    simp only [State.takeTick, State.ticked, State.reachTime_frame]
    rfl
  exact congrArg Host.Outcome.next ticked

/-- The state in which a tick's steps are taken (R117, log 2). -/
theorem State.ticked_eq (s : State) : s.ticked = { s with budget := { s.budget with
    now := if timeReached s.budget.now s.budget.tickAt then s.budget.now else s.budget.tickAt
    tickAt := s.budget.tickAt + 1000
    epochTicks := s.budget.epochTicks + 1 } } := by
  unfold State.ticked State.reachTime
  split <;> rfl

end Sys2Proof.Machine
end

section
/-! SUPPORT. A re-evaluation and a head without deferred records (R133), and the STATUS test (R153). -/

namespace Sys2Proof.Machine

/-! ### A head without deferred records -/

/-- Leaving a deferral list does nothing to the budget of a head that has none. -/
theorem State.dropDeferred_look_of_nil {s : State} {q : Fin 4} (nil : (s.budget.heads.look q).deferred = [])
    (h : Fin 4) (i : Fin 64) : (s.dropDeferred h i).budget.heads.look q = s.budget.heads.look q := by
  simp only [State.dropDeferred, State.updBudget, Table.look_upd]
  split
  next own =>
    subst own
    rw [nil, List.filter_nil, ← nil]
  next => rfl

/-- The head `q` has no deferred records, and the budget `b`. -/
def State.keepsBudget (q : Fin 4) (b : HeadBudget) (s : State) : Prop := b.deferred = [] ∧ s.budget.heads.look q = b

section
variable {s : State} {q : Fin 4} {b : HeadBudget} (hs : s.keepsBudget q b)

include hs

theorem State.keepsBudget.dropDeferred (h : Fin 4) (i : Fin 64) : (s.dropDeferred h i).keepsBudget q b := by
  obtain ⟨nil, look⟩ := hs
  exact ⟨nil, (State.dropDeferred_look_of_nil (by rw [look, nil]) h i).trans look⟩

theorem State.keepsBudget.freeDeferredRefines (h : Fin 4) : (s.freeDeferredRefines h).keepsBudget q b := by
  unfold State.freeDeferredRefines
  refine List.foldlRecOn _ _ hs fun v hv i _ => ?_
  split
  · split
    · exact hv.dropDeferred _ _
    · exact hv
  · exact hv

theorem State.keepsBudget.tryDeferred {h : Fin 4} (other : q ≠ h) (l : List (Fin 64)) :
    (s.tryDeferred h l).keepsBudget q b := by
  induction l generalizing s with
  | nil => exact hs
  | cons i l ih =>
    rw [State.tryDeferred]
    repeat' split
    next d _ =>
      refine ih ⟨hs.1, ?_⟩
      rw [State.charge_budget]
      exact (Table.look_upd_ne _ other _).trans (hs.dropDeferred h i).2
    all_goals exact hs

theorem State.keepsBudget.ageDeferred (i : Fin 64) : (s.ageDeferred i).keepsBudget q b := by
  cases hr : s.slots.look i with
  | none => simpa only [State.ageDeferred, hr] using hs
  | some r =>
    rw [State.ageDeferred_of_look hr]
    split
    · exact hs.dropDeferred _ _
    · exact hs

/-- A re-evaluation leaves the budget of a head without deferred records (R133). -/
theorem State.keepsBudget.reevaluate (h : Fin 4) : (s.reevaluate h).keepsBudget q b := by
  unfold State.reevaluate
  extract_lets freed tried
  have keptFreed : freed.keepsBudget q b := by
    simp only [freed]
    split
    · exact hs.freeDeferredRefines h
    · exact hs
  have keptTried : tried.keepsBudget q b := by
    by_cases own : q = h
    · have nothing : freed.tryOrder h = [] := by
        have nil : (freed.budget.heads.look h).deferred = [] := by rw [← own, keptFreed.2, hs.1]
        unfold State.tryOrder
        rw [nil]
        repeat' split
        all_goals rfl
      simp only [tried, nothing, State.tryDeferred]
      exact keptFreed
    · exact keptFreed.tryDeferred own _
  exact List.foldlRecOn _ _ keptTried fun v hv i _ => hv.ageDeferred i

end

/-- The re-evaluation of every head leaves the budget of one without deferred records. -/
theorem State.reevaluateEach_look {s : State} {q : Fin 4} (nil : (s.budget.heads.look q).deferred = [])
    (l : List (Fin 4)) : (l.foldl (fun v h => v.reevaluate h) s).budget.heads.look q = s.budget.heads.look q :=
  (List.foldlRecOn (motive := State.keepsBudget q (s.budget.heads.look q)) l _ ⟨nil, rfl⟩
    fun _ hv h _ => hv.reevaluate h).2

/-! ### The STATUS test -/

/-- The STATUS test does nothing without the flag or outside UP (R153). -/
theorem State.statusTest_of_not {v : State} (not : v.link.statusPending = false ∨ v.link.state ≠ .up) :
    v.statusTest = v := by
  unfold State.statusTest
  refine if_neg fun both => ?_
  obtain ⟨pending, up⟩ := (Bool.and_eq_true ..).mp both
  exact not.elim (fun clear => Bool.false_ne_true (clear.symm.trans pending)) fun down => down (of_decide_eq_true up)

section
variable {v : State} (pending : v.link.statusPending = true) (up : v.link.state = .up)

include pending up

/-- While UP with an event to report a STATUS frame is offered and the flag cleared (R153). -/
theorem State.statusTest_of_report (report : v.link.reportable ≠ 0) :
    v.statusTest = { v.offerStatus with link := { v.offerStatus.link with statusPending := false } } := by
  simp only [State.statusTest, pending, up, decide_true, Bool.and_self, if_true, if_pos report]

/-- With nothing to report, or a STATUS frame queued, the flag is cleared and nothing else is done (R143, R153). -/
theorem State.statusTest_of_settled (settled : v.link.reportable = 0 ∨ ControlFrame.status ∈ v.link.control) :
    v.statusTest = { v with link := { v.link with statusPending := false } } := by
  by_cases report : v.link.reportable = 0
  · simp only [State.statusTest, pending, up, decide_true, Bool.and_self, if_true, report, ne_eq,
      not_true_eq_false, if_false]
  · have queued := settled.resolve_left report
    have none : v.offerStatus = v := by
      simp only [State.offerStatus, up, List.contains_iff_mem.2 queued, if_true]
    rw [State.statusTest_of_report pending up report, none]

/-- With an event to report and room a STATUS frame joins the tail (R143, R153). -/
theorem State.statusTest_of_room (report : v.link.reportable ≠ 0) (none : ControlFrame.status ∉ v.link.control)
    (room : v.link.control.length < 16) : v.statusTest = { v with link := { v.link with
      statusPending := false, control := v.link.control ++ [.status] } } := by
  have offered : v.offerStatus = { v with link := { v.link with control := v.link.control ++ [.status] } } := by
    have absent : v.link.control.contains .status = false := by simpa using none
    simp only [State.offerStatus, up, absent, State.pushControl, room, if_true, Bool.false_eq_true, if_false]
  rw [State.statusTest_of_report pending up report, offered]

end

/-! ### The command -/

/-- What a tick leaves before the re-evaluation: the surfaces and the link as its apply leaves them. -/
theorem State.ticked_tickBudget_eq (s : State) : s.ticked.tickBudget = { s with
    surfaces := s.ticked.applied.surfaces
    budget := s.ticked.tickBudget.budget
    link := { s.link with
      current := if s.link.applyRequest then s.link.staged.reduceQuotas else s.link.current
      applyRequest := false
      statusPending := s.link.statusPending || (s.link.applyRequest &&
        decide (s.link.latches &&& s.link.current.mask &&& ~~~s.link.staged.mask ≠ 0)) } } := by
  rw [State.tickBudget_rest, State.applied_eq, State.ticked_eq]

/-- When the tick ends an epoch, and when it recomputes the shares, as the state before it says. -/
theorem State.ticked_recomputes (s : State) :
    (16 ≤ s.ticked.budget.epochTicks ↔ 15 ≤ s.budget.epochTicks) ∧
    ((16 ≤ s.ticked.budget.epochTicks ∨ s.ticked.link.applyRequest = true ∨ s.ticked.budget.recompute = true) ↔
      (15 ≤ s.budget.epochTicks ∨ s.link.applyRequest = true ∨ s.budget.recompute = true)) := by
  rw [State.ticked_eq]
  exact ⟨Nat.succ_le_succ_iff, or_congr_left Nat.succ_le_succ_iff⟩

/-- Settles O37: the steps before the re-evaluation, the re-evaluation of each head in turn, and the STATUS test. -/
theorem tickStepsInOrder : Obligations.TickStepsInOrder := by
  refine ⟨fun s => ?_, fun v => ?_⟩
  · intro ends recomputed becomes unmasked
    have rest := s.ticked_tickBudget_eq
    have link := congrArg State.link rest
    have surfaces := congrArg State.surfaces rest
    obtain ⟨endsTick, recomputesTick⟩ := s.ticked_recomputes
    obtain ⟨counted, request⟩ := s.ticked.tickBudget_counts
    have ticks : s.ticked.tickBudget.budget.epochTicks =
        if 15 ≤ s.budget.epochTicks then 0 else s.budget.epochTicks + 1 := by
      rw [counted]
      simp only [endsTick]
      rw [State.ticked_eq]
    have evaluated : s.ticked.tickBudget.forHeads (fun h v => v.reevaluate h) =
        allHeads.foldl (fun v h => v.reevaluate h) s.ticked.tickBudget := rfl
    refine ⟨s.ticked.tickBudget, _, exec_tick s, ?_, by simp [State.ticked_eq], by simp [State.ticked_eq],
      fun ended => ticks.trans (if_pos ended), fun not => ticks.trans (if_neg not), request,
      congrArg Link.current link, ?_, fun recomputed => State.tickBudget_spends (recomputesTick.2 recomputed),
      fun h => ?_, fun id f hf marks c w tile => ?_, fun none => ?_, rfl, ?_⟩
    · exact rest.trans (State.eq_of_fields (surfaces := surfaces.symm) (link := by rw [link])
        (budget := Budget.eq_of_fields (overrideActive := by simp [State.ticked_eq]) (hold := by simp [State.ticked_eq])))
    · rw [link]
      simp only [Bool.or_eq_true, Bool.and_eq_true, decide_eq_true_eq]
      rfl
    · have look := s.ticked.tickBudget_look h
      simp only [endsTick] at look
      have taken := (s.budget.heads.look h).afterTick_spec (decide ends) (decide recomputed) (s.isOn h)
        (s.ticked.applied.accounted.newShare h)
      rw [look]
      simp only [decide_eq_true_eq, decide_eq_false_iff_not] at taken
      rw [State.ticked_eq] at taken ⊢
      exact taken
    · have marked := State.applied_isStale (s := s.ticked) (id := id) (c := c) (w := w)
      rw [State.isStale_of_surfaces surfaces]
      rw [State.ticked_eq] at marked ⊢
      exact marked ⟨f, hf, marks, tile⟩
    · have kept := State.applied_surfaces_of_none (s := s.ticked)
      rw [surfaces]
      rw [State.ticked_eq] at kept ⊢
      exact kept none
    · rw [← evaluated]
      refine ⟨by simp, by simp, by simp, by simpa using request, by simpa using congrArg Link.applyRequest link,
        by simpa using congrArg Link.staged link, by simp, fun h nil => ?_, by simp [State.ticked_eq],
        by simp [State.ticked_eq], by simp [State.ticked_eq], by simp [State.ticked_eq], by simp [State.ticked_eq],
        by simp [State.ticked_eq], by simp [State.ticked_eq]⟩
      rw [evaluated]
      simpa using State.reevaluateEach_look nil allHeads
  · intro settled
    refine ⟨State.statusTest_of_not, fun pending up => ⟨State.statusTest_of_settled pending up,
      State.statusTest_of_room pending up, fun report => ?_⟩⟩
    exact State.statusTest_of_report pending up report

end Sys2Proof.Machine
end

section
/-! SUPPORT. What the Input Relay does when the link has left UP (R162). -/

namespace Sys2Proof.Machine

/-! ### The held keys, the buttons and the pointer position stand apart from the queue (R157) -/

/-- What the Input Relay knows to be held, and where the pointer is. -/
def Relay.held (r : Relay) : Byte × List Byte × BitVec 5 × Option (BitVec 15 × BitVec 15) :=
  (r.heldModifiers, r.heldKeys, r.buttons, r.position)

theorem Relay.held_iff {r t : Relay} : r.held = t.held ↔ r.heldModifiers = t.heldModifiers ∧
    r.heldKeys = t.heldKeys ∧ r.buttons = t.buttons ∧ r.position = t.position := by
  simp only [Relay.held, Prod.mk.injEq]

@[simp] theorem Relay.join_held (r : Relay) (e : InputEntry) : (r.join e).held = r.held := by
  unfold Relay.join Relay.tryBegin Relay.beginFrame
  repeat' split
  all_goals rfl

@[simp] theorem Relay.shedForRelease_held (r : Relay) : r.shedForRelease.held = r.held := by
  unfold Relay.shedForRelease
  split <;> rfl

theorem State.offerKeyboard_held (m : Byte) (k : List Byte) (s : State) :
    (s.offerKeyboard m k).relay.held = s.relay.held := by
  unfold State.offerKeyboard
  dsimp only
  repeat' split
  · exact Relay.join_held _ _
  · rfl
  · exact Relay.join_held _ _
  · exact Relay.join_held _ _

theorem State.offerPointerRelease_held (x y : BitVec 15) (s : State) :
    (s.offerPointerRelease x y).relay.held = s.relay.held := by
  unfold State.offerPointerRelease State.pointerSteps
  dsimp only
  repeat' split
  · rfl
  · exact Relay.join_held _ _
  · rfl
  · exact (Relay.join_held _ _).trans (Relay.shedForRelease_held _)

theorem State.offerNotice_held (n : Notice) (s : State) : (s.offerNotice n).relay.held = s.relay.held := by
  unfold State.offerNotice
  rw [State.updRelay_relay]
  split
  · rfl
  · exact Relay.join_held _ _

/-- An entry that joins the queue waits in it, or is sent at once (R156). -/
theorem Relay.join_holds (r : Relay) (e : InputEntry) :
    e ∈ (r.join e).queue ∨ ∃ w, (r.join e).sending = some { entry := e, lost := w } := by
  rw [Relay.join_eq_joined]
  unfold Relay.joined
  split
  next x rest _ _ queue =>
    have member : e ∈ x :: rest := queue ▸ List.mem_append_right _ (List.mem_singleton_self e)
    rcases List.mem_cons.1 member with rfl | later
    · exact .inr ⟨_, rfl⟩
    · exact .inl later
  next => exact .inl (List.mem_append_right _ (List.mem_singleton_self e))

/-- An offered notice is lost with the flag set, waits, or is sent (R163). -/
theorem State.offerNotice_holds (n : Notice) (s : State) :
    (s.offerNotice n).relay.lost = true ∨ InputEntry.notice n ∈ (s.offerNotice n).relay.queue ∨
      ∃ w, (s.offerNotice n).relay.sending = some { entry := .notice n, lost := w } := by
  unfold State.offerNotice
  simp only [State.updRelay_relay]
  split
  · exact .inl rfl
  · exact .inr (s.relay.join_holds (.notice n))

/-! ### The two releases, one after the other (R162) -/

/-- The held keys released: step 1 of R162. -/
def State.releaseKeys (s : State) : State :=
  if s.relay.heldModifiers ≠ 0 ∨ s.relay.heldKeys ≠ [] then
    (s.offerKeyboard 0 []).updRelay fun r => { r with heldModifiers := 0, heldKeys := [] }
  else s

/-- The buttons released: step 2 of R162. -/
def State.releaseButtons (s : State) : State :=
  if s.relay.buttons ≠ 0 then
    match s.relay.position with
    | some (x, y) => (s.offerPointerRelease x y).updRelay fun r => { r with buttons := 0 }
    | none => s.updRelay fun r => { r with buttons := 0 }
  else s

theorem State.releaseHeld_eq (s : State) : s.releaseHeld = s.releaseKeys.releaseButtons.offerNotice (.link false) := rfl

theorem State.releaseKeys_held (s : State) :
    s.releaseKeys.relay.held = (0, [], s.relay.buttons, s.relay.position) := by
  unfold State.releaseKeys
  split
  next =>
    obtain ⟨-, -, buttons, position⟩ := Relay.held_iff.1 (s.offerKeyboard_held 0 [])
    simp only [Relay.held, State.updRelay_relay, buttons, position]
  next none =>
    obtain ⟨modifiers, keys⟩ : s.relay.heldModifiers = 0 ∧ s.relay.heldKeys = [] := by simpa using none
    rw [Relay.held, modifiers, keys]

theorem State.releaseButtons_held (s : State) :
    s.releaseButtons.relay.held = (s.relay.heldModifiers, s.relay.heldKeys, 0, s.relay.position) := by
  unfold State.releaseButtons
  split
  · split
    next x y at_ =>
      obtain ⟨modifiers, keys, -, position⟩ := Relay.held_iff.1 (s.offerPointerRelease_held x y)
      simp [Relay.held, modifiers, keys, position]
    next => rfl
  next none => rw [Relay.held, not_not.1 none]

/-- After R162 no key and no button is held, and the pointer position is kept. -/
theorem State.releaseHeld_held (s : State) : s.releaseHeld.relay.held = (0, [], 0, s.relay.position) := by
  have keys := s.releaseKeys_held
  simp only [Relay.held, Prod.mk.injEq] at keys
  obtain ⟨modifiers, codes, -, position⟩ := keys
  rw [State.releaseHeld_eq, State.offerNotice_held, State.releaseButtons_held, modifiers, codes, position]

/-! ### What a release of the held input reads, and what it counts (R160, R162) -/

/-- Two states that agree in all that an offer to the input queue reads and changes: the Input Relay, the reports
dropped, and the events. -/
structure State.SameInput (s t : State) : Prop where
  relay : s.relay = t.relay
  inputDropped : s.counters.inputDropped = t.counters.inputDropped
  latches : s.link.latches = t.link.latches
  statusPending : s.link.statusPending = t.link.statusPending
  current : s.link.current = t.link.current

namespace State.SameInput

variable {s t : State} (h : s.SameInput t)

include h

theorem trans {u : State} (k : t.SameInput u) : s.SameInput u where
  relay := h.relay.trans k.relay
  inputDropped := h.inputDropped.trans k.inputDropped
  latches := h.latches.trans k.latches
  statusPending := h.statusPending.trans k.statusPending
  current := h.current.trans k.current

theorem updRelay (f : Relay → Relay) : (s.updRelay f).SameInput (t.updRelay f) where
  relay := congrArg f h.relay
  inputDropped := h.inputDropped
  latches := h.latches
  statusPending := h.statusPending
  current := h.current

theorem inputOverflow : s.inputOverflow.SameInput t.inputOverflow := by
  have raised (x : State) : x.inputOverflow.link = x.link.raise .inputOverflow := rfl
  refine ⟨h.relay, congrArg (saturatingAdd · 1) h.inputDropped, ?_, ?_, ?_⟩ <;>
    simp only [raised, Link.raise, h.latches, h.statusPending, h.current] <;> split <;>
    simp only [h.latches, h.statusPending, h.current]

theorem ite {c : Prop} [Decidable c] {u v : State} (k : u.SameInput v) :
    (if c then s else u).SameInput (if c then t else v) := by
  split
  · exact h
  · exact k

theorem offerKeyboard (m : Byte) (k : List Byte) : (s.offerKeyboard m k).SameInput (t.offerKeyboard m k) := by
  simp only [State.offerKeyboard, h.relay]
  exact (h.updRelay _).ite ((h.updRelay _).inputOverflow.ite
    ((h.updRelay _).inputOverflow.ite (h.updRelay _).inputOverflow))

theorem offerPointerRelease (x y : BitVec 15) :
    (s.offerPointerRelease x y).SameInput (t.offerPointerRelease x y) := by
  simp only [State.offerPointerRelease, State.pointerSteps, h.relay]
  split
  · exact h.updRelay _
  · exact (h.updRelay _).ite ((h.updRelay _).inputOverflow.ite (h.updRelay _).inputOverflow)

theorem offerNotice (n : Notice) : (s.offerNotice n).SameInput (t.offerNotice n) := h.updRelay _

theorem releaseKeys : s.releaseKeys.SameInput t.releaseKeys := by
  simp only [State.releaseKeys, h.relay]
  exact ((h.offerKeyboard _ _).updRelay _).ite h

theorem releaseButtons : s.releaseButtons.SameInput t.releaseButtons := by
  simp only [State.releaseButtons, h.relay]
  refine ite ?_ h
  split
  · exact (h.offerPointerRelease _ _).updRelay _
  · exact h.updRelay _

/-- What the Input Relay does at link loss depends on the input alone. -/
theorem releaseHeld : s.releaseHeld.SameInput t.releaseHeld := by
  exact h.releaseKeys.releaseButtons.offerNotice _

end State.SameInput

/-- The counters but for the reports dropped. -/
def Counters.undropped (c : Counters) : Counters := { c with inputDropped := 0 }

theorem Counters.eq_of_undropped {c d : Counters} (h : c.undropped = d.undropped) :
    c = { d with inputDropped := c.inputDropped } := by
  cases c
  cases d
  simpa [Counters.undropped] using h

theorem State.offerKeyboard_undropped (m : Byte) (k : List Byte) (s : State) :
    (s.offerKeyboard m k).counters.undropped = s.counters.undropped := by
  unfold State.offerKeyboard
  dsimp only
  repeat' split
  all_goals rfl

theorem State.offerPointerRelease_undropped (x y : BitVec 15) (s : State) :
    (s.offerPointerRelease x y).counters.undropped = s.counters.undropped := by
  unfold State.offerPointerRelease State.pointerSteps
  dsimp only
  repeat' split
  all_goals rfl

theorem State.releaseKeys_undropped (s : State) : s.releaseKeys.counters.undropped = s.counters.undropped := by
  unfold State.releaseKeys
  split
  · exact s.offerKeyboard_undropped 0 []
  · rfl

theorem State.releaseButtons_undropped (s : State) :
    s.releaseButtons.counters.undropped = s.counters.undropped := by
  unfold State.releaseButtons
  split
  · split
    · exact s.offerPointerRelease_undropped _ _
    · rfl
  · rfl

/-- R162 counts dropped reports alone. -/
theorem State.releaseHeld_counters (s : State) :
    s.releaseHeld.counters = { s.counters with inputDropped := s.releaseHeld.counters.inputDropped } :=
  Counters.eq_of_undropped (s.releaseKeys.releaseButtons_undropped.trans s.releaseKeys_undropped)

end Sys2Proof.Machine
end

section
/-! SUPPORT. The link leaves UP: the withdrawal of every record (R55, R62 to R65, R140). -/

namespace Sys2Proof.Machine

/-- Link loss at one slot: a SENDING record is released, every other one withdrawn. -/
def State.loseSlot (i : Fin 64) (s : State) : State :=
  match s.slots.look i with
  | some r => if r.state = .sending then s.release i r else s.withdrawSlot i
  | none => s

theorem State.withdrawAtLinkLoss_eq (s : State) : s.withdrawAtLinkLoss = s.forSlots State.loseSlot := rfl

/-- What link loss leaves of a record: one that is ENCODING stays, withdrawn (R64). -/
def Record.afterLoss (r : Record) : Option Record :=
  if r.state = .encoding then some { r with withdrawn := true } else none

theorem State.loseSlot_of_free {i : Fin 64} {s : State} (free : s.slots.look i = none) : s.loseSlot i = s := by
  simp only [State.loseSlot, free]

section LostRecord

variable {i : Fin 64} {s : State} {r : Record} (hr : s.slots.look i = some r)

include hr

theorem State.loseSlot_of_sending (sending : r.state = .sending) : s.loseSlot i = s.release i r := by
  simp only [State.loseSlot, hr, sending, if_true]

theorem State.loseSlot_of_notSending (other : r.state ≠ .sending) : s.loseSlot i = s.withdrawSlot i := by
  simp only [State.loseSlot, hr, other, if_false]

end LostRecord

theorem Record.afterWithdrawal_eq_afterLoss {r : Record} (other : r.state ≠ .sending) :
    Record.afterWithdrawal (fun _ => true) r = r.afterLoss := by
  unfold Record.afterWithdrawal Record.afterLoss
  cases state : r.state <;> simp_all

/-- The three ways of a slot at link loss: free, SENDING and so released, or withdrawn. -/
theorem State.loseSlot_cases {P : Option Record → State → Prop} (i : Fin 64) (s : State)
    (free : s.slots.look i = none → P none s)
    (sending : ∀ r, s.slots.look i = some r → r.state = .sending → P (some r) (s.release i r))
    (other : ∀ r, s.slots.look i = some r → r.state ≠ .sending → P (some r) (s.withdrawSlot i)) :
    P (s.slots.look i) (s.loseSlot i) := by
  cases hr : s.slots.look i with
  | none =>
    rw [State.loseSlot_of_free hr]
    exact free hr
  | some r =>
    by_cases state : r.state = .sending
    · rw [State.loseSlot_of_sending hr state]
      exact sending r hr state
    · rw [State.loseSlot_of_notSending hr state]
      exact other r hr state

theorem State.loseSlot_look (i : Fin 64) (s : State) (j : Fin 64) :
    (s.loseSlot i).slots.look j = if j = i then (s.slots.look j).bind Record.afterLoss else s.slots.look j := by
  have own : (s.loseSlot i).slots.look j =
      if j = i then (s.slots.look i).bind Record.afterLoss else s.slots.look j := by
    refine State.loseSlot_cases (P := fun o t =>
      t.slots.look j = if j = i then o.bind Record.afterLoss else s.slots.look j) i s ?_ ?_ ?_
    · intro free
      split
      next same => rw [same, free]; rfl
      next => rfl
    · intro r _ sending
      simp [Table.look_put, Record.afterLoss, sending]
    · intro r hr other
      rw [State.withdrawSlot_look hr, Record.afterWithdrawal_eq_afterLoss other]
      rfl
  rw [own]
  split
  next same => rw [same]
  next => rfl

theorem State.loseSlot_encodeQueue (i : Fin 64) (s : State) : (s.loseSlot i).encodeQueue =
    if (s.slots.look i).any (fun r => decide (r.state = .captured)) then s.encodeQueue.filter (· ≠ i)
    else s.encodeQueue := by
  refine State.loseSlot_cases (P := fun o t => t.encodeQueue =
    if o.any (fun r => decide (r.state = .captured)) then s.encodeQueue.filter (· ≠ i)
    else s.encodeQueue) i s ?_ ?_ ?_
  · intro _; rfl
  · intro r _ sending; simp [sending]
  · intro r hr _; simp [State.withdrawSlot_encodeQueue hr]

theorem State.loseSlot_deferred (h : Fin 4) (i : Fin 64) (s : State) :
    ((s.loseSlot i).budget.heads.look h).deferred =
      if (s.slots.look i).any (fun r => decide (r.state = .deferred ∧ r.head = h)) then
        (s.budget.heads.look h).deferred.filter (· ≠ i)
      else (s.budget.heads.look h).deferred := by
  refine State.loseSlot_cases (P := fun o t => (t.budget.heads.look h).deferred =
    if o.any (fun r => decide (r.state = .deferred ∧ r.head = h)) then
      (s.budget.heads.look h).deferred.filter (· ≠ i)
    else (s.budget.heads.look h).deferred) i s ?_ ?_ ?_
  · intro _; rfl
  · intro r _ sending; simp [sending]
  · intro r hr _; simp [State.withdrawSlot_deferred hr]

theorem State.loseSlot_send (h : Fin 4) (i : Fin 64) (s : State) :
    (s.loseSlot i).link.send.look h =
      if (s.slots.look i).any (fun r => decide (r.state = .queued ∧ r.head = h)) then
        (s.link.send.look h).filter (· ≠ i)
      else s.link.send.look h := by
  refine State.loseSlot_cases (P := fun o t => t.link.send.look h =
    if o.any (fun r => decide (r.state = .queued ∧ r.head = h)) then (s.link.send.look h).filter (· ≠ i)
    else s.link.send.look h) i s ?_ ?_ ?_
  · intro _; rfl
  · intro r _ sending; simp [sending]
  · intro r hr _; simp [State.withdrawSlot_send hr]

theorem State.loseSlot_counters (i : Fin 64) (s : State) : (s.loseSlot i).counters =
    { s.counters with
      capturesAbandoned := saturatingAdd s.counters.capturesAbandoned
        (if (s.slots.look i).any (fun r => decide (r.state = .capturing)) then 1 else 0) } := by
  refine State.loseSlot_cases (P := fun o t => t.counters =
    { s.counters with
      capturesAbandoned := saturatingAdd s.counters.capturesAbandoned
        (if o.any (fun r => decide (r.state = .capturing)) then 1 else 0) }) i s ?_ ?_ ?_
  · intro _; simp
  · intro r _ sending; simp [sending]
  · intro r hr _; simp [State.withdrawSlot_counters hr]

theorem State.loseSlot_undeferred (h : Fin 4) (i : Fin 64) (s : State) :
    ((s.loseSlot i).budget.heads.look h).undeferred = (s.budget.heads.look h).undeferred := by
  refine State.loseSlot_cases (P := fun _ t =>
    (t.budget.heads.look h).undeferred = (s.budget.heads.look h).undeferred) i s ?_ ?_ ?_
  · intro _; rfl
  · intro r _ _; rfl
  · intro r _ _; exact s.withdrawSlot_undeferred i h

theorem State.onlyMarks_loseSlot (i : Fin 64) (s : State) : s.onlyMarks (s.loseSlot i) :=
  State.loseSlot_cases (P := fun _ t => s.onlyMarks t) i s (fun _ => State.onlyMarks_of_eq rfl)
    (fun r _ _ => s.onlyMarks_release i r) (fun _ _ _ => s.onlyMarks_withdrawSlot i)

/-- Link loss marks the tile of a slot's record unless it is ENCODING. -/
theorem State.loseSlot_isStale {id : Fin 16} {c w : Nat} (i : Fin 64) (s : State) (tile : s.hasTileAt id c w) :
    (s.loseSlot i).isStale id c w = true ↔ s.isStale id c w = true ∨ ∃ r ∈ s.slots.look i,
      r.state ≠ .encoding ∧ r.surface = id ∧ r.column = c ∧ r.row = w := by
  refine State.loseSlot_cases (P := fun o t => t.isStale id c w = true ↔ s.isStale id c w = true ∨ ∃ r ∈ o,
    r.state ≠ .encoding ∧ r.surface = id ∧ r.column = c ∧ r.row = w) i s ?_ ?_ ?_
  · intro _; simp
  · intro r _ sending
    have freed : (s.freeSlot i).hasTileAt id c w := tile
    rw [State.release, State.isStale_markStale freed]
    simp [sending, State.isStale]
  · intro r hr sending
    by_cases encoding : r.state = .encoding
    · rw [State.isStale_of_surfaces ((State.withdrawSlot_surfaces hr).trans
        (if_neg (by simp [Record.releasedAtOnce, encoding])))]
      simp [encoding]
    · rw [State.isStale_of_surfaces ((State.withdrawSlot_surfaces hr).trans
        (if_pos (by simp [Record.releasedAtOnce, encoding, sending]))), State.isStale_markStale tile]
      simp [encoding]

/-! ### Every slot -/

theorem State.withdrawAtLinkLoss_look (s : State) (i : Fin 64) :
    s.withdrawAtLinkLoss.slots.look i = (s.slots.look i).bind Record.afterLoss := by
  rw [State.withdrawAtLinkLoss_eq]
  exact forSlots_look (g := (·.bind Record.afterLoss)) State.loseSlot_look s i

/-- What a list of slots that link loss rids of its records keeps: nothing, when it names records of that kind alone. -/
theorem filter_eq_nil_of_holds {s : State} {Q : Record → Bool} {l : List (Fin 64)}
    (named : ∀ i ∈ l, ∃ r, s.slots.look i = some r ∧ Q r = true) :
    l.filter (fun i => !((s.slots.look i).any Q)) = [] := by
  rw [List.filter_eq_nil_iff]
  intro i member
  obtain ⟨r, hr, holds⟩ := named i member
  simp [hr, holds]

section InPlace

variable {s : State} (inPlace : s.slotsInPlace)

include inPlace

theorem State.withdrawAtLinkLoss_encodeQueue : s.withdrawAtLinkLoss.encodeQueue = [] := by
  rw [State.withdrawAtLinkLoss_eq]
  refine (forSlots_filter (g := (·.bind Record.afterLoss)) State.loseSlot_look (fun s => s.encodeQueue)
    (fun o => o.any fun r => decide (r.state = .captured)) State.loseSlot_encodeQueue s).trans
    (filter_eq_nil_of_holds fun i member => ?_)
  obtain ⟨slots, -⟩ := inPlace
  obtain ⟨standing, free⟩ := slots i
  cases hr : s.slots.look i with
  | none => exact absurd member (free hr).1
  | some r => exact ⟨r, rfl, decide_eq_true ((standing r hr).1.1 member)⟩

theorem State.withdrawAtLinkLoss_deferred (h : Fin 4) :
    (s.withdrawAtLinkLoss.budget.heads.look h).deferred = [] := by
  rw [State.withdrawAtLinkLoss_eq]
  refine (forSlots_filter (g := (·.bind Record.afterLoss)) State.loseSlot_look
    (fun s => (s.budget.heads.look h).deferred)
    (fun o => o.any fun r => decide (r.state = .deferred ∧ r.head = h)) (State.loseSlot_deferred h) s).trans
    (filter_eq_nil_of_holds fun i member => ?_)
  obtain ⟨slots, -⟩ := inPlace
  obtain ⟨standing, free⟩ := slots i
  cases hr : s.slots.look i with
  | none =>
    obtain ⟨-, -, notDeferred, -⟩ := free hr
    exact absurd member (notDeferred h)
  | some r =>
    obtain ⟨-, -, deferred, -⟩ := standing r hr
    obtain ⟨state, head⟩ := (deferred h).1 member
    exact ⟨r, rfl, decide_eq_true ⟨state, head.symm⟩⟩

theorem State.withdrawAtLinkLoss_send (h : Fin 4) : s.withdrawAtLinkLoss.link.send.look h = [] := by
  rw [State.withdrawAtLinkLoss_eq]
  refine (forSlots_filter (g := (·.bind Record.afterLoss)) State.loseSlot_look (fun s => s.link.send.look h)
    (fun o => o.any fun r => decide (r.state = .queued ∧ r.head = h)) (State.loseSlot_send h) s).trans
    (filter_eq_nil_of_holds fun i member => ?_)
  obtain ⟨slots, -⟩ := inPlace
  obtain ⟨standing, free⟩ := slots i
  cases hr : s.slots.look i with
  | none =>
    obtain ⟨-, -, -, notQueued, -⟩ := free hr
    exact absurd member (notQueued h)
  | some r =>
    obtain ⟨-, -, -, queued, -⟩ := standing r hr
    obtain ⟨state, head⟩ := (queued h).1 member
    exact ⟨r, rfl, decide_eq_true ⟨state, head.symm⟩⟩

end InPlace

theorem State.withdrawAtLinkLoss_capturesAbandoned (s : State) :
    s.withdrawAtLinkLoss.counters.capturesAbandoned = saturatingAdd s.counters.capturesAbandoned
      (allSlots.countP fun i => s.holds .capturing (fun _ => true) i) := by
  have counted := forSlots_count (g := (·.bind Record.afterLoss)) State.loseSlot_look
    (fun s => s.counters.capturesAbandoned) (fun o => o.any fun r => decide (r.state = .capturing))
    (fun i s => by rw [State.loseSlot_counters]) s
  rw [State.withdrawAtLinkLoss_eq]
  simpa only [State.holds_eq, Bool.and_true] using counted

/-- Link loss counts abandoned captures alone among the records. -/
theorem State.withdrawAtLinkLoss_counters (s : State) :
    s.withdrawAtLinkLoss.counters =
      { s.counters with capturesAbandoned := s.withdrawAtLinkLoss.counters.capturesAbandoned } := by
  have each : ∀ (t : State) i, ({ (t.loseSlot i).counters with capturesAbandoned := 0 } : Counters) =
      { t.counters with capturesAbandoned := 0 } := fun t i => by simp only [State.loseSlot_counters]
  have kept := foldl_keeps (fun s : State => ({ s.counters with capturesAbandoned := 0 } : Counters))
    (fun s i => State.loseSlot i s) each allSlots s
  rw [← State.forSlots, ← State.withdrawAtLinkLoss_eq] at kept
  exact Counters.eq_of_rest kept

theorem State.withdrawAtLinkLoss_credit (s : State) (h : Fin 4) :
    (s.withdrawAtLinkLoss.budget.heads.look h).credit = (s.budget.heads.look h).credit := by
  have kept := foldl_keeps (fun t : State => (t.budget.heads.look h).undeferred)
    (fun t i => State.loseSlot i t) (fun t i => t.loseSlot_undeferred h i) allSlots s
  rw [← State.forSlots, ← State.withdrawAtLinkLoss_eq] at kept
  have credit := congrArg HeadBudget.credit kept
  simpa only [HeadBudget.undeferred] using credit

theorem State.onlyMarks_withdrawAtLinkLoss (s : State) : s.onlyMarks s.withdrawAtLinkLoss := by
  rw [State.withdrawAtLinkLoss_eq]
  exact State.onlyMarks_forSlots _ (fun i t => t.onlyMarks_loseSlot i) s

theorem State.withdrawAtLinkLoss_marksOf (s : State) (id : Fin 16) :
    s.marksOf (fun r => r.state ≠ .encoding) id s.withdrawAtLinkLoss := by
  intro f hf marks c w inside
  have folded := foldSlots_isStale (g := (·.bind Record.afterLoss)) State.loseSlot_look _
    (fun i t => t.onlyMarks_loseSlot i) (fun i t => t.loseSlot_isStale (id := id) (c := c) (w := w) i)
    allSlots allSlots_nodup s ⟨f, hf, marks, inside⟩
  rw [State.withdrawAtLinkLoss_eq, State.forSlots, folded]
  simp only [mem_allSlots, true_and, Option.mem_def]

end Sys2Proof.Machine
end

section
/-! SUPPORT. The link leaves UP, in the order of R140. -/

namespace Sys2Proof.Machine

/-- Steps 2 to 4 of R140: the ANSWER frames counted, the control FIFO emptied, the wire idle and the link DOWN. -/
def State.sever (s : State) : State :=
  { s.countBy .answersDropped s.link.answersHeld with
    link := { s.link with state := .down, control := [], wire := .idle } }

@[simp] theorem State.sever_counters (s : State) : s.sever.counters =
    { s.counters with answersDropped := saturatingAdd s.counters.answersDropped s.link.answersHeld } := rfl

@[simp] theorem State.sever_link (s : State) :
    s.sever.link = { s.link with state := .down, control := [], wire := .idle } := rfl

@[simp] theorem State.sever_frame (s : State) : s.sever.heads = s.heads ∧ s.sever.scans = s.scans ∧
    s.sever.surfaces = s.surfaces ∧ s.sever.slots = s.slots ∧ s.sever.encodeQueue = s.encodeQueue ∧
    s.sever.budget = s.budget ∧ s.sever.relay = s.relay := ⟨rfl, rfl, rfl, rfl, rfl, rfl, rfl⟩

theorem State.leaveUp_eq (s : State) : s.leaveUp = s.withdrawAtLinkLoss.sever.releaseHeld := by
  unfold State.leaveUp
  generalize s.withdrawAtLinkLoss = t
  rfl

/-- The input that R162 finds is the one that was there before the link left UP. -/
theorem State.sever_sameInput (s : State) : s.withdrawAtLinkLoss.sever.SameInput s where
  relay := by simp
  inputDropped := by rw [State.sever_counters, State.withdrawAtLinkLoss_counters]
  latches := by simp
  statusPending := by simp
  current := by simp

/-- The ANSWER frames that the link holds, as the statement counts them (R140). -/
theorem Link.answersHeld_eq (l : Link) : l.answersHeld = l.control.countP ControlFrame.isAnswer +
    match l.wire with
    | .control (.answer _ _ _) => 1
    | _ => 0 := by
  unfold Link.answersHeld
  cases l.wire with
  | control f => cases f <;> rfl
  | _ => rfl

/-- A lane is no longer aligned (R139). -/
def State.unalign (lane : Fin 2) (s : State) : State :=
  { s with link := { s.link with aligned := s.link.aligned.put lane false } }

@[simp] theorem State.unalign_frame (lane : Fin 2) (s : State) : (s.unalign lane).heads = s.heads ∧
    (s.unalign lane).scans = s.scans ∧ (s.unalign lane).counters = s.counters ∧
    (s.unalign lane).budget = s.budget ∧ (s.unalign lane).link.control = s.link.control ∧
    (s.unalign lane).link.wire = s.link.wire ∧ (s.unalign lane).link.staged = s.link.staged ∧
    (s.unalign lane).link.current = s.link.current ∧ (s.unalign lane).link.applyRequest = s.link.applyRequest ∧
    (s.unalign lane).link.lastServed = s.link.lastServed ∧ (s.unalign lane).relay = s.relay :=
  ⟨rfl, rfl, rfl, rfl, rfl, rfl, rfl, rfl, rfl, rfl, rfl⟩

theorem State.unalign_sameInput (lane : Fin 2) (s : State) : (s.unalign lane).SameInput s :=
  ⟨rfl, rfl, rfl, rfl, rfl⟩

/-- A lane lost while the link is UP takes the link DOWN (R139). -/
theorem exec_laneAlignmentLost_up {s : State} {lane : Fin 2} (up : s.link.state = .up)
    (strapped : lane.1 < s.straps.laneCount) :
    exec (.laneAlignmentLost lane) s = .next (s.unalign lane).withdrawAtLinkLoss.sever.releaseHeld := by
  simp only [← State.leaveUp_eq, exec, execLaneAlignmentLost, strapped, if_true, up, State.unalign]

/-- What the link loss makes of the counters: R140 step 1 and step 2, then R162. -/
theorem State.lost_counters (s : State) (lane : Fin 2) :
    (s.unalign lane).withdrawAtLinkLoss.sever.releaseHeld.counters = { s.counters with
      capturesAbandoned := (s.unalign lane).withdrawAtLinkLoss.counters.capturesAbandoned
      answersDropped := saturatingAdd s.counters.answersDropped s.link.answersHeld
      inputDropped := s.releaseHeld.counters.inputDropped } := by
  have answers : (s.unalign lane).withdrawAtLinkLoss.link.answersHeld = s.link.answersHeld := by
    simp only [Link.answersHeld, State.withdrawAtLinkLoss_frame, State.unalign_frame]
  have input := ((s.unalign lane).sever_sameInput.trans (s.unalign_sameInput lane)).releaseHeld
  rw [State.releaseHeld_counters, input.inputDropped, State.sever_counters, answers,
    State.withdrawAtLinkLoss_counters, (s.unalign_frame lane).2.2.1]

/-- Part 1 of O42: R162 is three steps, each taken when its condition holds. -/
theorem State.releaseHeld_steps (s : State) :
    let held := s.relay.heldModifiers ≠ 0 ∨ s.relay.heldKeys ≠ []
    ∃ u v : State,
      (held → u = { s.offerKeyboard 0 [] with
        relay := { (s.offerKeyboard 0 []).relay with heldModifiers := 0, heldKeys := [] } }) ∧
      (¬ held → u = s) ∧
      (∀ x y, u.relay.buttons ≠ 0 → u.relay.position = some (x, y) →
        v = { u.offerPointerRelease x y with
          relay := { (u.offerPointerRelease x y).relay with buttons := 0 } }) ∧
      (u.relay.buttons = 0 → v = u) ∧
      s.releaseHeld = v.offerNotice (.link false) := by
  refine ⟨s.releaseKeys, s.releaseKeys.releaseButtons, fun held => if_pos held, fun none => if_neg none,
    fun x y pressed at_ => ?_, fun none => if_neg (not_not.2 none), s.releaseHeld_eq⟩
  rw [State.releaseButtons, if_pos pressed, at_]
  rfl

/-- Settles O42: the withdrawal of every slot, the link DOWN, then R162 on the input that was there. -/
theorem linkLoss : Obligations.LinkLoss := by
  refine ⟨State.releaseHeld_steps, fun s lane inPlace up strapped => ?_⟩
  have alignedInPlace : (s.unalign lane).slotsInPlace := inPlace
  have look : ∀ i, (s.unalign lane).withdrawAtLinkLoss.slots.look i = (s.slots.look i).bind Record.afterLoss :=
    (s.unalign lane).withdrawAtLinkLoss_look
  have surfaces : (s.unalign lane).withdrawAtLinkLoss.sever.releaseHeld.surfaces =
      (s.unalign lane).withdrawAtLinkLoss.surfaces := by simp
  have input := ((s.unalign lane).sever_sameInput.trans (s.unalign_sameInput lane)).releaseHeld
  have abandoned : (s.unalign lane).withdrawAtLinkLoss.counters.capturesAbandoned =
      saturatingAdd s.counters.capturesAbandoned (allSlots.countP fun i => s.holds .capturing (fun _ => true) i) := by
    have standing : ∀ i, (s.unalign lane).holds .capturing (fun _ => true) i = s.holds .capturing (fun _ => true) i :=
      fun _ => rfl
    simp only [State.withdrawAtLinkLoss_capturesAbandoned, standing, State.unalign_frame]
  have counters := s.lost_counters lane
  dsimp only at counters
  have held := (s.unalign lane).withdrawAtLinkLoss.sever.releaseHeld_held
  simp only [Relay.held, Prod.mk.injEq] at held
  obtain ⟨modifiers, keys, buttons, position⟩ := held
  refine ⟨_, exec_laneAlignmentLost_up up strapped, by simp, by simp, by simp,
    by simpa using State.withdrawAtLinkLoss_encodeQueue alignedInPlace, fun h => ⟨?_, ?_, ?_⟩, fun i free => ?_,
    fun i r hr encoding => ?_, fun i r hr other => ?_, fun id => ?_, ?_, ?_, input.relay, ?_, input.latches,
    input.statusPending, ?_, ?_, ?_, modifiers, keys, buttons, by simp [position], State.offerNotice_holds _ _, by simp,
    by simp, by simp, by simp, by simp, by simp⟩
  · simpa using State.withdrawAtLinkLoss_send alignedInPlace h
  · simpa using State.withdrawAtLinkLoss_deferred alignedInPlace h
  · simpa using (s.unalign lane).withdrawAtLinkLoss_credit h
  · simp [look, free]
  · simp [look, hr, Record.afterLoss, encoding]
  · simp [look, hr, Record.afterLoss, other]
  · intro f hf marks c w inside
    rw [State.isStale_of_surfaces surfaces]
    exact (s.unalign lane).withdrawAtLinkLoss_marksOf id f hf marks c w inside
  · exact State.onlyMarks_trans (s.unalign lane).onlyMarks_withdrawAtLinkLoss (State.onlyMarks_of_eq surfaces)
  · simp only [counters, abandoned]
  · rw [counters]
  · have answers := congrArg Counters.answersDropped counters
    exact answers.trans (congrArg (saturatingAdd _) s.link.answersHeld_eq)
  · rw [counters]
  · rw [counters]

end Sys2Proof.Machine
end

section
/-! SUPPORT. The candidates of a band start, list by list (R89, R90). -/

namespace Sys2Proof.Machine

/-- The pointer's tile on the head of a band start lies within one row and one column of a tile, with the override
active (R89 step 1). -/
def State.nearPointer (b : BandStart) (s : State) (c : Nat) : Prop :=
  s.budget.overrideActive = true ∧ ∃ pc pr, s.pointerTile = some (b.head, pc, pr) ∧
    pr ≤ b.band + 1 ∧ b.band ≤ pr + 1 ∧ pc ≤ c + 1 ∧ c ≤ pc + 1

theorem State.staleCandidate_iff (b : BandStart) (s : State) (c : Nat) : s.staleCandidate b c = true ↔
    b.entry.isStale c b.band = true ∧ s.noRecordAt b.surface c b.band := by
  rw [State.staleCandidate, Bool.and_eq_true, State.unserved_iff]

theorem State.mem_neighbourCandidates (b : BandStart) (s : State) (c : Nat) :
    c ∈ s.neighbourCandidates b ↔
      c < b.entry.geometry.tileColumns ∧ s.staleCandidate b c = true ∧ s.nearPointer b c := by
  unfold State.neighbourCandidates State.nearPointer
  split
  next ph pc pr active tile =>
    split
    next here =>
      obtain ⟨rfl, above, below⟩ := here
      simp only [List.mem_filter, List.mem_range, Bool.and_eq_true, decide_eq_true_eq]
      constructor
      · rintro ⟨inside, ⟨left, right⟩, stale⟩
        exact ⟨inside, stale, active, pc, pr, tile, above, below, left, right⟩
      · rintro ⟨inside, stale, -, pc', pr', tile', -, -, left, right⟩
        obtain ⟨rfl, rfl⟩ : pc = pc' ∧ pr = pr' := by simpa [tile] using tile'
        exact ⟨inside, ⟨left, right⟩, stale⟩
    next elsewhere =>
      refine iff_of_false List.not_mem_nil ?_
      rintro ⟨-, -, -, pc', pr', tile', above, below, -⟩
      obtain ⟨rfl, rfl, rfl⟩ : ph = b.head ∧ pc = pc' ∧ pr = pr' := by simpa [tile] using tile'
      exact elsewhere ⟨rfl, above, below⟩
  next none =>
    refine iff_of_false List.not_mem_nil ?_
    rintro ⟨-, -, active, pc, pr, tile, -⟩
    exact none _ _ _ active tile

theorem State.neighbourCandidates_sorted (b : BandStart) (s : State) :
    (s.neighbourCandidates b).Pairwise (· < ·) := by
  unfold State.neighbourCandidates
  split
  · split
    · exact List.pairwise_lt_range.filter _
    · exact List.Pairwise.nil
  · exact List.Pairwise.nil

theorem BandStart.mem_columns (b : BandStart) (c : Nat) : c ∈ b.columns ↔ c < b.entry.geometry.tileColumns := by
  simp only [BandStart.columns, List.mem_append, List.mem_filter, List.mem_range, decide_eq_true_eq]
  omega

/-- The rover's order: from the rover up, then from 0 up to it (R89 step 2). -/
theorem BandStart.columns_inOrder (b : BandStart) : b.columns.Pairwise fun c c' =>
    roverPlace b.rover b.entry.geometry.tileColumns c < roverPlace b.rover b.entry.geometry.tileColumns c' := by
  unfold BandStart.columns
  refine List.pairwise_append.2 ⟨?_, ?_, ?_⟩
  · refine (List.pairwise_lt_range.filter _).imp_of_mem fun {c c'} first second less => ?_
    simp only [List.mem_filter, decide_eq_true_eq] at first second
    simpa only [roverPlace, first.2, second.2, if_true] using less
  · refine (List.pairwise_lt_range.filter _).imp_of_mem fun {c c'} first second less => ?_
    simp only [List.mem_filter, decide_eq_true_eq] at first second
    rw [roverPlace, roverPlace, if_neg (by omega), if_neg (by omega)]
    omega
  · intro c first c' second
    simp only [List.mem_filter, List.mem_range, decide_eq_true_eq] at first second
    rw [roverPlace, roverPlace, if_pos first.2, if_neg (by omega)]
    omega

theorem State.mem_roverCandidates_iff (b : BandStart) (s : State) (c : Nat) : c ∈ s.roverCandidates b ↔
    c < b.entry.geometry.tileColumns ∧ s.staleCandidate b c = true ∧ ¬ s.nearPointer b c := by
  have later : c ∈ s.roverCandidates b ↔
      c ∈ b.columns ∧ s.staleCandidate b c = true ∧ c ∉ s.neighbourCandidates b := by
    simp [State.roverCandidates]
  rw [later, BandStart.mem_columns, State.mem_neighbourCandidates]
  tauto

theorem State.mem_refineCandidates_iff (b : BandStart) (s : State) (c : Nat) : c ∈ s.refineCandidates b ↔
    c < b.entry.geometry.tileColumns ∧ b.entry.isStale c b.band = false ∧ s.noRecordAt b.surface c b.band ∧
      s.refineAllowed b.head = true ∧ (s.heads.look b.head).qualityOf c b.band = some .reduced := by
  unfold State.refineCandidates
  split
  next allowed =>
    simp only [List.mem_filter, BandStart.mem_columns, Bool.and_eq_true, Bool.not_eq_true', State.unserved_iff,
      decide_eq_true_eq, allowed, true_and, and_assoc]
  next refused => simp [refused]

theorem State.refineCandidates_inOrder (b : BandStart) (s : State) :
    (s.refineCandidates b).Pairwise fun c c' =>
      roverPlace b.rover b.entry.geometry.tileColumns c < roverPlace b.rover b.entry.geometry.tileColumns c' := by
  unfold State.refineCandidates
  split
  · exact b.columns_inOrder.filter _
  · exact List.Pairwise.nil

/-- Refinement is allowed when it is on, the override inactive and the credit at least half the cap (R90). -/
theorem State.refineAllowed_iff (h : Fin 4) (s : State) : s.refineAllowed h = true ↔
    (s.link.current.heads.look h).refine = true ∧ s.budget.overrideActive = false ∧
      (s.budget.heads.look h).cap ≤ (s.budget.heads.look h).credit * 2 := by
  simp [State.refineAllowed, and_assoc]

/-- A NEW candidate is a stale tile (R89 steps 1 and 2). -/
theorem State.candidates_new {b : BandStart} {s : State} {c : Candidate} (member : c ∈ s.candidates b)
    (new : c.kind = .new) : b.entry.isStale c.column b.band = true := by
  simp only [State.candidates, List.mem_append, List.mem_map] at member
  rcases member with (⟨x, found, rfl⟩ | ⟨x, found, rfl⟩) | ⟨x, -, rfl⟩
  · exact ((s.staleCandidate_iff b x).1 ((s.mem_neighbourCandidates b x).1 found).2.1).1
  · exact ((s.staleCandidate_iff b x).1 ((s.mem_roverCandidates_iff b x).1 found).2.1).1
  · cases new

/-- A REFINE candidate is a fresh tile with a REDUCED entry, when refinement is allowed (R89 step 3). -/
theorem State.candidates_refine {b : BandStart} {s : State} {c : Candidate} (member : c ∈ s.candidates b)
    (refine : c.kind = .refine) : b.entry.isStale c.column b.band = false ∧
      (s.heads.look b.head).qualityOf c.column b.band = some .reduced ∧ s.refineAllowed b.head = true := by
  simp only [State.candidates, List.mem_append, List.mem_map] at member
  rcases member with (⟨x, -, rfl⟩ | ⟨x, -, rfl⟩) | ⟨x, found, rfl⟩
  · cases refine
  · cases refine
  · obtain ⟨-, fresh, -, allowed, reduced⟩ := (s.mem_refineCandidates_iff b x).1 found
    exact ⟨fresh, reduced, allowed⟩

end Sys2Proof.Machine
end

section
/-! SUPPORT. The allocations of a band start (R51, R88, R91). -/

namespace Sys2Proof.Machine

/-! ### A mark cleared -/

theorem Surface.isStale_withMark_ne {f : Surface} {c w c' w' : Nat} (m : Bool) (other : (c', w') ≠ (c, w)) :
    (f.withMark c w m).isStale c' w' = f.isStale c' w' := by
  unfold Surface.withMark
  split
  next tile =>
    cases tile' : f.geometry.hasTile c' w' with
    | false => simp [Surface.isStale, tile']
    | true =>
      have places : f.geometry.tileIndex c w ≠ f.geometry.tileIndex c' w' := fun same => by
        obtain ⟨columns, rows⟩ := Geometry.tileIndex_inj tile tile' same
        exact other (by rw [columns, rows])
      simp [Surface.isStale, tile', List.getElem?_set_ne places]
  next => rfl

theorem Surface.isStale_withMark_false (f : Surface) (c w : Nat) : (f.withMark c w false).isStale c w = false := by
  unfold Surface.withMark
  split
  next tile =>
    simp only [Surface.isStale, List.getD_eq_getElem?_getD, List.getElem?_set_self', Bool.and_eq_false_iff]
    cases f.stale[f.geometry.tileIndex c w]? <;> simp
  next outside => simp [Surface.isStale, outside]

/-- What an allocation makes of a tile's mark (R51). -/
theorem State.isStale_allocate (s : State) (b : BandStart) (i : Fin 64) (x : Candidate) (id : Fin 16) (c w : Nat) :
    (s.allocate b i x).isStale id c w =
      if id = b.surface ∧ c = x.column ∧ w = b.band then false else s.isStale id c w := by
  have cleared : (s.allocate b i x).surfaces = s.surfaces.upd b.surface
      (Option.map fun f => f.withMark x.column b.band false) := rfl
  simp only [State.isStale, cleared]
  by_cases own : id = b.surface
  · subst own
    rw [Table.look_upd_self]
    cases s.surfaces.look b.surface with
    | none => simp
    | some f =>
      by_cases tile : c = x.column ∧ w = b.band
      · obtain ⟨rfl, rfl⟩ := tile
        simp [f.isStale_withMark_false]
      · have other : (c, w) ≠ (x.column, b.band) := fun same => tile (Prod.mk.inj same)
        simp [tile, Surface.isStale_withMark_ne false other]
  · simp [Table.look_upd_ne _ own, own]

/-! ### Allocations one after another -/

/-- The allocations of a list, in its order. -/
def State.allocateEach (b : BandStart) (l : List (Fin 64 × Candidate)) (s : State) : State :=
  l.foldl (fun s a => s.allocate b a.1 a.2) s

theorem State.allocateEach_cons (b : BandStart) (a : Fin 64 × Candidate) (l : List (Fin 64 × Candidate)) (s : State) :
    s.allocateEach b (a :: l) = (s.allocate b a.1 a.2).allocateEach b l := rfl

/-- A slot that no allocation takes stays. -/
theorem State.allocateEach_look_of_notMem {b : BandStart} {l : List (Fin 64 × Candidate)} {j : Fin 64}
    (untaken : j ∉ l.map Prod.fst) (s : State) : (s.allocateEach b l).slots.look j = s.slots.look j := by
  induction l generalizing s with
  | nil => rfl
  | cons a l ih =>
    rw [List.map_cons, List.mem_cons, not_or] at untaken
    obtain ⟨first, later⟩ := untaken
    rw [State.allocateEach_cons, ih later, State.allocate_slots, Table.look_put_ne _ first]

/-- A slot that an allocation takes holds its record. -/
theorem State.allocateEach_look_of_mem {b : BandStart} {l : List (Fin 64 × Candidate)} {i : Fin 64} {x : Candidate}
    (distinct : (l.map Prod.fst).Nodup) (taken : (i, x) ∈ l) (s : State) :
    (s.allocateEach b l).slots.look i = some (b.record x) := by
  induction l generalizing s with
  | nil => cases taken
  | cons a l ih =>
    obtain ⟨once, distinct⟩ := List.nodup_cons.1 distinct
    rcases List.mem_cons.1 taken with rfl | later
    · exact (State.allocateEach_look_of_notMem once _).trans (Table.look_put_self _ _ _)
    · exact ih distinct later _

/-- The marks after the allocations: those of the tiles allocated are clear, and the others stay. -/
theorem State.isStale_allocateEach (b : BandStart) (l : List (Fin 64 × Candidate)) (s : State) (id : Fin 16)
    (c w : Nat) : (s.allocateEach b l).isStale id c w =
      if id = b.surface ∧ (∃ a ∈ l, c = a.2.column) ∧ w = b.band then false else s.isStale id c w := by
  induction l generalizing s with
  | nil => simp [State.allocateEach]
  | cons a l ih =>
    rw [State.allocateEach_cons, ih, State.isStale_allocate]
    by_cases here : id = b.surface ∧ w = b.band
    · obtain ⟨rfl, rfl⟩ := here
      by_cases own : c = a.2.column <;> by_cases later : ∃ a ∈ l, c = a.2.column <;> simp [own, later]
    · have apart : ∀ p : Prop, ¬ (id = b.surface ∧ p ∧ w = b.band) := fun p all => here ⟨all.1, all.2.2⟩
      simp only [apart, if_false]

/-- One more element of a list satisfies a condition that changes at one place. -/
theorem countP_of_one_more {α : Type} {l : List α} (distinct : l.Nodup) {i : α} (member : i ∈ l)
    {p q : α → Bool} (before : p i = false) (after : q i = true) (others : ∀ j, j ≠ i → q j = p j) :
    l.countP q = l.countP p + 1 := by
  induction l with
  | nil => cases member
  | cons a l ih =>
    obtain ⟨once, distinct⟩ := List.nodup_cons.1 distinct
    by_cases own : a = i
    · subst own
      have rest : l.countP q = l.countP p := List.countP_congr fun j inside => by
        rw [others j fun same => once (same ▸ inside)]
      simp [before, after, rest]
    · have inside : i ∈ l := (List.mem_cons.1 member).resolve_left (Ne.symm own)
      rw [List.countP_cons, List.countP_cons, ih distinct inside, others a own]
      omega

/-- An allocation of a FREE slot gives its head one more slot, and no other head (R85). -/
theorem State.held_allocate {s : State} {i : Fin 64} (free : s.slots.look i = none) (b : BandStart) (x : Candidate)
    (h : Fin 4) : (s.allocate b i x).held h = s.held h + if h = b.head then 1 else 0 := by
  have others : ∀ j, j ≠ i → (s.allocate b i x).slots.look j = s.slots.look j := fun j other => by
    rw [State.allocate_slots, Table.look_put_ne _ other]
  have own : (s.allocate b i x).slots.look i = some (b.record x) := by
    rw [State.allocate_slots, Table.look_put_self]
  unfold State.held
  split
  next here =>
    refine countP_of_one_more allSlots_nodup (mem_allSlots i) ?_ ?_ fun j other => ?_
    · simp only [free]
    · simp [own, BandStart.record, here]
    · simp only [others j other]
  next elsewhere =>
    rw [Nat.add_zero]
    refine List.countP_congr fun j _ => ?_
    by_cases same : j = i
    · subst same
      simp [own, free, BandStart.record, Ne.symm elsewhere]
    · simp only [others j same]

theorem State.held_allocateEach {b : BandStart} {l : List (Fin 64 × Candidate)} (distinct : (l.map Prod.fst).Nodup)
    {s : State} (free : ∀ i ∈ l.map Prod.fst, s.slots.look i = none) (h : Fin 4) :
    (s.allocateEach b l).held h = s.held h + if h = b.head then l.length else 0 := by
  induction l generalizing s with
  | nil => simp [State.allocateEach]
  | cons a l ih =>
    obtain ⟨once, distinct⟩ := List.nodup_cons.1 distinct
    have later : ∀ i ∈ l.map Prod.fst, (s.allocate b a.1 a.2).slots.look i = none := fun i member => by
      have other : i ≠ a.1 := by
        rintro rfl
        exact once member
      rw [State.allocate_slots, Table.look_put_ne _ other]
      exact free i (List.mem_cons_of_mem _ member)
    rw [State.allocateEach_cons, ih distinct later, State.held_allocate (free a.1 (by simp)), List.length_cons]
    split <;> omega

/-! ### The allocations of a band start -/

/-- The candidates that a band start allocates (R91). -/
def State.takenCandidates (b : BandStart) (s : State) : List Candidate := (s.candidates b).take (s.allocationCount b)

/-- The allocations of a band start: the lowest-numbered FREE slots with the first candidates (R91). -/
def State.allocations (b : BandStart) (s : State) : List (Fin 64 × Candidate) :=
  s.freeSlots.zip (s.takenCandidates b)

theorem State.serveBand_eq (b : BandStart) (s : State) : s.serveBand b = { s.allocateEach b (s.allocations b) with
    rovers := (s.allocateEach b (s.allocations b)).rovers.put b.head (b.nextRover (s.takenCandidates b)) } := rfl

theorem State.mem_freeSlots (s : State) (i : Fin 64) : i ∈ s.freeSlots ↔ s.slots.look i = none := by
  simp [State.freeSlots, mem_allSlots]

theorem State.freeSlots_sorted (s : State) : s.freeSlots.Pairwise (· < ·) :=
  (List.pairwise_lt_finRange 64).filter _

theorem State.freeSlots_nodup (s : State) : s.freeSlots.Nodup := allSlots_nodup.filter _

theorem State.allocationCount_le (b : BandStart) (s : State) :
    s.allocationCount b ≤ s.freeSlots.length ∧ s.allocationCount b ≤ (s.candidates b).length := by
  unfold State.allocationCount
  dsimp only
  split <;> omega

theorem State.takenCandidates_length (b : BandStart) (s : State) :
    (s.takenCandidates b).length = s.allocationCount b := by
  rw [State.takenCandidates, List.length_take]
  exact min_eq_left (s.allocationCount_le b).2

theorem State.allocations_length (b : BandStart) (s : State) : (s.allocations b).length = s.allocationCount b := by
  rw [State.allocations, List.length_zip, State.takenCandidates_length]
  exact min_eq_right (s.allocationCount_le b).1

/-- The slots allocated are the first FREE ones (R91). -/
theorem State.allocations_slots (b : BandStart) (s : State) :
    (s.allocations b).map Prod.fst = s.freeSlots.take (s.allocationCount b) := by
  have enough : (s.freeSlots.take (s.allocationCount b)).length = (s.takenCandidates b).length := by
    rw [List.length_take, State.takenCandidates_length]
    exact min_eq_left (s.allocationCount_le b).1
  have firstSlots : s.allocations b = (s.freeSlots.take (s.allocationCount b)).zip (s.takenCandidates b) := by
    rw [State.allocations, List.zip_eq_zip_take_min, State.takenCandidates_length,
      min_eq_right (s.allocationCount_le b).1, List.take_of_length_le (l := s.takenCandidates b)
      (s.takenCandidates_length b).le]
  rw [firstSlots, List.map_fst_zip enough.le]

theorem State.allocations_slots_nodup (b : BandStart) (s : State) : ((s.allocations b).map Prod.fst).Nodup := by
  rw [State.allocations_slots]
  exact s.freeSlots_nodup.sublist (List.take_sublist _ _)

theorem State.allocations_free {b : BandStart} {s : State} {i : Fin 64} (taken : i ∈ (s.allocations b).map Prod.fst) :
    s.slots.look i = none := by
  rw [State.allocations_slots] at taken
  exact (s.mem_freeSlots i).1 (List.mem_of_mem_take taken)

/-- The candidates allocated, each once. -/
theorem State.exists_allocations (b : BandStart) (s : State) (c : Nat) :
    (∃ a ∈ s.allocations b, c = a.2.column) ↔ ∃ x ∈ s.takenCandidates b, c = x.column := by
  have candidates : (s.allocations b).map Prod.snd = s.takenCandidates b :=
    List.map_snd_zip (by rw [State.takenCandidates_length]; exact (s.allocationCount_le b).1)
  simp only [← candidates, List.mem_map, exists_exists_and_eq_and]

/-! ### What a band start that R88 admits does -/

theorem State.serveBand_look (b : BandStart) (s : State) (i : Fin 64) :
    (s.serveBand b).slots.look i = (s.allocateEach b (s.allocations b)).slots.look i := rfl

/-- A live record keeps its slot. -/
theorem State.serveBand_look_of_live {s : State} {i : Fin 64} {r : Record} (live : s.slots.look i = some r)
    (b : BandStart) : (s.serveBand b).slots.look i = some r := by
  rw [State.serveBand_look, State.allocateEach_look_of_notMem, live]
  intro taken
  rw [State.allocations_free taken] at live
  cases live

/-- The first FREE slots receive the first candidates, in turn. -/
theorem State.serveBand_look_of_taken {b : BandStart} {s : State} {j : Nat} {i : Fin 64} {x : Candidate}
    (early : j < s.allocationCount b) (slot : s.freeSlots[j]? = some i) (candidate : (s.candidates b)[j]? = some x) :
    (s.serveBand b).slots.look i = some (b.record x) := by
  have taken : (s.takenCandidates b)[j]? = some x := by
    rw [State.takenCandidates, List.getElem?_take_of_lt early, candidate]
  have paired : (i, x) ∈ s.allocations b :=
    List.mem_of_getElem? (List.getElem?_zip_eq_some.2 ⟨slot, taken⟩)
  rw [State.serveBand_look, State.allocateEach_look_of_mem (s.allocations_slots_nodup b) paired]

/-- The later FREE slots stay FREE. -/
theorem State.serveBand_look_of_late {b : BandStart} {s : State} {j : Nat} {i : Fin 64}
    (late : s.allocationCount b ≤ j) (slot : s.freeSlots[j]? = some i) : (s.serveBand b).slots.look i = none := by
  have free : s.slots.look i = none := (s.mem_freeSlots i).1 (List.mem_of_getElem? slot)
  rw [State.serveBand_look, State.allocateEach_look_of_notMem, free]
  rw [State.allocations_slots]
  intro early
  obtain ⟨k, before, same⟩ := List.mem_take_iff_getElem.1 early
  have place : s.freeSlots[k]? = s.freeSlots[j]? := by
    rw [slot, List.getElem?_eq_getElem (by omega), same]
  have := (List.getElem?_inj (by omega) s.freeSlots_nodup).1 place
  omega

/-- A record in a slot that was FREE is that of a candidate. -/
theorem State.serveBand_new {b : BandStart} {s : State} {i : Fin 64} {r : Record} (free : s.slots.look i = none)
    (now : (s.serveBand b).slots.look i = some r) : ∃ x ∈ s.takenCandidates b, r = b.record x := by
  rw [State.serveBand_look] at now
  by_cases taken : i ∈ (s.allocations b).map Prod.fst
  · obtain ⟨⟨i', x⟩, member, same⟩ := List.mem_map.1 taken
    obtain rfl : i' = i := same
    rw [State.allocateEach_look_of_mem (s.allocations_slots_nodup b) member] at now
    exact ⟨x, (List.of_mem_zip member).2, (Option.some.inj now).symm⟩
  · rw [State.allocateEach_look_of_notMem taken, free] at now
    cases now

/-- The marks after a band start (R51, R91). -/
theorem State.isStale_serveBand (b : BandStart) (s : State) (id : Fin 16) (c w : Nat) :
    (s.serveBand b).isStale id c w =
      if id = b.surface ∧ (∃ x ∈ s.takenCandidates b, c = x.column) ∧ w = b.band then false
      else s.isStale id c w := by
  have marks : (s.serveBand b).isStale id c w = (s.allocateEach b (s.allocations b)).isStale id c w := rfl
  simp only [marks, State.isStale_allocateEach, State.exists_allocations]

theorem State.held_serveBand (b : BandStart) (s : State) (h : Fin 4) :
    (s.serveBand b).held h = s.held h + if h = b.head then s.allocationCount b else 0 := by
  have slots : (s.serveBand b).held h = (s.allocateEach b (s.allocations b)).held h := rfl
  rw [slots, State.held_allocateEach (s.allocations_slots_nodup b) fun i => State.allocations_free,
    State.allocations_length]

theorem State.serveBand_rovers (b : BandStart) (s : State) :
    (s.serveBand b).rovers = s.rovers.put b.head (b.nextRover (s.takenCandidates b)) := by
  have rovers : (s.allocateEach b (s.allocations b)).rovers = s.rovers := by simp [State.allocateEach]
  rw [State.serveBand_eq, rovers]

/-- A band start changes the slots, the surface table and the rovers alone. -/
theorem State.serveBand_rest (b : BandStart) (s : State) : s.serveBand b = { s with
    slots := (s.serveBand b).slots, surfaces := (s.serveBand b).surfaces, rovers := (s.serveBand b).rovers } :=
  State.eq_of_fields

/-! ### A band start (R88) -/

theorem State.bandStart_of_refused {s : State} {h : Fin 4}
    (refused : (s.heads.look h).state ≠ .showing ∨ s.link.state ≠ .up) (n : Nat) : s.bandStart h n = s := by
  unfold State.bandStart
  split
  next showing up _ => exact (refused.elim (· showing) (· up)).elim
  next => rfl

theorem State.bandStart_of_admitted {s : State} {h : Fin 4} {id : Fin 16} {f : Surface}
    (showing : (s.heads.look h).state = .showing) (up : s.link.state = .up)
    (shown : (s.heads.look h).shown = some id) (declared : s.surfaces.look id = some f) (n : Nat) :
    s.bandStart h n =
      s.serveBand { head := h, surface := id, band := n, entry := f, rover := s.rovers.look h } := by
  simp only [State.bandStart, showing, up, shown, declared]

/-- Settles O28: the candidates list by list, then the allocations of the first k of them. -/
theorem bandStartAllocates : Obligations.BandStartAllocates := by
  refine ⟨fun s h n refused => State.bandStart_of_refused refused n, fun s h n id f showing up shown declared => ?_⟩
  intro rover b t columns unserved near refines inOrder quota free cs k
  have started : t = s.serveBand b := State.bandStart_of_admitted showing up shown declared n
  have count : s.allocationCount b = k := by
    simp only [k, free, cs, quota, List.countP_eq_length_filter]
    rfl
  have marks : ∀ id' c w, t.isStale id' c w =
      if id' = id ∧ (∃ x ∈ cs.take k, c = x.column) ∧ w = n then false else s.isStale id' c w := by
    intro id' c w
    rw [started, ← count]
    exact s.isStale_serveBand b id' c w
  have shownMark : ∀ c w, s.isStale id c w = f.isStale c w := fun c w => by simp only [State.isStale, declared]
  clear_value t k
  subst started
  refine ⟨⟨s.neighbourCandidates b, s.roverCandidates b, s.refineCandidates b, rfl, fun c => ?_, fun c => ?_,
      fun c => ?_, s.neighbourCandidates_sorted b, b.columns_inOrder.filter _, s.refineCandidates_inOrder b⟩,
    ⟨s.freeSlots, s.freeSlots_sorted, s.mem_freeSlots, fun j i c early slot candidate => ⟨?_, ?_⟩,
      fun j i late slot => State.serveBand_look_of_late (count ▸ late) slot⟩,
    ?_, fun q other => ?_, fun i r live => State.serveBand_look_of_live live b, fun i r none now => ?_,
    fun id' c w untaken => ?_, ?_, s.serveBand_rest b⟩
  · exact (s.mem_neighbourCandidates b c).trans (by rw [State.staleCandidate_iff, and_assoc]; rfl)
  · exact (s.mem_roverCandidates_iff b c).trans (by rw [State.staleCandidate_iff, and_assoc]; rfl)
  · exact (s.mem_refineCandidates_iff b c).trans (by rw [State.refineAllowed_iff]; rfl)
  · exact State.serveBand_look_of_taken (count.symm ▸ early) slot candidate
  · rw [marks, if_pos]
    exact ⟨rfl, ⟨c, List.mem_of_getElem? ((List.getElem?_take_of_lt early).trans candidate), rfl⟩, rfl⟩
  · simpa [count, b] using s.held_serveBand b h
  · simpa [other, b] using s.held_serveBand b q
  · obtain ⟨x, taken, rfl⟩ := State.serveBand_new none now
    have member : x ∈ s.candidates b := List.mem_of_mem_take taken
    refine ⟨rfl, rfl, rfl, rfl, rfl, rfl, rfl, ?_,
      (State.liveSlot_eq_none_iff id x.column n s).2 (State.candidates_unserved member), fun new => ?_,
      fun refine => ?_⟩
    · rw [marks, if_pos]
      exact ⟨rfl, ⟨x, count ▸ taken, rfl⟩, rfl⟩
    · exact (shownMark x.column n).trans (State.candidates_new member new)
    · obtain ⟨fresh, reduced, allowed⟩ := State.candidates_refine member refine
      exact ⟨(shownMark x.column n).trans fresh, reduced, allowed⟩
  · rw [marks, if_neg]
    rintro ⟨rfl, ⟨x, taken, rfl⟩, rfl⟩
    exact untaken x taken ⟨rfl, rfl, rfl⟩
  · rw [State.serveBand_rovers, ← count]
    rfl

end Sys2Proof.Machine
end

section
/-! SUPPORT. What a change to a follower commutes with, and what a withdrawal of nothing is. -/

namespace Sys2Proof.Machine

/-- A step over the slots commutes with a change that each of its steps commutes with. -/
theorem State.forSlots_comm {f : Fin 64 → State → State} {g : State → State} (each : ∀ i s, f i (g s) = g (f i s))
    (s : State) : (g s).forSlots f = g (s.forSlots f) :=
  List.foldl_hom g fun s i => each i s

/-- Records are abandoned alike whatever a follower's state (R98). -/
theorem State.abandonWhere_updScan (p : Record → Bool) (h : Fin 4) (f : Scan → Scan) (s : State) :
    (s.updScan h f).abandonWhere p = (s.abandonWhere p).updScan h f := by
  rw [State.abandonWhere_eq, State.abandonWhere_eq]
  refine State.forSlots_comm (g := State.updScan h f) (fun i s => ?_) s
  have same : (s.updScan h f).slots.look i = s.slots.look i := rfl
  cases hr : s.slots.look i with
  | none => simp only [State.abandonSlot, same, hr]
  | some r =>
    simp only [State.abandonSlot, same, hr]
    split <;> rfl

/-- Records are withdrawn alike whatever a follower's state (R62). -/
theorem State.withdrawWhere_updScan (p : Record → Bool) (h : Fin 4) (f : Scan → Scan) (s : State) :
    (s.updScan h f).withdrawWhere p = (s.withdrawWhere p).updScan h f := by
  rw [State.withdrawWhere_eq, State.withdrawWhere_eq]
  refine State.forSlots_comm (g := State.updScan h f) (fun i s => ?_) s
  have same : (s.updScan h f).slots.look i = s.slots.look i := rfl
  cases hr : s.slots.look i with
  | none => simp only [State.withdrawNamed, same, hr]
  | some r =>
    simp only [State.withdrawNamed, same, hr, State.withdrawSlot_of_look hr,
      State.withdrawSlot_of_look (same.trans hr)]
    split
    · cases r.state <;> rfl
    · rfl

/-- A withdrawal that names no record changes nothing. -/
theorem State.withdrawWhere_none {p : Record → Bool} (none : ∀ r, p r = false) (s : State) :
    s.withdrawWhere p = s := by
  rw [State.withdrawWhere_eq]
  exact foldl_keeps id (fun s i => State.withdrawNamed p i s)
    (fun t i => State.withdrawNamed_of_unnamed fun r _ => none r) allSlots s

end Sys2Proof.Machine
end

section
/-! SUPPORT. What a fill and a send decision make of the records and of the control FIFO (R94, R95, R113, R145). -/

namespace Sys2Proof.Machine

/-- The tile that a record stands for, and its head. -/
def Record.place (r : Record) : Fin 4 × Fin 16 × Nat × Nat := (r.head, r.surface, r.column, r.row)

/-- A fill changes nothing, or fills a CAPTURING record, which may thereby be CAPTURED (R94, R95). -/
theorem State.fillRead_cases (s : State) (id : Fin 16) (line xb : Nat) (data : List Byte) :
    s.fillRead id line xb data = s ∨
      ∃ i r q, s.slots.look i = some r ∧ r.state = .capturing ∧
        (s.fillRead id line xb data = s.updRecord i (fun _ => q) ∨
          s.fillRead id line xb data =
            ((s.updRecord i fun _ => q).count .capturesCompleted).joinEncodeQueue i) ∧
        Record.place q = r.place := by
  unfold State.fillRead
  split
  next => exact .inl rfl
  next f _ =>
    split
    next => exact .inl rfl
    next =>
      dsimp only
      split
      next => exact .inl rfl
      next i _ =>
        split
        next => exact .inl rfl
        next r hr =>
          split
          next capturing =>
            split
            next => exact .inr ⟨i, r, _, hr, capturing, .inr rfl, rfl⟩
            next => exact .inr ⟨i, r, _, hr, capturing, .inl rfl, rfl⟩
          next => exact .inl rfl

/-- The encoder changes at most the state of a record that waits for it (R113). -/
theorem State.startEncoder_look (s : State) (i : Fin 64) : s.startEncoder.slots.look i = s.slots.look i ∨
    (i ∈ s.encodeQueue ∧
      s.startEncoder.slots.look i = (s.slots.look i).map fun r => { r with state := .encoding }) := by
  by_cases queued : i ∈ s.encodeQueue
  · unfold State.startEncoder
    split
    next j rest _ _ =>
      by_cases own : i = j
      · subst own
        exact .inr ⟨queued, Table.look_upd_self _ _ _⟩
      · exact .inl (Table.look_upd_ne _ own _)
    next => exact .inl rfl
  · exact .inl (State.startEncoder_look_of_notMem queued)

/-- A fill keeps each record's place. -/
theorem State.fillRead_place (s : State) (id : Fin 16) (line xb : Nat) (data : List Byte) (j : Fin 64) :
    ((s.fillRead id line xb data).slots.look j).map Record.place = (s.slots.look j).map Record.place := by
  obtain same | ⟨i, r, q, hr, -, filled, place⟩ := s.fillRead_cases id line xb data
  · rw [same]
  have updated : ((s.updRecord i fun _ => q).slots.look j).map Record.place = (s.slots.look j).map Record.place := by
    by_cases own : j = i
    · subst own
      simp [hr, place]
    · simp [Table.look_upd_ne _ own]
  obtain filled | completed := filled
  · rw [filled, updated]
  · rw [completed, ← updated]
    obtain kept | ⟨-, taken⟩ := State.startEncoder_look
      { (s.updRecord i fun _ => q).count .capturesCompleted with encodeQueue := s.encodeQueue ++ [i] } j
    · exact congrArg _ kept
    · exact (congrArg _ taken).trans (Option.map_map _ _ _)

/-- A fill leaves of a record past CAPTURING all but the state, and that too unless it waits for the encoder. -/
theorem State.fillRead_look_of_notCapturing {s : State} {j : Fin 64} {x : Record} (hx : s.slots.look j = some x)
    (past : x.state ≠ .capturing) (id : Fin 16) (line xb : Nat) (data : List Byte) :
    ∃ state, (s.fillRead id line xb data).slots.look j = some { x with state := state } ∧
      (j ∉ s.encodeQueue → state = x.state) := by
  obtain same | ⟨i, r, q, hr, capturing, filled, -⟩ := s.fillRead_cases id line xb data
  · exact ⟨x.state, by rw [same, hx], fun _ => rfl⟩
  have other : j ≠ i := by
    rintro rfl
    exact past (Option.some.inj (hx.symm.trans hr) ▸ capturing)
  have updated : (s.updRecord i fun _ => q).slots.look j = some x := (Table.look_upd_ne _ other _).trans hx
  obtain filled | completed := filled
  · exact ⟨x.state, by rw [filled, updated], fun _ => rfl⟩
  · rw [completed]
    obtain kept | ⟨queued, taken⟩ := State.startEncoder_look
      { (s.updRecord i fun _ => q).count .capturesCompleted with encodeQueue := s.encodeQueue ++ [i] } j
    · exact ⟨x.state, kept.trans updated, fun _ => rfl⟩
    · refine ⟨.encoding, taken.trans (congrArg _ updated), fun out => absurd queued ?_⟩
      simp [out, other]

/-- A fill counts completed captures alone (R95). -/
theorem State.fillRead_capturesAbandoned (s : State) (id : Fin 16) (line xb : Nat) (data : List Byte) :
    (s.fillRead id line xb data).counters.capturesAbandoned = s.counters.capturesAbandoned := by
  obtain same | ⟨i, r, q, -, -, filled | completed, -⟩ := s.fillRead_cases id line xb data
  · rw [same]
  · rw [filled]
    rfl
  · rw [completed]
    simp only [State.joinEncodeQueue_frame]
    rfl

/-- A send decision keeps each record's place (R145). -/
theorem State.sendDecision_place (s : State) (i : Fin 64) :
    (s.sendDecision.slots.look i).map Record.place = (s.slots.look i).map Record.place := by
  obtain same | begun := s.sendDecision_look i
  · rw [same]
  · rw [begun, Option.map_map]
    rfl

/-- A HEAD frame in the control FIFO still waits after a send decision, or is the frame that begins (R145). -/
theorem State.sendDecision_head {s : State} {d : HeadFrame} (waits : ControlFrame.head d ∈ s.link.control) :
    ControlFrame.head d ∈ s.sendDecision.link.control ∨ s.sendDecision.link.wire = .control (.head d) := by
  unfold State.sendDecision
  split
  · exact .inl waits
  · split
    next f rest control =>
      rcases List.mem_cons.1 (control ▸ waits) with rfl | later
      · exact .inr rfl
      · exact .inl (by cases f <;> exact later)
    next empty => exact absurd (empty ▸ waits) List.not_mem_nil
  · exact .inl waits

end Sys2Proof.Machine
end

section
/-! SUPPORT. A frame start in the order of R72, with the follower's changes taken together. -/

namespace Sys2Proof.Machine

/-! ### The head and its follower -/

/-- A follower that has measured the frame period (R72 step 1). -/
def Scan.timed (period : Nat) (now : Time) (c : Scan) : Scan := { c with period := period, lastStart := some now }

/-- A follower in TRACK at line 0, one more frame counted (R72 step 5). -/
def Scan.entered (c : Scan) : Scan :=
  { c with mode := .track, cursor := 0, frameCount := saturatingAdd c.frameCount 1 }

/-- Whether a frame start changes what a HEAD frame says (R72 step 4). -/
def State.frameAnnounces (h : Fin 4) (s : State) : Bool :=
  decide ((s.heads.look h).state ≠ .showing) ||
    decide (((s.scans.look h).period = 0) ≠ ((s.scans.look h).measured s.budget.now = 0))

/-- The records that a flip to surface `id` withdraws: those of the surface left (R73). -/
def Record.leaves (shown : Option (Fin 16)) (id : Fin 16) (r : Record) : Bool :=
  decide (shown = some r.surface ∧ r.surface ≠ id)

/-- A flip withdraws the records that leave (R73). -/
theorem State.withdraw_leaves (shown : Option (Fin 16)) (id : Fin 16) (s : State) :
    s.withdrawWhere (Record.leaves shown id) = match shown with
      | some old => if old = id then s else s.withdrawWhere fun r => r.surface == old
      | none => s := by
  cases shown with
  | none => exact State.withdrawWhere_none (fun r => by simp [Record.leaves]) s
  | some old =>
    dsimp only
    split
    next same =>
      refine State.withdrawWhere_none (fun r => ?_) s
      rw [Record.leaves, decide_eq_false_iff_not]
      rintro ⟨own, left⟩
      exact left ((Option.some.inj own).symm.trans same)
    next left =>
      have named : Record.leaves (some old) id = fun r => r.surface == old := by
        funext r
        rw [Record.leaves, beq_eq_decide, decide_eq_decide, Option.some.injEq]
        constructor
        · exact fun both => both.1.symm
        · rintro rfl
          exact ⟨rfl, left⟩
      rw [named]

theorem State.frameStartHead_eq (h : Fin 4) (id : Fin 16) (s : State) : s.frameStartHead h id =
    (s.withdrawWhere (Record.leaves (s.heads.look h).shown id)).updHead h
      fun d => { d with state := .showing, shown := some id } := by
  rw [State.withdraw_leaves]
  rfl

/-- The head SHOWING the surface, its follower in TRACK with the period measured, and a HEAD frame when there is
something to say (R72 steps 3 to 5, but for the records). -/
def State.enterFrame (h : Fin 4) (id : Fin 16) (announces : Bool) (period : Nat) (now : Time) (s : State) : State :=
  let shows := (s.updScan h (Scan.timed period now)).updHead h fun d => { d with state := .showing, shown := some id }
  (if announces then shows.offerHead h else shows).updScan h Scan.entered

/-- The records that a frame start frees: the CAPTURING ones of the head, and those of the surface left (R72
steps 2 and 3). -/
def State.clearFrame (h : Fin 4) (id : Fin 16) (s : State) : State :=
  (s.abandonWhere fun r => r.head == h).withdrawWhere (Record.leaves (s.heads.look h).shown id)

/-- A frame start: the records, the head and its follower, the band start, the fill and the stall timer (R72 to R74). -/
theorem State.frameStart_eq (h : Fin 4) (id : Fin 16) (xb : Nat) (data : List Byte) (s : State) :
    s.frameStart h id xb data =
      ((((s.clearFrame h id).enterFrame h id (s.frameAnnounces h) ((s.scans.look h).measured s.budget.now)
        s.budget.now).bandStart h 0).fillRead id 0 xb data).restartStall h := by
  have shown : (((s.abandonWhere fun r => r.head == h).updScan h
      (Scan.timed ((s.scans.look h).measured s.budget.now) s.budget.now)).heads.look h).shown =
        (s.heads.look h).shown := by simp
  have begun : ((s.updScan h (Scan.timed ((s.scans.look h).measured s.budget.now) s.budget.now)).abandonWhere
      fun r => r.head == h).frameStartHead h id =
        ((s.clearFrame h id).updScan h (Scan.timed ((s.scans.look h).measured s.budget.now) s.budget.now)).updHead h
          fun d => { d with state := .showing, shown := some id } := by
    rw [State.abandonWhere_updScan, State.frameStartHead_eq, shown, State.withdrawWhere_updScan, State.clearFrame]
  unfold State.frameStart
  dsimp only
  exact congrArg (fun v : State => (((((if s.frameAnnounces h then v.offerHead h else v).updScan h
    Scan.entered).bandStart h 0).fillRead id 0 xb data).restartStall h)) begun

/-! ### What each part leaves -/

/-- An offered HEAD frame counts dropped ANSWER frames alone. -/
theorem State.offerHead_counters (s : State) (h : Fin 4) : (s.offerHead h).counters =
    { s.counters with answersDropped := (s.offerHead h).counters.answersDropped } := by
  unfold State.offerHead State.pushControl
  repeat' split
  all_goals rfl

/-- An offered HEAD frame changes the control FIFO and the count of the ANSWER frames dropped (R143). -/
theorem State.offerHead_rest (s : State) (h : Fin 4) : s.offerHead h = { s with
    link := { s.link with control := (s.offerHead h).link.control }
    counters := { s.counters with answersDropped := (s.offerHead h).counters.answersDropped } } :=
  State.eq_of_fields (link := Link.eq_of_fields) (counters := s.offerHead_counters h)

/-- An abandonment changes the slots, the surfaces and one counter. -/
theorem State.abandonWhere_rest (p : Record → Bool) (s : State) : s.abandonWhere p = { s with
    slots := (s.abandonWhere p).slots
    surfaces := (s.abandonWhere p).surfaces
    counters := { s.counters with capturesAbandoned := (s.abandonWhere p).counters.capturesAbandoned } } :=
  State.eq_of_fields (counters := State.abandonWhere_counters p s)

section

variable (h : Fin 4) (id : Fin 16) (announces : Bool) (period : Nat) (now : Time) (s : State)

/-- The state that a HEAD frame is drawn from at a frame start. -/
def State.showFrame : State :=
  { s with
    heads := s.heads.put h { s.heads.look h with state := .showing, shown := some id }
    scans := s.scans.put h ((s.scans.look h).timed period now) }

theorem State.enterFrame_eq : s.enterFrame h id announces period now =
    (if announces then (s.showFrame h id period now).offerHead h else s.showFrame h id period now).updScan h
      Scan.entered := rfl

/-- What changes at a frame start besides the records (R72 steps 1 and 3 to 5). -/
theorem State.enterFrame_rest : s.enterFrame h id announces period now = { s with
    heads := s.heads.put h { s.heads.look h with state := .showing, shown := some id }
    scans := s.scans.put h ((s.scans.look h).timed period now).entered
    link := { s.link with control := (s.enterFrame h id announces period now).link.control }
    counters := { s.counters with
      answersDropped := (s.enterFrame h id announces period now).counters.answersDropped } } := by
  have entered : (s.scans.put h ((s.scans.look h).timed period now)).upd h Scan.entered =
      s.scans.put h ((s.scans.look h).timed period now).entered := by
    rw [Table.upd, Table.look_put_self, Table.put_put]
  rw [State.enterFrame_eq]
  split
  next =>
    rw [State.offerHead_rest, State.updScan]
    simp only [State.showFrame, entered]
  next =>
    rw [State.updScan]
    simp only [State.showFrame, entered]

/-- While UP a frame start that announces has its HEAD frame wait (R72 step 4, R143). -/
theorem State.enterFrame_waits (up : s.link.state = .up) : (s.enterFrame h id true period now).headFrameWaits h
    { head := h, state := .showing, flipSet := (s.heads.look h).flipSet, geometry := (s.heads.look h).geometry,
      period := period } := by
  have waits := State.offerHead_waits_on (s := s.showFrame h id period now) (h := h)
    (d := { s.heads.look h with state := .showing, shown := some id }) (n := period) up (Table.look_put_self _ _ _)
    (by rw [State.showFrame, Table.look_put_self, Scan.timed]) nofun
  exact waits

/-- A frame start that does not announce, or is not UP, leaves the control FIFO. -/
theorem State.enterFrame_silent (silent : s.link.state ≠ .up ∨ announces = false) :
    (s.enterFrame h id announces period now).link.control = s.link.control ∧
      (s.enterFrame h id announces period now).counters.answersDropped = s.counters.answersDropped := by
  rw [State.enterFrame_eq]
  split
  next loud =>
    have down : (s.showFrame h id period now).link.state ≠ .up := silent.resolve_right (by simp [loud])
    rw [State.offerHead_of_not_up h down]
    exact ⟨rfl, rfl⟩
  next => exact ⟨rfl, rfl⟩

end

/-! ### The records freed (R72 steps 2 and 3, R73, R98) -/

/-- The elements that satisfy one of two conditions that exclude each other. -/
theorem countP_add_of_apart {α : Type} {l : List α} {p q r : α → Bool} (either : ∀ a, r a = (p a || q a))
    (apart : ∀ a, p a = true → q a = false) : l.countP r = l.countP p + l.countP q := by
  rw [List.countP_eq_countP_filter_add l r p, List.countP_filter, List.countP_filter]
  refine congrArg₂ _ (List.countP_congr fun a _ => ?_) (List.countP_congr fun a _ => ?_)
  · rw [either]
    cases p a <;> simp
  · rw [either]
    cases hp : p a with
    | true => simp [apart a hp]
    | false => simp

section

variable (h : Fin 4) (id : Fin 16) (s : State)

theorem State.clearFrame_look (i : Fin 64) : (s.clearFrame h id).slots.look i =
    ((s.slots.look i).filter fun r => !(decide (r.state = .capturing) && r.head == h)).bind
      (Record.afterWithdrawal (Record.leaves (s.heads.look h).shown id)) := by
  obtain ⟨abandoned, -⟩ := s.abandonWhere_abandons fun r => r.head == h
  obtain ⟨withdrawn, -⟩ := (s.abandonWhere fun r => r.head == h).withdrawWhere_withdraws
    (Record.leaves (s.heads.look h).shown id)
  rw [State.clearFrame, withdrawn, abandoned]

/-- Both kinds of release of a CAPTURING record are counted, each record once. -/
theorem State.clearFrame_capturesAbandoned : (s.clearFrame h id).counters.capturesAbandoned =
    saturatingAdd s.counters.capturesAbandoned (allSlots.countP fun i =>
      s.holds .capturing (fun r => r.head == h || Record.leaves (s.heads.look h).shown id r) i) := by
  obtain ⟨look, abandoned⟩ := s.abandonWhere_abandons fun r => r.head == h
  obtain ⟨-, -, -, -, withdrawn⟩ := (s.abandonWhere fun r => r.head == h).withdrawWhere_withdraws
    (Record.leaves (s.heads.look h).shown id)
  rw [State.clearFrame, withdrawn, abandoned, saturatingAdd_add]
  refine congrArg _ (countP_add_of_apart (fun i => ?_) fun i => ?_).symm
  all_goals
    simp only [State.holds_eq, look]
    cases s.slots.look i with
    | none => simp
    | some r =>
      by_cases capturing : r.state = .capturing
      · by_cases own : r.head = h <;> simp [Option.filter, capturing, own]
      · simp [Option.filter, capturing]

/-- Whatever waits for the encoder or the wire after the releases waited there before. -/
theorem State.clearFrame_waiting (i : Fin 64) :
    (i ∈ (s.clearFrame h id).encodeQueue → i ∈ s.encodeQueue) ∧
      ∀ k, i ∈ (s.clearFrame h id).link.send.look k → i ∈ s.link.send.look k := by
  obtain ⟨-, queue, -, send, -⟩ := (s.abandonWhere fun r => r.head == h).withdrawWhere_withdraws
    (Record.leaves (s.heads.look h).shown id)
  rw [State.clearFrame, queue]
  refine ⟨fun member => ?_, fun k member => ?_⟩
  · simpa using (List.mem_filter.1 member).1
  · rw [send] at member
    simpa using (List.mem_filter.1 member).1

theorem State.clearFrame_strayReads : (s.clearFrame h id).counters.strayReads = s.counters.strayReads := by
  rw [State.clearFrame, State.withdrawWhere_counters, State.abandonWhere_counters]

@[simp] theorem State.clearFrame_frame : (s.clearFrame h id).heads = s.heads ∧ (s.clearFrame h id).scans = s.scans ∧
    (s.clearFrame h id).budget.now = s.budget.now ∧ (s.clearFrame h id).link.state = s.link.state ∧
    (s.clearFrame h id).link.control = s.link.control := by
  simp [State.clearFrame]

end

/-! ### The band start, the fill and the send decision (R74) -/

/-- A band start leaves the live records. -/
theorem State.bandStart_look_of_live {s : State} {i : Fin 64} {r : Record} (live : s.slots.look i = some r)
    (h : Fin 4) (n : Nat) : (s.bandStart h n).slots.look i = some r := by
  unfold State.bandStart
  split
  · split
    · exact State.serveBand_look_of_live live _
    · exact live
  · exact live

/-- A band start fills FREE slots with records of its head, surface and band alone. -/
theorem State.bandStart_new {s : State} {h : Fin 4} {n : Nat} {i : Fin 64} {r : Record}
    (free : s.slots.look i = none) (now : (s.bandStart h n).slots.look i = some r) :
    r.head = h ∧ (s.heads.look h).shown = some r.surface ∧ r.row = n := by
  unfold State.bandStart at now
  split at now
  next id _ _ shown =>
    split at now
    next =>
      obtain ⟨x, -, rfl⟩ := State.serveBand_new free now
      exact ⟨rfl, shown, rfl⟩
    next => exact absurd (free.symm.trans now) nofun
  next => exact absurd (free.symm.trans now) nofun

/-- The end of a frame start: the band start of band 0, the fill, the stall timer and the send decision. -/
def State.startBand (h : Fin 4) (id : Fin 16) (xb : Nat) (data : List Byte) (v : State) : State :=
  (((v.bandStart h 0).fillRead id 0 xb data).restartStall h).sendDecision

section

variable {h : Fin 4} {id : Fin 16} {xb : Nat} {data : List Byte} {v : State} {i : Fin 64}

/-- A record past CAPTURING keeps its slot and all but its state, and that too when it waits nowhere. -/
theorem State.startBand_look_of_notCapturing {x : Record} (live : v.slots.look i = some x)
    (past : x.state ≠ .capturing) : ∃ state, (v.startBand h id xb data).slots.look i = some { x with state := state } ∧
      (i ∉ v.encodeQueue → (∀ k, i ∉ v.link.send.look k) → state = x.state) := by
  obtain ⟨state, filled, waits⟩ := State.fillRead_look_of_notCapturing (State.bandStart_look_of_live live h 0) past
    id 0 xb data
  have stalled : (((v.bandStart h 0).fillRead id 0 xb data).restartStall h).slots.look i =
      some { x with state := state } := by simpa using filled
  simp only [State.bandStart_frame] at waits
  obtain kept | begun := State.sendDecision_look (((v.bandStart h 0).fillRead id 0 xb data).restartStall h) i
  · exact ⟨state, kept.trans stalled, fun out _ => waits out⟩
  · by_cases queued : ∀ k, i ∉ v.link.send.look k
    · refine ⟨state, ?_, fun out _ => waits out⟩
      exact (State.sendDecision_look_of_notQueued (by simpa using queued)).trans stalled
    · exact ⟨.sending, begun.trans (by rw [stalled]; rfl), fun _ out => absurd out queued⟩

/-- A slot that was FREE holds at the end a record of the band start, or none. -/
theorem State.startBand_new {q : Record} (free : v.slots.look i = none) (shown : (v.heads.look h).shown = some id)
    (now : (v.startBand h id xb data).slots.look i = some q) : q.head = h ∧ q.surface = id ∧ q.row = 0 := by
  have places : ((v.startBand h id xb data).slots.look i).map Record.place =
      ((v.bandStart h 0).slots.look i).map Record.place := by
    simp only [State.startBand, State.sendDecision_place, State.restartStall_frame, State.fillRead_place]
  rw [now] at places
  cases new : (v.bandStart h 0).slots.look i with
  | none => simp [new] at places
  | some r =>
    obtain ⟨head, surface, row⟩ := State.bandStart_new free new
    simp only [new, Option.map_some, Option.some.injEq, Record.place, Prod.mk.injEq] at places
    obtain ⟨heads, surfaces, -, rows⟩ := places
    exact ⟨heads.trans head, surfaces.trans (Option.some.inj (surface.symm.trans shown)), rows.trans row⟩

theorem State.startBand_counters : (v.startBand h id xb data).counters.strayReads = v.counters.strayReads ∧
    (v.startBand h id xb data).counters.capturesAbandoned = v.counters.capturesAbandoned := by
  simp [State.startBand, State.fillRead_strayReads, State.fillRead_capturesAbandoned]

theorem State.startBand_head {d : HeadFrame} (waits : v.headFrameWaits h d) :
    ControlFrame.head d ∈ (v.startBand h id xb data).link.control ∨
      (v.startBand h id xb data).link.wire = .control (.head d) :=
  State.sendDecision_head (by simpa using waits.1)

end

/-- The stall timer restarted, in one change to the followers (R79). -/
theorem State.startBand_eq (h : Fin 4) (id : Fin 16) (xb : Nat) (data : List Byte) (v : State) :
    v.startBand h id xb data = ({ (v.bandStart h 0).fillRead id 0 xb data with
      scans := v.scans.put h { v.scans.look h with
        stall := some (v.budget.now +
          BitVec.ofNat 32 (stallDuration (v.scans.look h).period)) } } : State).sendDecision := by
  have scans : ((v.bandStart h 0).fillRead id 0 xb data).scans = v.scans := by simp
  have after : ∀ n, ((v.bandStart h 0).fillRead id 0 xb data).after n = v.budget.now + BitVec.ofNat 32 n := by
    simp [State.after]
  rw [State.startBand, State.restartStall, State.updScan, Table.upd, scans, after]

/-! ### The command -/

/-- A read burst has completed (R24). -/
def State.takeBurst (k : Nat) (s : State) : State :=
  { s with channel := { s.channel with readBursts := s.channel.readBursts.eraseIdx k } }

/-- A read of line 0 starts a frame in SEEK, and in TRACK past line 0 (R71). -/
theorem classifyRead_frameStart {c : Scan} (follower : c.mode = .seek ∨ (c.mode = .track ∧ 1 ≤ c.cursor))
    (shown : Option (Fin 16)) (id : Fin 16) : classifyRead c shown id 0 = .frameStart := by
  obtain seek | ⟨track, past⟩ := follower
  · simp only [classifyRead, seek, if_true]
  · simp only [classifyRead, track, past, true_and, if_true]

/-- A frame start on a read, up to the records, the head and its follower (R72). -/
def State.beginFrame (h : Fin 4) (id : Fin 16) (s : State) : State :=
  (s.clearFrame h id).enterFrame h id (s.frameAnnounces h) ((s.scans.look h).measured s.budget.now) s.budget.now

/-- OBSERVED_READ of line 0 of an owned surface, in SEEK or in TRACK past line 0 (R71, R72, R74). -/
theorem exec_observedRead_frameStart {s : State} {o : ReadCompletion} {b : Burst} {id : Fin 16} {f : Surface}
    {h : Fin 4} (following : s.channel.following = .following) (burst : s.channel.readBursts[o.burst]? = some b)
    (surface : s.surfaceAt b.address = some id) (declared : s.surfaces.look id = some f) (owner : f.owner = some h)
    (first : b.address - f.base < f.pitch)
    (follower : (s.scans.look h).mode = .seek ∨ ((s.scans.look h).mode = .track ∧ 1 ≤ (s.scans.look h).cursor)) :
    exec (.observedRead o) s = .next (((s.takeBurst o.burst).beginFrame h id).startBand h id (b.address - f.base)
      (reorderedBytes s.straps.beatBytes b o.beats)) := by
  have line : (b.address - f.base) / f.pitch = 0 := Nat.div_eq_of_lt first
  have within : (b.address - f.base) % f.pitch = b.address - f.base := Nat.mod_eq_of_lt first
  have taken : ∀ data, (s.takeBurst o.burst).takeRead b.address data =
      ((s.takeBurst o.burst).frameStart h id (b.address - f.base) data).sendDecision := by
    intro data
    have surface' : (s.takeBurst o.burst).surfaceAt b.address = some id := surface
    have declared' : (s.takeBurst o.burst).surfaces.look id = some f := declared
    have starts := classifyRead_frameStart (c := (s.takeBurst o.burst).scans.look h) follower
      ((s.takeBurst o.burst).heads.look h).shown id
    simp only [State.takeRead, surface', declared', owner, line, within, starts]
  refine (exec_observedRead burst).trans (congrArg Host.Outcome.next ?_)
  refine (if_pos following).trans ((taken _).trans ?_)
  rw [State.frameStart_eq, State.startBand, State.beginFrame]

section

variable {s : State} {h : Fin 4} {id : Fin 16}

theorem State.beginFrame_rest : s.beginFrame h id = { s.clearFrame h id with
    heads := s.heads.put h { s.heads.look h with state := .showing, shown := some id }
    scans := s.scans.put h ((s.scans.look h).timed ((s.scans.look h).measured s.budget.now) s.budget.now).entered
    link := { (s.clearFrame h id).link with control := (s.beginFrame h id).link.control }
    counters := { (s.clearFrame h id).counters with
      answersDropped := (s.beginFrame h id).counters.answersDropped } } := by
  obtain ⟨heads, scans, -⟩ := s.clearFrame_frame h id
  unfold State.beginFrame
  generalize s.clearFrame h id = u at heads scans ⊢
  rw [← heads, ← scans]
  exact u.enterFrame_rest h id _ _ _

theorem State.beginFrame_frame : (s.beginFrame h id).slots = (s.clearFrame h id).slots ∧
    (s.beginFrame h id).encodeQueue = (s.clearFrame h id).encodeQueue ∧
    (s.beginFrame h id).link.send = (s.clearFrame h id).link.send ∧
    (s.beginFrame h id).counters.strayReads = s.counters.strayReads ∧
    (s.beginFrame h id).counters.capturesAbandoned = (s.clearFrame h id).counters.capturesAbandoned ∧
    (s.beginFrame h id).budget.now = s.budget.now ∧
    (s.beginFrame h id).heads = s.heads.put h { s.heads.look h with state := .showing, shown := some id } ∧
    (s.beginFrame h id).scans = s.scans.put h
      ((s.scans.look h).timed ((s.scans.look h).measured s.budget.now) s.budget.now).entered := by
  obtain ⟨-, -, now, -⟩ := s.clearFrame_frame h id
  have stray := s.clearFrame_strayReads h id
  have rest := State.beginFrame_rest (s := s) (h := h) (id := id)
  generalize s.clearFrame h id = u at now stray rest ⊢
  rw [rest]
  exact ⟨rfl, rfl, rfl, stray, rfl, now, rfl, rfl⟩

theorem State.frameAnnounces_iff : s.frameAnnounces h = true ↔ (s.heads.look h).state ≠ .showing ∨
    ¬ ((s.scans.look h).period = 0 ↔ (s.scans.look h).measured s.budget.now = 0) := by
  simp [State.frameAnnounces]

/-- While UP a frame start that says something new has its HEAD frame wait. -/
theorem State.beginFrame_waits (up : s.link.state = .up) (announces : s.frameAnnounces h = true) :
    (s.beginFrame h id).headFrameWaits h
      { head := h, state := .showing, flipSet := (s.heads.look h).flipSet, geometry := (s.heads.look h).geometry,
        period := (s.scans.look h).measured s.budget.now } := by
  obtain ⟨heads, -, -, state, -⟩ := s.clearFrame_frame h id
  rw [State.beginFrame, announces]
  generalize s.clearFrame h id = u at heads state ⊢
  rw [← heads]
  exact u.enterFrame_waits h id _ _ (state.trans up)

/-- A frame start that says nothing new, or is not UP, leaves the control FIFO. -/
theorem State.beginFrame_silent (silent : s.link.state ≠ .up ∨ ¬ s.frameAnnounces h = true) :
    (s.beginFrame h id).link.control = s.link.control ∧
      (s.beginFrame h id).counters.answersDropped = s.counters.answersDropped := by
  have dropped : (s.clearFrame h id).counters.answersDropped = s.counters.answersDropped := by
    rw [State.clearFrame, State.withdrawWhere_counters, State.abandonWhere_counters]
  obtain ⟨-, -, -, state, control⟩ := s.clearFrame_frame h id
  unfold State.beginFrame
  generalize s.clearFrame h id = u at dropped state control ⊢
  obtain ⟨sameControl, sameDropped⟩ := u.enterFrame_silent h id (s.frameAnnounces h)
    ((s.scans.look h).measured s.budget.now) s.budget.now (silent.imp (state ▸ ·) Bool.eq_false_iff.2)
  exact ⟨sameControl.trans control, sameDropped.trans dropped⟩

/-- What becomes of a record at a frame start, when every slot is in its place. -/
theorem State.frame_slots (inPlace : s.slotsInPlace) {i : Fin 64} {r : Record} (hr : s.slots.look i = some r)
    (xb : Nat) (data : List Byte) :
    ((r.state = .capturing ∧ r.head = h) ∨
        (Record.leaves (s.heads.look h).shown id r = true ∧ r.state ≠ .encoding ∧ r.state ≠ .sending) →
      ∀ q, ((s.beginFrame h id).startBand h id xb data).slots.look i = some q →
        q.head = h ∧ q.surface = id ∧ q.row = 0) ∧
    (Record.leaves (s.heads.look h).shown id r = true → r.state = .encoding →
      ((s.beginFrame h id).startBand h id xb data).slots.look i = some { r with withdrawn := true }) ∧
    (Record.leaves (s.heads.look h).shown id r = true → r.state = .sending →
      ((s.beginFrame h id).startBand h id xb data).slots.look i = some r) ∧
    (Record.leaves (s.heads.look h).shown id r = false → r.state ≠ .capturing →
      ∃ st, ((s.beginFrame h id).startBand h id xb data).slots.look i = some { r with state := st }) := by
  obtain ⟨sameSlots, sameQueue, sameSend, -, -, -, heads, -⟩ := State.beginFrame_frame (s := s) (h := h) (id := id)
  have slots : (s.beginFrame h id).slots.look i = ((s.slots.look i).filter fun r =>
      !(decide (r.state = .capturing) && r.head == h)).bind
        (Record.afterWithdrawal (Record.leaves (s.heads.look h).shown id)) := by
    rw [sameSlots, State.clearFrame_look]
  have nowhere : i ∉ s.encodeQueue → (∀ k, i ∉ s.link.send.look k) →
      i ∉ (s.beginFrame h id).encodeQueue ∧ ∀ k, i ∉ (s.beginFrame h id).link.send.look k := by
    intro queue send
    obtain ⟨queued, sent⟩ := s.clearFrame_waiting h id i
    rw [sameQueue, sameSend]
    exact ⟨fun member => queue (queued member), fun k member => send k (sent k member)⟩
  have shown : ((s.beginFrame h id).heads.look h).shown = some id := by rw [heads, Table.look_put_self]
  obtain ⟨place, -⟩ := inPlace
  obtain ⟨captured, -, -, queued, -⟩ := (place i).1 r hr
  have waitsNot : r.state ≠ .captured → r.state ≠ .queued →
      i ∉ (s.beginFrame h id).encodeQueue ∧ ∀ k, i ∉ (s.beginFrame h id).link.send.look k :=
    fun notCaptured notQueued => nowhere (fun member => notCaptured (captured.1 member))
      fun k member => notQueued ((queued k).1 member).1
  rw [hr] at slots
  refine ⟨fun freed q now => ?_, fun leaves encoding => ?_, fun leaves sending => ?_, fun stays past => ?_⟩
  · refine State.startBand_new ?_ shown now
    obtain ⟨capturing, own⟩ | ⟨leaves, notEncoding, notSending⟩ := freed
    · simp [slots, Option.filter, capturing, own]
    · rw [slots]
      cases state : r.state <;> simp_all [Option.filter, Record.afterWithdrawal]
  · have flagged : (s.beginFrame h id).slots.look i = some { r with withdrawn := true } := by
      simp [slots, Option.filter, encoding, Record.afterWithdrawal, leaves]
    obtain ⟨state, later, kept⟩ := State.startBand_look_of_notCapturing (h := h) (id := id) (xb := xb) (data := data)
      flagged (by simp [encoding])
    obtain ⟨queue, send⟩ := waitsNot (by simp [encoding]) (by simp [encoding])
    rw [later, kept queue send]
  · have stays : (s.beginFrame h id).slots.look i = some r := by
      simp [slots, Option.filter, sending, Record.afterWithdrawal]
    obtain ⟨state, later, kept⟩ := State.startBand_look_of_notCapturing (h := h) (id := id) (xb := xb) (data := data)
      stays (by simp [sending])
    obtain ⟨queue, send⟩ := waitsNot (by simp [sending]) (by simp [sending])
    rw [later, kept queue send]
  · have same : (s.beginFrame h id).slots.look i = some r := by
      simp [slots, Option.filter, past, Record.afterWithdrawal, stays]
    obtain ⟨state, later, -⟩ := State.startBand_look_of_notCapturing (h := h) (id := id) (xb := xb) (data := data)
      same past
    exact ⟨state, later⟩

end

/-- The frame period measured at a frame start, as the statement writes it (R72 step 1). -/
theorem Scan.measured_eq (c : Scan) (now : Time) : (match c.lastStart with
    | none => c.period
    | some e => if 1000 ≤ (now - e).toNat ∧ (now - e).toNat ≤ 100000 then (now - e).toNat else 0) =
      c.measured now := by
  unfold Scan.measured
  cases c.lastStart <;> rfl

/-- Settles O25: the records freed, the head and its follower, and the band start on what that leaves. -/
theorem frameStartOnARead : Obligations.FrameStartOnARead := by
  intro s o b id f h following burst surface declared owner first follower c d now period leaves frame announced
    started restarted
  have measured : period = c.measured now := c.measured_eq now
  have announces : (s.takeBurst o.burst).frameAnnounces h = true ↔ announced := by
    rw [State.frameAnnounces_iff]
    simp only [announced, measured]
    rfl
  have began : (((s.takeBurst o.burst).scans.look h).timed (((s.takeBurst o.burst).scans.look h).measured
      (s.takeBurst o.burst).budget.now) (s.takeBurst o.burst).budget.now).entered = started := by
    simp only [started, measured]
    rfl
  have rest := State.beginFrame_rest (s := s.takeBurst o.burst) (h := h) (id := id)
  obtain ⟨sameSlots, sameQueue, sameSend, stray, abandoned, time, heads, scans⟩ :=
    State.beginFrame_frame (s := s.takeBurst o.burst) (h := h) (id := id)
  rw [began] at rest scans
  have stalled : ((s.takeBurst o.burst).beginFrame h id).scans.put h
      { ((s.takeBurst o.burst).beginFrame h id).scans.look h with
        stall := some (((s.takeBurst o.burst).beginFrame h id).budget.now + BitVec.ofNat 32
          (stallDuration (((s.takeBurst o.burst).beginFrame h id).scans.look h).period)) } =
        s.scans.put h restarted := by
    rw [scans, time, Table.put_put, Table.look_put_self]
    rfl
  have waits : s.link.state = .up → announced →
      ((s.takeBurst o.burst).beginFrame h id).headFrameWaits h frame := fun up loud => by
    simp only [frame, measured]
    exact State.beginFrame_waits (s := s.takeBurst o.burst) (id := id) up (announces.2 loud)
  refine ⟨(s.takeBurst o.burst).abandonWhere (fun r => r.head == h), (s.takeBurst o.burst).clearFrame h id,
    (s.takeBurst o.burst).beginFrame h id, _,
    exec_observedRead_frameStart following burst surface declared owner first follower,
    (s.takeBurst o.burst).abandonWhere_rest _, (s.takeBurst o.burst).abandonWhere_abandons _, fun k => ?_,
    (s.takeBurst o.burst).onlyMarks_abandonWhere _, ?_, fun k => State.withdrawWhere_marksOf leaves _ k, rest,
    fun up loud => ?_, fun silent => State.beginFrame_silent (silent.imp_right fun quiet => quiet ∘ announces.1), ?_,
    ?_, ?_, ?_, ?_, fun inPlace i r hr => State.frame_slots (s := s.takeBurst o.burst) inPlace hr _ _,
    fun up loud => State.startBand_head ?_⟩
  · have marks := (s.takeBurst o.burst).abandonWhere_marksOf (fun r => r.head == h) k
    simp only [beq_iff_eq] at marks
    exact marks
  · rw [State.clearFrame]
    exact State.withdraw_leaves d.shown id _
  · exact waits up loud
  · rw [State.startBand_eq, stalled]
  · have same : ∀ (v : State) data, (v.startBand h id (b.address - f.base) data).heads = v.heads := by
      simp [State.startBand]
    exact (same _ _).trans heads
  · rw [State.startBand_eq, stalled]
    simp only [State.sendDecision_frame]
  · exact State.startBand_counters.1.trans stray
  · exact State.startBand_counters.2.trans (abandoned.trans (State.clearFrame_capturesAbandoned h id _))
  · exact waits up loud

end Sys2Proof.Machine
end

end

section
-- One after another, as the theorems of the section before this one, for the same limit.
set_option Elab.async false

section
/-! SUPPORT. The stall timer's expiry (R79, R80). -/

namespace Sys2Proof.Machine

/-! ### What an event and a send decision leave -/

/-- A raised event is latched (R152). -/
theorem State.raise_latched (e : Event) (s : State) : (s.raise e).latched e = true := by
  have names : e.bit ≠ 0 := by cases e <;> decide
  have kept : ∀ latches : BitVec 10, (latches ||| e.bit) &&& e.bit = e.bit := fun latches => by
    ext k
    rw [BitVec.getElem_and, BitVec.getElem_or]
    cases e.bit[k] <;> simp
  unfold State.latched State.raise Link.raise
  rw [decide_eq_true_eq]
  split
  next => rwa [kept]
  next latched => exact latched

/-- Which events are latched is read from the latches. -/
theorem State.latched_of_latches {s t : State} (h : t.link.latches = s.link.latches) (e : Event) :
    t.latched e = s.latched e := by
  rw [State.latched, h, State.latched]

/-- A send decision begins no tile frame while a control frame waits or the link is not UP (R145). -/
theorem State.sendDecision_slots_of_noTile {s : State} (noTile : s.link.state = .up → s.link.control ≠ []) :
    s.sendDecision.slots = s.slots := by
  unfold State.sendDecision
  split
  · rfl
  · split
    · simp
    · split
      next empty up => exact absurd empty (noTile up)
      next => rfl
  · rfl

/-! ### The timer -/

/-- A timer that the time base has reached leaves the time base (log 2). -/
theorem State.reachTime_of_reached {s : State} {e : Time} (reached : timeReached s.budget.now e = true) :
    s.reachTime e = s := if_pos reached

section

variable {s : State} {h : Fin 4} {e : Time} (timer : (s.scans.look h).stall = some e)
  (reached : timeReached s.budget.now e = true)

include timer reached

/-- A WAITING head has its timer restarted (R80). -/
theorem exec_stallTimerExpiry_waiting (waiting : (s.heads.look h).state = .waiting) :
    exec (.stallTimerExpiry h) s = .next (s.restartStall h) := by
  simp only [exec, execStallTimerExpiry, timer, State.reachTime_of_reached reached, waiting]

/-- A SHOWING head stalls (R80). -/
theorem exec_stallTimerExpiry_showing (showing : (s.heads.look h).state = .showing) :
    exec (.stallTimerExpiry h) s = .next (s.stallHead h) := by
  simp only [exec, execStallTimerExpiry, timer, State.reachTime_of_reached reached, showing]

end

/-! ### The stall of a SHOWING head -/

/-- A follower whose head has stalled (R80). -/
def Scan.stopped (c : Scan) : Scan := { c with mode := .seek, cursor := 0, lastStart := none, stall := none }

/-- A head's captures abandoned, its follower stopped and the head STALLED: a stall, but for what it says (R80). -/
def State.haltHead (h : Fin 4) (s : State) : State :=
  ((s.abandonWhere fun r => r.head == h).updScan h Scan.stopped).updHead h fun d => { d with state := .stalled }

/-- A stall is said by a HEAD frame and an event (R80). -/
theorem State.stallHead_eq (h : Fin 4) (s : State) :
    s.stallHead h = (((s.haltHead h).offerHead h).raise .headStalled).sendDecision := rfl

section

variable (h : Fin 4) (s : State)

theorem State.haltHead_frame : (s.haltHead h).heads = s.heads.put h { s.heads.look h with state := .stalled } ∧
    (s.haltHead h).scans = s.scans.put h (s.scans.look h).stopped ∧
    (s.haltHead h).surfaces = (s.abandonWhere fun r => r.head == h).surfaces ∧
    (s.haltHead h).slots = (s.abandonWhere fun r => r.head == h).slots ∧
    (s.haltHead h).counters = (s.abandonWhere fun r => r.head == h).counters ∧
    (s.haltHead h).link = s.link := by
  simp [State.haltHead, Table.upd]

/-- What the HEAD frame of a stall says (R80, R170). -/
def State.stallFrame : HeadFrame :=
  { head := h, state := .stalled, flipSet := (s.heads.look h).flipSet, geometry := (s.heads.look h).geometry,
    period := (s.scans.look h).period }

/-- While UP the HEAD frame of a stall waits (R80, R143). -/
theorem State.haltHead_waits (up : s.link.state = .up) :
    ControlFrame.head (s.stallFrame h) ∈ ((s.haltHead h).offerHead h).link.control := by
  obtain ⟨heads, scans, -, -, -, link⟩ := s.haltHead_frame h
  have head : (s.haltHead h).heads.look h = { s.heads.look h with state := .stalled } := by
    rw [heads, Table.look_put_self]
  have period : ((s.haltHead h).scans.look h).period = (s.scans.look h).period := by
    rw [scans, Table.look_put_self, Scan.stopped]
  exact (State.offerHead_waits_on ((congrArg Link.state link).trans up) head period nofun).1

/-- A stall begins no tile frame: a HEAD frame waits, or the link is not UP. -/
theorem State.stallHead_slots : (s.stallHead h).slots = (s.abandonWhere fun r => r.head == h).slots := by
  obtain ⟨-, -, -, slots, -, link⟩ := s.haltHead_frame h
  rw [State.stallHead_eq, State.sendDecision_slots_of_noTile]
  · simp [slots]
  · intro up
    have waits := s.haltHead_waits h (by simpa [link] using up)
    simpa using List.ne_nil_of_mem waits

theorem State.stallHead_frame : (s.stallHead h).heads = s.heads.put h { s.heads.look h with state := .stalled } ∧
    (s.stallHead h).scans = s.scans.put h (s.scans.look h).stopped ∧
    (s.stallHead h).surfaces = (s.abandonWhere fun r => r.head == h).surfaces ∧
    (s.stallHead h).counters.capturesAbandoned =
      (s.abandonWhere fun r => r.head == h).counters.capturesAbandoned := by
  obtain ⟨heads, scans, surfaces, -, counters, -⟩ := s.haltHead_frame h
  simp [State.stallHead_eq, State.offerHead_capturesAbandoned, heads, scans, surfaces, counters]

theorem State.stallHead_latched : (s.stallHead h).latched .headStalled = true := by
  rw [State.stallHead_eq, State.latched_of_latches (s := ((s.haltHead h).offerHead h).raise .headStalled) (by simp)]
  exact State.raise_latched ..

/-- While UP the HEAD frame of a stall waits or begins (R80, R145). -/
theorem State.stallHead_head (up : s.link.state = .up) :
    ControlFrame.head (s.stallFrame h) ∈ (s.stallHead h).link.control ∨
      (s.stallHead h).link.wire = .control (.head (s.stallFrame h)) := by
  rw [State.stallHead_eq]
  exact State.sendDecision_head (by simpa using s.haltHead_waits h up)

/-- A stall abandons the head's captures (R98). -/
theorem State.stallHead_abandons : s.abandons (fun r => r.head == h) (s.stallHead h) := by
  obtain ⟨-, -, -, counters⟩ := s.stallHead_frame h
  exact State.abandons_of_eq (s.abandonWhere_abandons _) rfl rfl (s.stallHead_slots h) counters

end

/-- Settles O27, by the timer and the state of its head: a stall abandons, halts the head, and says so. -/
theorem stallTimerExpiry : Obligations.StallTimerExpiry := by
  intro s h c d
  refine ⟨fun stopped => ?_, fun e timer reached => ⟨fun waiting => ?_, fun showing => ?_⟩⟩
  · have timer : (s.scans.look h).stall = none := stopped
    simp only [exec, execStallTimerExpiry, timer]
  · exact exec_stallTimerExpiry_waiting timer reached waiting
  · obtain ⟨heads, scans, surfaces, -⟩ := s.stallHead_frame h
    obtain ⟨look, -⟩ := s.stallHead_abandons h
    refine ⟨s.stallHead h, exec_stallTimerExpiry_showing timer reached showing, heads, scans, fun i r now => ?_,
      fun i r live stays => ?_, s.stallHead_abandons h, fun id => ?_, ?_, s.stallHead_latched h, s.stallHead_head h⟩
    · rw [look, Option.filter_eq_some_iff] at now
      simpa [imp_iff_not_or, and_comm] using now.2
    · rw [look, live, Option.filter_eq_some_iff]
      exact ⟨rfl, by simpa [imp_iff_not_or, or_comm] using stays⟩
    · have marks := s.abandonWhere_marksOf (fun r => r.head == h) id
      simp only [beq_iff_eq] at marks
      exact State.marksOf_of_eq marks rfl rfl surfaces
    · exact State.onlyMarks_trans (s.onlyMarks_abandonWhere _) (State.onlyMarks_of_eq surfaces)

end Sys2Proof.Machine
end

section
/-! SUPPORT. The filling of a record: its pixel store, its fill units and its completion (R93 to R95). -/

namespace Sys2Proof.Machine

/-! ### The pixel store (R94) -/

/-- The cells that a group fills: its visible bytes, each at its offset of the pixel store (R94). -/
def fillCells (visible l off : Nat) (data : List Byte) : List (Nat × Byte) :=
  (data.zipIdx off).filterMap fun d => if d.2 < visible then some (128 * l + d.2, d.1) else none

theorem Record.fill_pixels (r : Record) (l off : Nat) (data : List Byte) : (r.fill l off data).pixels =
    Buffer.writeAll r.pixels (fillCells (r.tw * r.format.bytesPerPixel) l off data) := rfl

theorem mem_fillCells {visible l off a : Nat} {v : Byte} {data : List Byte} :
    (a, v) ∈ fillCells visible l off data ↔
      ∃ k, data[k]? = some v ∧ off + k < visible ∧ a = 128 * l + (off + k) := by
  simp only [fillCells, List.mem_filterMap, Prod.exists, List.mk_mem_zipIdx_iff_le_and_getElem?_sub,
    Option.ite_none_right_eq_some, Option.some.injEq, Prod.mk.injEq]
  constructor
  · rintro ⟨w, n, ⟨after, byte⟩, inside, rfl, rfl⟩
    exact ⟨n - off, byte, by omega, by omega⟩
  · rintro ⟨k, byte, inside, rfl⟩
    exact ⟨v, off + k, ⟨by omega, by rwa [Nat.add_sub_cancel_left]⟩, inside, rfl, rfl⟩

/-- No offset is filled twice. -/
theorem fillCells_unique {visible l off a : Nat} {v w : Byte} {data : List Byte}
    (hv : (a, v) ∈ fillCells visible l off data) (hw : (a, w) ∈ fillCells visible l off data) : w = v := by
  obtain ⟨k, byte, -, rfl⟩ := mem_fillCells.1 hv
  obtain ⟨j, byte', -, same⟩ := mem_fillCells.1 hw
  obtain rfl : j = k := by omega
  exact Option.some.inj (byte'.symm.trans byte)

section

variable {r : Record} {l off : Nat} {data : List Byte} (canonical : r.pixels.wf)

include canonical

/-- A visible byte of the group is stored. -/
theorem Record.fill_read_visible {k : Nat} {v : Byte} (byte : data[k]? = some v)
    (visible : off + k < r.tw * r.format.bytesPerPixel) :
    Buffer.read (r.fill l off data).pixels (128 * l + (off + k)) = v := by
  rw [Record.fill_pixels]
  have cell : (128 * l + (off + k), v) ∈ fillCells (r.tw * r.format.bytesPerPixel) l off data :=
    mem_fillCells.2 ⟨k, byte, visible, rfl⟩
  refine Buffer.read_writeAll_of_mem canonical cell fun c member same => ?_
  exact fillCells_unique cell (same ▸ member)

/-- Every other stored byte stays. -/
theorem Record.fill_read_other {a : Nat}
    (other : ∀ k, k < data.length → off + k < r.tw * r.format.bytesPerPixel → a ≠ 128 * l + (off + k)) :
    Buffer.read (r.fill l off data).pixels a = Buffer.read r.pixels a := by
  rw [Record.fill_pixels]
  refine Buffer.read_writeAll_of_forall_ne canonical fun c member same => ?_
  obtain ⟨k, byte, visible, at_⟩ := mem_fillCells.1 member
  obtain ⟨inside, -⟩ := List.getElem?_eq_some_iff.1 byte
  exact other k inside visible (same.symm.trans at_)

end

/-! ### The fill units (R93) -/

/-- The marks that a group's fill units leave. -/
theorem getLsbD_foldl_markUnit {l m u : Nat} (line : m < 32) (unit : u < 16) (first n : Nat) (v : BitVec 512) :
    ((List.range n).foldl (fun v k => markUnit v l (first + k)) v).getLsbD (16 * m + u) = true ↔
      v.getLsbD (16 * m + u) = true ∨ ∃ k, k < n ∧ 16 * m + u = 16 * l + (first + k) := by
  induction n with
  | zero => simp
  | succ n ih =>
    have one : (1#512 <<< (16 * l + (first + n))).getLsbD (16 * m + u) = true ↔ 16 * m + u = 16 * l + (first + n) := by
      simp only [BitVec.getLsbD_shiftLeft, BitVec.getLsbD_one, Bool.and_eq_true, Bool.not_eq_true',
        decide_eq_true_iff, decide_eq_false_iff_not]
      omega
    rw [List.range_succ, List.foldl_append, List.foldl_cons, List.foldl_nil, markUnit, BitVec.getLsbD_or,
      Bool.or_eq_true, ih, one, or_assoc]
    simp only [Nat.lt_succ_iff_lt_or_eq, or_and_right, exists_or, exists_eq_left]

/-- A fill marks the units that the group covers, and no other (R93, R94). -/
theorem Record.fill_received (r : Record) {l off m u : Nat} {data : List Byte} (group : 8 ∣ off)
    (whole : 8 ∣ data.length) (within : off + data.length ≤ 128) (line : m < 32) (unit : u < 16) :
    (r.fill l off data).received.getLsbD (16 * m + u) = true ↔
      r.received.getLsbD (16 * m + u) = true ∨ (m = l ∧ off ≤ 8 * u ∧ 8 * u < off + data.length) := by
  refine (getLsbD_foldl_markUnit line unit (off / 8) (data.length / 8) r.received).trans (or_congr Iff.rfl ?_)
  obtain ⟨a, rfl⟩ := group
  obtain ⟨n, length⟩ := whole
  rw [length] at within ⊢
  constructor
  · rintro ⟨k, inside, same⟩
    omega
  · rintro ⟨rfl, above, below⟩
    exact ⟨u - a, by omega, by omega⟩

/-- Every required unit is marked when every line holds the units of its visible bytes (R93, R95). -/
theorem Record.complete_iff (r : Record) : r.complete = true ↔
    ∀ l u, l < r.th → 8 * u < r.tw * r.format.bytesPerPixel → r.received.getLsbD (16 * l + u) = true := by
  have required : ∀ u, u < r.lineUnits ↔ 8 * u < r.tw * r.format.bytesPerPixel := fun u => by
    rw [Record.lineUnits]
    omega
  simp only [Record.complete, List.all_eq_true, List.mem_range, required]
  exact ⟨fun all l u line unit => all l line u unit, fun all l line u unit => all l u line unit⟩

/-! ### The fill of a tile's record (R94, R95) -/

/-- A record stands for a tile and is CAPTURING. -/
def Record.fits (id : Fin 16) (column row : Nat) (r : Record) : Prop :=
  r.surface = id ∧ r.column = column ∧ r.row = row ∧ r.state = .capturing

/-- The slot found for a tile holds its record. -/
theorem State.look_of_liveSlot {s : State} {id : Fin 16} {column row : Nat} {i : Fin 64}
    (found : s.liveSlot id column row = some i) :
    ∃ r, s.slots.look i = some r ∧ r.surface = id ∧ r.column = column ∧ r.row = row := by
  have named := List.find?_some found
  split at named
  next r hr =>
    simp only [Bool.and_eq_true, beq_iff_eq, and_assoc] at named
    exact ⟨r, hr, named⟩
  next => exact absurd named Bool.false_ne_true

/-- A change to a live record, as an entry of the slots. -/
theorem State.updRecord_of_look {s : State} {i : Fin 64} {r : Record} (hr : s.slots.look i = some r) (q : Record) :
    s.updRecord i (fun _ => q) = { s with slots := s.slots.put i (some q) } := by
  rw [State.updRecord, Table.upd, hr, Option.map_some]

/-- A capture is complete: its record is CAPTURED, and counted (R95). -/
def State.captureDone (i : Fin 64) (q : Record) (s : State) : State :=
  { s with
    slots := s.slots.put i (some { q with state := .captured })
    counters := s.counters.store .capturesCompleted (saturatingAdd s.counters.capturesCompleted 1) }

/-- The tile column of a byte of a line, as the fill divides. -/
theorem div_tileSpan (xb bpp : Nat) : xb / (32 * bpp) = xb / bpp / 32 := by
  rw [Nat.div_div_eq_div_mul, Nat.mul_comm]

section

variable {s : State} {id : Fin 16} {f : Surface} (line xb : Nat) (data : List Byte)

/-- A read in padding fills nothing. -/
theorem State.fillRead_of_padding (declared : s.surfaces.look id = some f) (padding : f.geometry.lineBytes ≤ xb) :
    s.fillRead id line xb data = s := by
  simp only [State.fillRead, declared, padding, if_true]

/-- A read of a tile without a CAPTURING record fills nothing. -/
theorem State.fillRead_of_none (declared : s.surfaces.look id = some f)
    (none : ∀ i r, s.slots.look i = some r →
      ¬ r.fits id (xb / f.geometry.format.bytesPerPixel / 32) (line / 32)) :
    s.fillRead id line xb data = s := by
  by_cases padding : f.geometry.lineBytes ≤ xb
  · exact State.fillRead_of_padding line xb data declared padding
  simp only [State.fillRead, declared, padding, if_false, div_tileSpan]
  cases found : s.liveSlot id (xb / f.geometry.format.bytesPerPixel / 32) (line / 32) with
  | none => rfl
  | some i =>
    obtain ⟨r, hr, surface, column, row⟩ := State.look_of_liveSlot found
    have past : r.state ≠ .capturing := fun capturing => none i r hr ⟨surface, column, row, capturing⟩
    simp only [hr, past, if_false]

/-- A read of a tile with a CAPTURING record fills it. -/
theorem State.fillRead_of_fits (declared : s.surfaces.look id = some f) (unique : s.recordsUnique)
    (visible : xb < f.geometry.lineBytes) {i : Fin 64} {r : Record} (hr : s.slots.look i = some r)
    (fits : r.fits id (xb / f.geometry.format.bytesPerPixel / 32) (line / 32)) :
    let q := r.fill (line % 32) (xb % (32 * f.geometry.format.bytesPerPixel)) data
    s.fillRead id line xb data =
      if q.complete then (s.captureDone i q).joinEncodeQueue i else { s with slots := s.slots.put i (some q) } := by
  obtain ⟨surface, column, row, capturing⟩ := fits
  have found := State.liveSlot_eq_some unique hr
  rw [surface, column, row] at found
  simp only [State.fillRead, declared, if_neg (Nat.not_le.2 visible), div_tileSpan, found, hr, capturing, if_true,
    State.updRecord_of_look hr]
  rfl

end

/-! ### The encode queue (R112, R113) -/

/-- An encoder that has a record takes no other. -/
theorem State.startEncoder_of_busy {s : State} (busy : s.encoder ≠ none) : s.startEncoder = s := by
  unfold State.startEncoder
  split
  next idle _ => exact absurd idle busy
  next => rfl

/-- A record joins the tail of the queue while the encoder is busy. -/
theorem State.joinEncodeQueue_of_busy {s : State} (busy : s.encoder ≠ none) (i : Fin 64) :
    s.joinEncodeQueue i = { s with encodeQueue := s.encodeQueue ++ [i] } := State.startEncoder_of_busy busy

/-- An IDLE encoder with an empty queue takes the record at once. -/
theorem State.joinEncodeQueue_of_idle {s : State} (idle : s.encoder = none) (empty : s.encodeQueue = []) (i : Fin 64) :
    s.joinEncodeQueue i = { s with
      slots := s.slots.upd i (Option.map fun r => { r with state := .encoding })
      encoder := some i } := by
  have queue : s.encodeQueue ++ [i] = i :: [] := by rw [empty, List.nil_append]
  rw [State.joinEncodeQueue,
    State.startEncoder_of_cons (s := { s with encodeQueue := s.encodeQueue ++ [i] }) idle queue]
  exact State.eq_of_fields (encodeQueue := empty.symm)

/-- A record taken as its capture completes is ENCODING. -/
theorem State.captureDone_taken (s : State) (i : Fin 64) (q : Record) :
    (s.captureDone i q).slots.upd i (Option.map fun r => { r with state := .encoding }) =
      s.slots.put i (some { q with state := .encoding }) := by
  rw [State.captureDone, Table.upd, Table.look_put_self, Table.put_put, Option.map_some]

end Sys2Proof.Machine
end

section
/-! SUPPORT. A scan read: the band end, the band start and the fill (R75, R76, R94, R97). -/

namespace Sys2Proof.Machine

/-- The bands that a scan read ends and starts (R76). -/
theorem State.scanRead_eq (s : State) (h : Fin 4) (id : Fin 16) (line xb : Nat) (data : List Byte) :
    let c := s.scans.look h
    let ended := if c.cursor / 32 < line / 32 then s.bandEnd h (c.cursor / 32) else s
    let started := if c.cursor / 32 < line / 32 ∧ line % 32 = 0 then ended.bandStart h (line / 32) else ended
    s.scanRead h id line xb data =
      ({ started with scans := s.scans.put h { c with cursor := line } } : State).fillRead id line xb data := by
  intro c ended started
  have bands : (if c.cursor / 32 < line / 32 then
      if line % 32 = 0 then (s.bandEnd h (c.cursor / 32)).bandStart h (line / 32) else s.bandEnd h (c.cursor / 32)
      else s) = started := by
    by_cases ends : c.cursor / 32 < line / 32 <;> simp [started, ended, ends]
  have follower : started.scans = s.scans := by
    rw [← bands]
    (repeat' split) <;> simp
  have moved : started.updScan h (fun c => { c with cursor := line }) =
      { started with scans := s.scans.put h { c with cursor := line } } := by
    rw [State.updScan, Table.upd, follower]
  rw [← moved, ← bands]
  rfl

/-- OBSERVED_READ of the shown surface at or past the cursor (R75). -/
theorem exec_observedRead_scan {s : State} {o : ReadCompletion} {b : Burst} {id : Fin 16} {f : Surface} {h : Fin 4}
    (following : s.channel.following = .following) (burst : s.channel.readBursts[o.burst]? = some b)
    (surface : s.surfaceAt b.address = some id) (declared : s.surfaces.look id = some f) (owner : f.owner = some h)
    (track : (s.scans.look h).mode = .track) (shown : (s.heads.look h).shown = some id)
    (ahead : (s.scans.look h).cursor ≤ (b.address - f.base) / f.pitch) :
    exec (.observedRead o) s = .next ((s.takeBurst o.burst).scanRead h id ((b.address - f.base) / f.pitch)
      ((b.address - f.base) % f.pitch) (reorderedBytes s.straps.beatBytes b o.beats)) := by
  have scan := State.takeRead_scan (s := s.takeBurst o.burst) (reorderedBytes s.straps.beatBytes b o.beats) surface
    declared owner (classifyRead_scan track shown ahead)
  exact (exec_observedRead burst).trans (congrArg Host.Outcome.next ((if_pos following).trans scan))

/-- A band end is the abandonment of its records, and changes nothing else (R97). -/
theorem State.bandEnd_rest (s : State) (h : Fin 4) (n : Nat) : s.bandEnd h n = { s with
    slots := (s.bandEnd h n).slots
    surfaces := (s.bandEnd h n).surfaces
    counters := { s.counters with capturesAbandoned := (s.bandEnd h n).counters.capturesAbandoned } } := by
  rw [State.bandEnd]
  exact s.abandonWhere_rest _

theorem State.bandEnd_marksOf (s : State) (h : Fin 4) (n : Nat) (id : Fin 16) :
    s.marksOf (fun r => (r.head == h && r.row == n) = true ∧ r.state = .capturing) id (s.bandEnd h n) := by
  have marks := s.abandonWhere_marksOf (fun r => r.head == h && r.row == n) id
  simp only [and_comm (a := _ = RecordState.capturing)] at marks
  exact marks

/-- Settles O29: the record's fill, the bands that a scan read ends and starts, and the fill of its tile's record. -/
theorem scanReadFillsARecord : Obligations.ScanReadFillsARecord := by
  refine ⟨fun r l off data canonical line group whole within => ?_,
    fun s o b id f h following burst surface declared owner => ?_, fun s h n => ?_,
    fun s id f line xb data declared => ?_⟩
  · exact ⟨fun k v byte visible => Record.fill_read_visible canonical byte visible,
      fun a other => Record.fill_read_other canonical other,
      fun m u line unit => r.fill_received group whole within line unit, rfl⟩
  · intro line c track shown ahead taken ends ended started
    rw [exec_observedRead_scan following burst surface declared owner track shown ahead, State.scanRead_eq]
    rfl
  · exact ⟨s.abandonWhere_abandons _, s.bandEnd_marksOf h n, s.onlyMarks_abandonWhere _, s.bandEnd_rest h n⟩
  · intro bpp fits t
    refine ⟨State.fillRead_of_padding line xb data declared, State.fillRead_of_none line xb data declared,
      fun i r unique visible hr fit => ?_⟩
    intro q whole counters
    have filled : t = _ := State.fillRead_of_fits line xb data declared unique visible hr fit
    have complete : q.complete = true ↔ whole := q.complete_iff
    refine ⟨fun part => ?_, fun all busy => ?_, fun all idle empty => ?_⟩
    · rw [filled, if_neg (part ∘ complete.1)]
    · rw [filled, if_pos (complete.2 all)]
      exact State.joinEncodeQueue_of_busy (s := s.captureDone i q) busy i
    · rw [filled, if_pos (complete.2 all), State.joinEncodeQueue_of_idle (s := s.captureDone i q) idle empty,
        State.captureDone_taken]
      rfl

end Sys2Proof.Machine
end

section
/-! SUPPORT. READ: the values of the items, the clear option and the ANSWER (R78, R143, R151, TABLE 48). -/

namespace Sys2Proof.Machine

/-! ### The values (TABLE 48) -/

/-- The settings of one head are items 0x03 to 0x08. -/
theorem HeadSettings.value_eq_none (t : HeadSettings) {id : Nat} (out : id < 0x03 ∨ 0x08 < id) : t.value id = none := by
  unfold HeadSettings.value
  split
  case h_7 => rfl
  all_goals omega

/-- An item that is no setting of the whole part is one of a head's, or unknown. -/
theorem Settings.value_of_head (t : Settings) {id : Nat} (head : Byte) (own : id ∉ [0x01, 0x02, 0x09, 0x0A, 0x0B]) :
    t.value id head = (headOf head).bind fun h => (t.heads.look h).value id := by
  unfold Settings.value
  split
  case h_6 => cases headOf head <;> rfl
  all_goals exact absurd (by decide) own

/-- There are fourteen counters (TABLE 39). -/
theorem Counter.ofIndex_eq_none {n : Nat} (h : 14 ≤ n) : Counter.ofIndex n = none := by
  unfold Counter.ofIndex
  split
  case h_15 => rfl
  all_goals omega

section

variable {item head : Byte} {p : Bool} {s : State}

/-- An item below 0x20 is a setting, pending or in force, or unknown. -/
theorem State.itemValue_setting (below : item.toNat < 0x20) :
    s.itemValue item head p = (if p then s.link.staged else s.link.current).value item.toNat head := if_pos below

/-- Any other item but the frame counts and the event set is a counter, or unknown. -/
theorem State.itemValue_counter (above : 0x20 ≤ item.toNat) (notFrames : item.toNat ≠ 0x30)
    (notLatches : item.toNat ≠ 0x40) :
    s.itemValue item head p = (Counter.ofIndex (item.toNat - 0x20)).map fun k => (s.counters.value k).toNat := by
  rw [State.itemValue, if_neg (by omega), if_neg notFrames, if_neg notLatches]

/-- A setting of one head, or a frame count, of a head that there is not is unknown. -/
theorem State.itemValue_of_noHead (out : 4 ≤ head.toNat)
    (own : item ∈ [0x03#8, 0x04#8, 0x05#8, 0x06#8, 0x07#8, 0x08#8, 0x30#8]) : s.itemValue item head p = none := by
  have none := headOf_eq_none.2 out
  by_cases frames : item = 0x30
  · rw [frames]
    exact congrArg (Option.map _) none
  · have setting : item.toNat < 0x20 ∧ item.toNat ∉ [0x01, 0x02, 0x09, 0x0A, 0x0B] := by
      revert item
      decide
    rw [State.itemValue_setting setting.1, Settings.value_of_head _ _ setting.2, none, Option.bind_none]

/-- An item that TABLE 48 does not list is unknown. -/
theorem State.itemValue_of_unlisted (out : item.toNat = 0 ∨ (0x0C ≤ item.toNat ∧ item.toNat < 0x20) ∨
    (0x2E ≤ item.toNat ∧ item.toNat < 0x30) ∨ (0x31 ≤ item.toNat ∧ item.toNat < 0x40) ∨ 0x41 ≤ item.toNat) :
    s.itemValue item head p = none := by
  by_cases below : item.toNat < 0x20
  · have unlisted : item.toNat ∉ [0x01, 0x02, 0x09, 0x0A, 0x0B] := by
      simp only [List.mem_cons, List.not_mem_nil, or_false]
      omega
    rw [State.itemValue_setting below, Settings.value_of_head _ _ unlisted]
    cases headOf head with
    | none => rfl
    | some h => exact HeadSettings.value_eq_none _ (by omega)
  · rw [State.itemValue_counter (by omega) (by omega) (by omega), Counter.ofIndex_eq_none (by omega), Option.map_none]

/-! ### The clear option (R78, R151) -/

theorem State.clearItem_frameCount {h : Fin 4} (number : head.toNat = h.1) : s.clearItem 0x30 head =
    { s with scans := s.scans.put h { s.scans.look h with frameCount := 0 } } := by
  have frames : (0x30 : Byte).toNat = 0x30 := rfl
  rw [State.clearItem, if_pos frames, headOf_eq_some.2 number]
  rfl

theorem State.clearItem_counter {k : Counter} (above : 0x20 ≤ item.toNat) (notFrames : item.toNat ≠ 0x30)
    (counter : Counter.ofIndex (item.toNat - 0x20) = some k) :
    s.clearItem item head = { s with counters := s.counters.store k 0 } := by
  rw [State.clearItem, if_neg notFrames, if_pos above, counter]

/-- The clear option is ignored for the settings and the event set. -/
theorem State.clearItem_ignored (other : item.toNat < 0x20 ∨ item = 0x40) : s.clearItem item head = s := by
  obtain below | rfl := other
  · rw [State.clearItem, if_neg (by omega), if_neg (by omega)]
  · rfl

theorem State.clearItem_link : (s.clearItem item head).link = s.link := by
  unfold State.clearItem
  repeat' split
  all_goals rfl

end

/-! ### The ANSWER (R143) -/

/-- With a frame on the wire there is no send decision to take (R145). -/
theorem State.sendDecision_of_busy {s : State} (busy : s.link.wire ≠ .idle) : s.sendDecision = s := by
  unfold State.sendDecision
  cases wire : s.link.wire with
  | idle => exact absurd wire busy
  | _ => rfl

section

variable {s : State} {id : BitVec 16} {valid : Bool} {value : BitVec 64}

theorem State.offerAnswer_of_room (room : s.link.control.length < 16) : s.offerAnswer id valid value =
    { s with link := { s.link with control := s.link.control ++ [.answer id valid value] } } := if_pos room

theorem State.offerAnswer_of_full (full : s.link.control.length = 16) :
    s.offerAnswer id valid value = s.count .answersDropped := if_neg (by omega)

/-- With the wire idle and the FIFO empty an ANSWER begins at once (R145). -/
theorem State.answer_begins (up : s.link.state = .up) (idle : s.link.wire = .idle) (empty : s.link.control = []) :
    (s.offerAnswer id valid value).sendDecision =
      { s with link := { s.link with wire := .control (.answer id valid value) } } := by
  rw [State.offerAnswer_of_room (by simp [empty])]
  simp only [State.sendDecision, idle, up, empty, List.nil_append, State.beginControl]

end

/-- READ while UP: the value is taken, then the clear done, and the ANSWER offered (R151). -/
theorem exec_readRequest {s : State} (up : s.link.state = .up) (id : BitVec 16) (item head flags : Byte) :
    exec (.readRequest id item head flags) s =
      .next (((if flags.getLsbD 1 then s.clearItem item head else s).offerAnswer id
        (s.itemValue item head (flags.getLsbD 0)).isSome
        (BitVec.ofNat 64 ((s.itemValue item head (flags.getLsbD 0)).getD 0))).sendDecision) := by
  simp only [exec, execReadRequest, up]

/-- What becomes of the ANSWER: it waits, begins, or is dropped. -/
theorem readRequest_answers {s : State} (up : s.link.state = .up) (id : BitVec 16) (item head flags : Byte) :
    let v := s.itemValue item head (flags.getLsbD 0)
    let u := if flags.getLsbD 1 then s.clearItem item head else s
    let answer := ControlFrame.answer id v.isSome (BitVec.ofNat 64 (v.getD 0))
    (s.link.wire ≠ .idle → s.link.control.length < 16 →
      exec (.readRequest id item head flags) s =
        .next { u with link := { s.link with control := s.link.control ++ [answer] } }) ∧
    (s.link.wire = .idle → s.link.control = [] →
      exec (.readRequest id item head flags) s = .next { u with link := { s.link with wire := .control answer } }) ∧
    (s.link.wire ≠ .idle → s.link.control.length = 16 →
      exec (.readRequest id item head flags) s = .next (u.count .answersDropped)) := by
  intro v u answer
  have link : u.link = s.link := by
    simp only [u]
    split
    · exact State.clearItem_link
    · rfl
  have command : exec (.readRequest id item head flags) s =
      .next (u.offerAnswer id v.isSome (BitVec.ofNat 64 (v.getD 0))).sendDecision :=
    exec_readRequest up id item head flags
  rw [← link] at up
  rw [command, ← link]
  refine ⟨fun busy room => congrArg _ ?_, fun idle empty => congrArg _ (State.answer_begins up idle empty),
    fun busy full => congrArg _ ?_⟩
  · rw [State.offerAnswer_of_room room]
    exact State.sendDecision_of_busy busy
  · rw [State.offerAnswer_of_full full]
    exact State.sendDecision_of_busy busy

/-- Settles O47: the ANSWER by the state of the wire and the FIFO, and each item of TABLE 48. -/
theorem readAnswers : Obligations.ReadAnswers := by
  refine ⟨fun s id item head flags up => readRequest_answers up id item head flags, fun s head p => ?_⟩
  intro t
  have setting : ∀ item : Byte, item.toNat < 0x20 → s.itemValue item head p = t.value item.toNat head :=
    fun item below => State.itemValue_setting below
  refine ⟨setting 0x01 (by decide), ?_, setting 0x09 (by decide), setting 0x0A (by decide), setting 0x0B (by decide),
    rfl, fun h number => ?_, fun out item own => State.itemValue_of_noHead out own, fun n k counter => ?_,
    fun item => State.itemValue_of_unlisted, fun item => State.clearItem_ignored⟩
  · rw [setting 0x02 (by decide)]
    simp only [Settings.value]
    cases t.mode <;> rfl
  · have number' := headOf_eq_some.2 number
    have own : ∀ item : Byte, item.toNat < 0x20 → item.toNat ∉ [0x01, 0x02, 0x09, 0x0A, 0x0B] →
        s.itemValue item head p = (t.heads.look h).value item.toNat := fun item below notWhole => by
      rw [setting item below, Settings.value_of_head t head notWhole, number', Option.bind_some]
    refine ⟨?_, own 0x04 (by decide) (by decide), own 0x05 (by decide) (by decide), own 0x06 (by decide) (by decide),
      own 0x07 (by decide) (by decide), ?_, ?_, State.clearItem_frameCount number⟩
    · rw [own 0x03 (by decide) (by decide)]
      rfl
    · rw [own 0x08 (by decide) (by decide)]
      rfl
    · exact congrArg (Option.map _) number'
  · have item : (BitVec.ofNat 8 (0x20 + n.1)).toNat = 0x20 + n.1 := by
      rw [BitVec.toNat_ofNat]
      omega
    have index : Counter.ofIndex ((BitVec.ofNat 8 (0x20 + n.1)).toNat - 0x20) = some k := by
      rw [item, Nat.add_sub_cancel_left, counter]
    refine ⟨?_, State.clearItem_counter (by omega) (by omega) index⟩
    rw [State.itemValue_counter (by omega) (by omega) (by omega), index, Option.map_some]

end Sys2Proof.Machine
end

end

section
-- One after another, as the theorems of the sections before this one, for the same limit.
set_option Elab.async false

section
/-! SUPPORT. SET: which values a setting takes and which it refuses (R149, R169, TABLE 37, TABLE 48). -/

namespace Sys2Proof.Machine

/-! ### Codes of the enumerated settings (TABLE 48) -/

theorem classOf_eq_none {v : Nat} (h : 3 ≤ v) : classOf v = none := by
  unfold classOf
  split
  case h_4 => rfl
  all_goals omega

theorem onOff_eq_none {v : Nat} (h : 2 ≤ v) : onOff v = none := by
  unfold onOff
  split
  case h_3 => rfl
  all_goals omega

theorem onOff_code (on : Bool) : onOff (if on then 1 else 0 : BitVec 64).toNat = some on := by
  cases on <;> rfl

/-! ### What a SET stages -/

/-- A head's settings are 0x03 to 0x08, for SET as for READ. -/
theorem HeadSettings.written_eq_none (t : HeadSettings) {id : Nat} (value : BitVec 64) (out : id < 0x03 ∨ 0x08 < id) :
    t.written id value = none := by
  unfold HeadSettings.written
  split
  case h_7 => rfl
  all_goals omega

section

variable (t : Settings) {capacity : Nat} {setting head : Byte} {value : BitVec 64}

/-- The allocation mode has the codes 0 and 1 only. -/
theorem Settings.written_mode_eq_none (uncoded : 2 ≤ value.toNat) : t.written capacity 0x02 head value = none := by
  unfold Settings.written
  split
  case h_2 =>
    split
    case h_3 => rfl
    all_goals omega
  all_goals contradiction

/-- A SET that names no setting of the whole part writes one of a head's, or is refused. -/
theorem Settings.written_of_head (own : setting.toNat ∉ [0x01, 0x02, 0x09, 0x0A, 0x0B]) :
    t.written capacity setting head value = (headOf head).bind fun h =>
      ((t.heads.look h).written setting.toNat value).map fun d => { t with heads := t.heads.put h d } := by
  unfold Settings.written
  split
  case h_6 => cases headOf head <;> rfl
  all_goals exact absurd (by simp [*]) own

/-- A value that no head's settings take is refused, whatever head the SET names. -/
theorem Settings.written_head_eq_none (own : setting.toNat ∉ [0x01, 0x02, 0x09, 0x0A, 0x0B])
    (uncoded : ∀ d : HeadSettings, d.written setting.toNat value = none) :
    t.written capacity setting head value = none := by
  rw [t.written_of_head own]
  cases headOf head with
  | none => rfl
  | some h => rw [Option.bind_some, uncoded, Option.map_none]

/-- A head above 3 has no settings. -/
theorem Settings.written_eq_none_of_noHead (low : 3 ≤ setting.toNat) (high : setting.toNat ≤ 8)
    (noHead : 4 ≤ head.toNat) : t.written capacity setting head value = none := by
  have own : setting.toNat ∉ [0x01, 0x02, 0x09, 0x0A, 0x0B] := by
    simp only [List.mem_cons, List.not_mem_nil, or_false]
    omega
  rw [t.written_of_head own, headOf_eq_none.2 noHead, Option.bind_none]

/-- An id that TABLE 48 does not give to SET names no setting. -/
theorem Settings.written_eq_none_of_unlisted (unlisted : setting.toNat = 0 ∨ 12 ≤ setting.toNat) :
    t.written capacity setting head value = none := by
  have own : setting.toNat ∉ [0x01, 0x02, 0x09, 0x0A, 0x0B] := by
    simp only [List.mem_cons, List.not_mem_nil, or_false]
    omega
  exact t.written_head_eq_none own fun d => d.written_eq_none value (by omega)

end

/-! ### The commands while UP -/

section

variable {s : State} {setting head : Byte} {value : BitVec 64}

/-- A SET that is not refused stages its value and does nothing else (R149). -/
theorem exec_set_taken {t : Settings} (up : s.link.state = .up)
    (taken : s.link.staged.written s.straps.capacity setting head value = some t) :
    exec (.set setting head value) s = .next { s with link := { s.link with staged := t } } := by
  simp only [exec, execSet, up, taken]

/-- A refused SET is counted and raises UPSTREAM_CHECK (R149). -/
theorem exec_set_refused (up : s.link.state = .up)
    (refused : s.link.staged.written s.straps.capacity setting head value = none) :
    exec (.set setting head value) s = .next { s with
      counters := s.counters.store .upstreamDiscarded (saturatingAdd s.counters.upstreamDiscarded 1)
      link := s.link.raise .upstreamCheck } := by
  simp only [exec, execSet, up, refused]
  rfl

/-- A SET of a head's setting takes the head's number and writes that head alone. -/
theorem exec_set_head {h : Fin 4} {d : HeadSettings} (up : s.link.state = .up) (number : head.toNat = h.1)
    (own : setting.toNat ∉ [0x01, 0x02, 0x09, 0x0A, 0x0B])
    (taken : (s.link.staged.heads.look h).written setting.toNat value = some d) :
    exec (.set setting head value) s = .next { s with link := { s.link with
      staged := { s.link.staged with heads := s.link.staged.heads.put h d } } } := by
  refine exec_set_taken up ?_
  rw [Settings.written_of_head _ own, headOf_eq_some.2 number, Option.bind_some, taken, Option.map_some]

/-- An APPLY sets the apply request (R150). -/
theorem exec_apply_up (up : s.link.state = .up) :
    exec .apply s = .next { s with link := { s.link with applyRequest := true } } := by
  simp only [exec, execApply, up]

end

end Sys2Proof.Machine
end

section
/-! SUPPORT. The quotas in force (R86). -/

namespace Sys2Proof.Machine

/-- Step 2 of R86 for one quota, next to the sum of the others: it stands, or it is lowered until the sum is 64, or
it is lowered to 0 and the sum is still above 64. -/
abbrev QuotaEnd (pending others inForce : Nat) : Prop :=
  (pending + others ≤ 64 ∧ inForce = pending) ∨
  (64 < pending + others ∧ inForce + others = 64) ∨
  (64 < others ∧ inForce = 0)

theorem quotaEnd_lowered (quota others : Nat) : QuotaEnd quota others (lowered quota others) := by
  unfold lowered
  omega

/-- Pending quotas `p` and those in force `q`: from head 3 on, each is lowered next to those in force above it and the
pending ones below it (R86). -/
structure LoweredFromTop (p q : Fin 4 → Nat) : Prop where
  head3 : QuotaEnd (p 3) (p 0 + p 1 + p 2) (q 3)
  head2 : QuotaEnd (p 2) (p 0 + p 1 + q 3) (q 2)
  head1 : QuotaEnd (p 1) (p 0 + q 2 + q 3) (q 1)
  head0 : QuotaEnd (p 0) (q 1 + q 2 + q 3) (q 0)

theorem Settings.reduceQuotas_look (t : Settings) (h : Fin 4) : t.reduceQuotas.heads.look h =
    { t.heads.look h with quota := (t.reduceQuotas.heads.look h).quota } := by
  simp only [Settings.reduceQuotas, Table.look_tab]

theorem Settings.reduceQuotas_lowered (t : Settings) :
    LoweredFromTop (fun h => (t.heads.look h).quota) fun h => (t.reduceQuotas.heads.look h).quota := by
  constructor <;> simp only [Settings.reduceQuotas, Table.look_tab] <;> exact quotaEnd_lowered ..

namespace LoweredFromTop

variable {p q : Fin 4 → Nat} {h : Fin 4}

/-- No quota is raised. -/
theorem le (r : LoweredFromTop p q) (h : Fin 4) : q h ≤ p h := by
  obtain ⟨head3, head2, head1, head0⟩ := r
  match h with
  | 0 | 1 | 2 | 3 => omega

/-- The sum is above 64 only while a lower head's quota can still be lowered, and head 0's comes last. -/
theorem sum_le (r : LoweredFromTop p q) : q 0 + q 1 + q 2 + q 3 ≤ 64 := by
  obtain ⟨head3, head2, head1, head0⟩ := r
  omega

/-- A lowered quota is lowered to a sum of 64, there or at a lower head. -/
theorem sum_eq_of_lt (r : LoweredFromTop p q) (lower : q h < p h) : q 0 + q 1 + q 2 + q 3 = 64 := by
  obtain ⟨head3, head2, head1, head0⟩ := r
  match h with
  | 0 | 1 | 2 | 3 => omega

/-- A head's quota is lowered only when those of the heads above are 0: one that is not has left a sum of 64. -/
theorem eq_zero_of_lt {g : Fin 4} (r : LoweredFromTop p q) (lower : q h < p h) (above : h < g) : q g = 0 := by
  obtain ⟨head3, head2, head1, head0⟩ := r
  match h with
  | 0 | 1 | 2 | 3 =>
    match g with
    | 0 | 1 | 2 | 3 => omega

/-- Quotas that sum to at most 64 are in force unchanged: a lowered one would make the sum 64. -/
theorem eq_of_room (r : LoweredFromTop p q) (room : p 0 + p 1 + p 2 + p 3 ≤ 64) (h : Fin 4) : q h = p h := by
  rcases (r.le h).lt_or_eq with lower | same
  · have sum := r.sum_eq_of_lt lower
    have le := r.le
    match h with
    | 0 | 1 | 2 | 3 => linarith [le 0, le 1, le 2, le 3]
  · exact same

end LoweredFromTop

/-- R86 for the reduction of the settings' own quotas; nothing else of a head's settings changes. -/
theorem Settings.reduceQuotas_spec (t : Settings) :
    let p := fun h : Fin 4 => (t.heads.look h).quota
    let q := fun h : Fin 4 => (t.reduceQuotas.heads.look h).quota
    (p 0 + p 1 + p 2 + p 3 ≤ 64 → ∀ h, q h = p h) ∧ q 0 + q 1 + q 2 + q 3 ≤ 64 ∧ (∀ h, q h ≤ p h) ∧
    (∀ h, q h < p h → q 0 + q 1 + q 2 + q 3 = 64 ∧ ∀ g, h < g → q g = 0) ∧
    ∀ h, t.reduceQuotas.heads.look h = { t.heads.look h with quota := q h } :=
  have r := t.reduceQuotas_lowered
  ⟨r.eq_of_room, r.sum_le, r.le, fun _ lower => ⟨r.sum_eq_of_lt lower, fun _ => r.eq_zero_of_lt lower⟩,
    t.reduceQuotas_look⟩

end Sys2Proof.Machine
end

section
/-! SET, APPLY and the reduction of quotas (O46). -/

namespace Sys2Proof.Machine

/-- Settles O46: each setting's values and refusals by its id, and the quotas from head 3 down. -/
theorem settingsWritten : Obligations.SettingsWritten := by
  refine ⟨fun s up => ?_, Settings.reduceQuotas_spec⟩
  intro staged onHead refused
  have whole : ∀ {setting q v t}, s.link.staged.written s.straps.capacity setting q v = some t →
      exec (.set setting q v) s = .next (staged t) := exec_set_taken up
  have refuses : ∀ {setting q v}, s.link.staged.written s.straps.capacity setting q v = none →
      exec (.set setting q v) s = .next refused := exec_set_refused up
  refine ⟨fun _ _ => whole rfl, fun _ => ⟨whole rfl, whole rfl⟩,
    fun _ _ uncoded => refuses (Settings.written_mode_eq_none _ uncoded), fun _ _ => whole rfl, fun _ _ => whole rfl,
    fun _ _ => whole rfl, fun q h number => ?_,
    fun _ _ _ low high noHead => refuses (Settings.written_eq_none_of_noHead _ low high noHead),
    fun _ _ _ unlisted => refuses (Settings.written_eq_none_of_unlisted _ unlisted), exec_apply_up up⟩
  intro d
  have own : ∀ {setting v e}, setting.toNat ∉ [0x01, 0x02, 0x09, 0x0A, 0x0B] →
      d.written setting.toNat v = some e → exec (.set setting q v) s = .next (onHead h e) :=
    exec_set_head up number
  have uncoded : ∀ {setting v}, setting.toNat ∉ [0x01, 0x02, 0x09, 0x0A, 0x0B] →
      (∀ e : HeadSettings, e.written setting.toNat v = none) → exec (.set setting q v) s = .next refused :=
    fun ownId none => refuses (Settings.written_head_eq_none _ ownId none)
  refine ⟨⟨own (by decide) rfl, own (by decide) rfl, own (by decide) rfl⟩, fun v above => ?_,
    fun _ => own (by decide) rfl, fun _ => own (by decide) rfl, fun on => ⟨?_, ?_⟩, fun v above => ⟨?_, ?_⟩,
    fun _ => own (by decide) rfl⟩
  · exact uncoded (by decide) fun _ => congrArg (Option.map _) (classOf_eq_none above)
  · exact own (by decide) (congrArg (Option.map _) (onOff_code on))
  · exact own (by decide) (congrArg (Option.map _) (onOff_code on))
  · exact uncoded (by decide) fun _ => congrArg (Option.map _) (onOff_eq_none above)
  · exact uncoded (by decide) fun _ => congrArg (Option.map _) (onOff_eq_none above)

end Sys2Proof.Machine
end

end

section
-- One after another, as the theorems of the sections before this one, for the same limit.
set_option Elab.async false

section
/-! SUPPORT. Where a record stands (R112, R113, R132, R144, R146): the lists, the encoder and the wire as one family of
lists of slots, and a table of records that these lists fit. A move of a record is then one lemma for leaving a list
and one for joining it. -/

namespace Sys2Proof.Machine

/-! ### Spots -/

/-- The places where a live record past CAPTURING can stand. -/
inductive Spot where
  | encodeQueue
  | encoder
  | deferred (head : Fin 4)
  | send (head : Fin 4)
  | wire

/-- The slot whose tile frame is on the wire. -/
def Wire.slots (w : Wire) : List (Fin 64) :=
  match w with
  | .tile i => [i]
  | _ => []

/-- The slots that stand at a spot. -/
def State.standing (p : Spot) (s : State) : List (Fin 64) :=
  match p with
  | .encodeQueue => s.encodeQueue
  | .encoder => s.encoder.toList
  | .deferred h => (s.budget.heads.look h).deferred
  | .send h => s.link.send.look h
  | .wire => s.link.wire.slots

/-- Where a record's state says that it stands: nowhere while CAPTURING. -/
def Record.spot (r : Record) : Option Spot :=
  match r.state with
  | .capturing => none
  | .captured => some .encodeQueue
  | .encoding => some .encoder
  | .deferred => some (.deferred r.head)
  | .queued => some (.send r.head)
  | .sending => some .wire

/-- What a record must carry by its state: its payloads past the encoder, its decision past the encode decision. -/
def Record.equipped (r : Record) : Prop :=
  (r.state = .deferred ∨ r.state = .queued ∨ r.state = .sending → r.coded ≠ none) ∧
    (r.state = .queued ∨ r.state = .sending → r.decision ≠ none)

/-- The lists, the encoder and the wire name the records of a table where these say, each once. -/
structure State.Fits (T : Table 64 (Option Record)) (s : State) : Prop where
  stands : ∀ i p, i ∈ s.standing p ↔ (T.look i).bind Record.spot = some p
  once : ∀ p, (s.standing p).Nodup
  equipped : ∀ i, ∀ r ∈ T.look i, r.equipped

section
variable {r : Record}

theorem Record.spot_of_capturing (h : r.state = .capturing) : r.spot = none := by simp only [Record.spot, h]

theorem Record.spot_of_captured (h : r.state = .captured) : r.spot = some .encodeQueue := by simp only [Record.spot, h]

theorem Record.spot_of_encoding (h : r.state = .encoding) : r.spot = some .encoder := by simp only [Record.spot, h]

theorem Record.spot_of_deferred (h : r.state = .deferred) : r.spot = some (.deferred r.head) := by
  simp only [Record.spot, h]

theorem Record.spot_of_queued (h : r.state = .queued) : r.spot = some (.send r.head) := by simp only [Record.spot, h]

theorem Record.spot_of_sending (h : r.state = .sending) : r.spot = some .wire := by simp only [Record.spot, h]

/-- A record that no list may name needs to carry nothing. -/
theorem Record.equipped_of_early (h : r.state = .capturing ∨ r.state = .captured ∨ r.state = .encoding) :
    r.equipped := by
  rcases h with h | h | h <;> simp [Record.equipped, h]

end

theorem Wire.mem_slots {w : Wire} {i : Fin 64} : i ∈ w.slots ↔ w = .tile i := by
  cases w <;> simp [Wire.slots, eq_comm]

/-- The spot of a record, read backwards. -/
theorem Record.spot_eq_some {r : Record} {p : Spot} : r.spot = some p ↔ match p with
    | .encodeQueue => r.state = .captured
    | .encoder => r.state = .encoding
    | .deferred h => r.state = .deferred ∧ h = r.head
    | .send h => r.state = .queued ∧ h = r.head
    | .wire => r.state = .sending := by
  cases hs : r.state <;> cases p <;> simp [Record.spot, hs, eq_comm]

/-- Membership at a spot, in the words of `State.recordInPlace`. -/
theorem State.mem_standing {s : State} {i : Fin 64} {p : Spot} : i ∈ s.standing p ↔ match p with
    | .encodeQueue => i ∈ s.encodeQueue
    | .encoder => s.encoder = some i
    | .deferred h => i ∈ (s.budget.heads.look h).deferred
    | .send h => i ∈ s.link.send.look h
    | .wire => s.link.wire = .tile i := by
  cases p with
  | encoder => simp [State.standing]
  | wire => exact Wire.mem_slots
  | _ => rfl

/-- A record stands in its place exactly when every spot names its slot as its state says, and it is equipped. -/
theorem State.recordInPlace_iff {s : State} {i : Fin 64} {r : Record} :
    s.recordInPlace i r ↔ (∀ p, i ∈ s.standing p ↔ r.spot = some p) ∧ r.equipped := by
  constructor
  · rintro ⟨queue, encoder, deferred, send, wire, equipped⟩
    refine ⟨fun p => ?_, equipped⟩
    rw [State.mem_standing, Record.spot_eq_some]
    cases p with
    | encodeQueue => exact queue
    | encoder => exact encoder
    | deferred h => exact deferred h
    | send h => exact send h
    | wire => exact wire
  · rintro ⟨stands, equipped⟩
    simp only [State.mem_standing, Record.spot_eq_some] at stands
    exact ⟨stands .encodeQueue, stands .encoder, fun h => stands (.deferred h), fun h => stands (.send h),
      stands .wire, equipped⟩

theorem State.freeSlotNowhere_iff {s : State} {i : Fin 64} : s.freeSlotNowhere i ↔ ∀ p, i ∉ s.standing p := by
  constructor
  · rintro ⟨queue, encoder, deferred, send, wire⟩ p
    rw [State.mem_standing]
    cases p with
    | encodeQueue => exact queue
    | encoder => exact encoder
    | deferred h => exact deferred h
    | send h => exact send h
    | wire => exact wire
  · intro out
    simp only [State.mem_standing] at out
    exact ⟨out .encodeQueue, out .encoder, fun h => out (.deferred h), fun h => out (.send h), out .wire⟩

/-- The invariant is that the lists fit the slots. -/
theorem State.slotsInPlace_iff {s : State} : s.slotsInPlace ↔ s.Fits s.slots := by
  constructor
  · rintro ⟨place, queue, deferred, send⟩
    refine ⟨fun i p => ?_, fun p => ?_, fun i r hr => (State.recordInPlace_iff.1 ((place i).1 r hr)).2⟩
    · cases hr : s.slots.look i with
      | none => simpa using State.freeSlotNowhere_iff.1 ((place i).2 hr) p
      | some r => exact (State.recordInPlace_iff.1 ((place i).1 r hr)).1 p
    · cases p with
      | encodeQueue => exact queue
      | encoder =>
        rw [State.standing]
        cases s.encoder <;> simp
      | deferred h => exact deferred h
      | send h => exact send h
      | wire =>
        rw [State.standing]
        cases s.link.wire <;> simp [Wire.slots]
  · intro fits
    refine ⟨fun i => ⟨fun r hr => State.recordInPlace_iff.2 ⟨fun p => ?_, fits.equipped i r hr⟩,
      fun free => State.freeSlotNowhere_iff.2 fun p => ?_⟩, fits.once .encodeQueue, fun h => fits.once (.deferred h),
      fun h => fits.once (.send h)⟩
    · rw [fits.stands i p, Option.mem_def.1 hr, Option.bind_some]
    · rw [fits.stands i p, free]
      exact nofun

/-! ### Moves -/

section
variable {s t : State} {T : Table 64 (Option Record)} (fits : s.Fits T)

include fits

/-- A slot that changes none of the lists takes another record of the same spot. -/
theorem State.Fits.put {i : Fin 64} {x : Option Record} (spot : x.bind Record.spot = (T.look i).bind Record.spot)
    (equipped : ∀ r ∈ x, r.equipped) : s.Fits (T.put i x) := by
  refine ⟨fun j p => ?_, fits.once, fun j r hr => ?_⟩
  · rw [fits.stands, Table.look_put]
    split
    next own => rw [own, spot]
    next => rfl
  · rw [Table.look_put] at hr
    split at hr
    · exact equipped r hr
    · exact fits.equipped j r hr

/-- A slot leaves the spot where it stood. -/
theorem State.Fits.leave {i : Fin 64} {p : Spot} (stood : (T.look i).bind Record.spot = some p)
    (own : t.standing p = (s.standing p).filter (· ≠ i)) (others : ∀ q, q ≠ p → t.standing q = s.standing q) :
    t.Fits (T.put i none) := by
  refine ⟨fun j q => ?_, fun q => ?_, fun j r hr => ?_⟩
  · by_cases same : q = p
    · subst same
      rw [own, List.mem_filter, fits.stands, Table.look_put]
      split <;> simp_all
    · rw [others q same, fits.stands, Table.look_put]
      split
      next h =>
        rw [h, stood]
        simp [Ne.symm same]
      next => rfl
  · by_cases same : q = p
    · subst same
      rw [own]
      exact (fits.once q).filter _
    · rw [others q same]
      exact fits.once q
  · rw [Table.look_put] at hr
    split at hr
    · simp at hr
    · exact fits.equipped j r hr

/-- A slot that stood nowhere joins the tail of a spot. -/
theorem State.Fits.join {i : Fin 64} {p : Spot} {r : Record} (stood : (T.look i).bind Record.spot = none)
    (spot : r.spot = some p) (equipped : r.equipped) (own : t.standing p = s.standing p ++ [i])
    (others : ∀ q, q ≠ p → t.standing q = s.standing q) : t.Fits (T.put i (some r)) := by
  have nowhere : ∀ q, i ∉ s.standing q := fun q => by simp [fits.stands, stood]
  refine ⟨fun j q => ?_, fun q => ?_, fun j x hx => ?_⟩
  · by_cases mine : j = i
    · subst mine
      rw [Table.look_put_self, Option.bind_some, spot]
      by_cases same : q = p
      · simp [same, own]
      · simp [others q same, nowhere, Ne.symm same]
    · rw [Table.look_put_ne _ mine, ← fits.stands]
      by_cases same : q = p
      · simp [same, own, mine]
      · rw [others q same]
  · by_cases same : q = p
    · subst same
      rw [own]
      exact (fits.once q).append (List.nodup_singleton i) (by simpa using nowhere q)
    · rw [others q same]
      exact fits.once q
  · rw [Table.look_put] at hx
    split at hx
    · obtain rfl := Option.some.inj hx
      exact equipped
    · exact fits.equipped j x hx

end

end Sys2Proof.Machine
end

section
/-! SUPPORT. The shared operations keep every record in its place (R112, R113, R132, R140, R144, R146). A record on its
way from one spot to another is out of place in between: its slot is then in no list, and every other record in its
place. -/

namespace Sys2Proof.Machine

/-- Every record stands in its place, and no tile frame is on the wire while the link is not UP (R140). -/
structure State.recordsInPlace (s : State) : Prop where
  fits : s.Fits s.slots
  tiles : s.link.state ≠ .up → s.standing .wire = []

/-- Slot `i` is in no list, and every other record stands in its place. -/
structure State.placedBut (i : Fin 64) (s : State) : Prop where
  fits : s.Fits (s.slots.put i none)
  tiles : s.link.state ≠ .up → s.standing .wire = []

theorem State.recordsInPlace_iff {s : State} : s.recordsInPlace ↔ s.slotsInPlace ∧ s.tilesOnlyWhileUp := by
  have wire : s.tilesOnlyWhileUp ↔ (s.link.state ≠ .up → s.standing .wire = []) := by
    simp only [State.tilesOnlyWhileUp, List.eq_nil_iff_forall_not_mem, State.mem_standing, ne_eq]
  rw [State.slotsInPlace_iff, wire]
  exact ⟨fun h => ⟨h.fits, h.tiles⟩, fun ⟨fits, tiles⟩ => ⟨fits, tiles⟩⟩

/-- A table that fits one state fits every state with the same lists. -/
theorem State.Fits.congr {s t : State} {T : Table 64 (Option Record)} (fits : s.Fits T)
    (standing : ∀ p, t.standing p = s.standing p) : t.Fits T :=
  ⟨fun i p => by rw [standing, fits.stands], fun p => by rw [standing]; exact fits.once p, fits.equipped⟩

/-- States with the same queue, encoder, deferral lists, send FIFOs and wire have the same lists. -/
theorem State.standing_of_eq {s t : State} (queue : t.encodeQueue = s.encodeQueue := by simp)
    (encoder : t.encoder = s.encoder := by simp)
    (deferred : ∀ h, (t.budget.heads.look h).deferred = (s.budget.heads.look h).deferred := by simp)
    (send : t.link.send = s.link.send := by simp) (wire : t.link.wire = s.link.wire := by simp) (p : Spot) :
    t.standing p = s.standing p := by
  cases p with
  | encodeQueue => exact queue
  | encoder => exact congrArg Option.toList encoder
  | deferred h => exact deferred h
  | send h => exact congrArg (Table.look · h) send
  | wire => exact congrArg Wire.slots wire

section
variable {s t : State}

/-- A change of neither slots nor lists, that does not leave UP. -/
theorem State.recordsInPlace.congr (hs : s.recordsInPlace) (slots : t.slots = s.slots)
    (standing : ∀ p, t.standing p = s.standing p) (up : s.link.state = .up → t.link.state = .up) : t.recordsInPlace :=
  ⟨slots ▸ hs.fits.congr standing, fun down => (standing _).trans (hs.tiles (down ∘ up))⟩

/-- A change of neither slots, lists nor link state. -/
theorem State.recordsInPlace.of_eq (hs : s.recordsInPlace) (slots : t.slots = s.slots := by simp +zetaDelta)
    (queue : t.encodeQueue = s.encodeQueue := by simp +zetaDelta) (encoder : t.encoder = s.encoder := by simp +zetaDelta)
    (deferred : ∀ h, (t.budget.heads.look h).deferred = (s.budget.heads.look h).deferred := by simp +zetaDelta)
    (send : t.link.send = s.link.send := by simp +zetaDelta) (wire : t.link.wire = s.link.wire := by simp +zetaDelta)
    (state : t.link.state = s.link.state := by simp +zetaDelta) : t.recordsInPlace :=
  hs.congr slots (State.standing_of_eq queue encoder deferred send wire) state.trans

theorem State.placedBut.congr {i : Fin 64} (hs : s.placedBut i) (slots : t.slots.put i none = s.slots.put i none)
    (standing : ∀ p, t.standing p = s.standing p) (state : t.link.state = s.link.state) : t.placedBut i :=
  ⟨slots ▸ hs.fits.congr standing, fun down => (standing _).trans (hs.tiles (state ▸ down))⟩

theorem State.recordsInPlace.ite {c : Prop} {_ : Decidable c} (hs : s.recordsInPlace) (ht : t.recordsInPlace) :
    (if c then s else t).recordsInPlace := by
  split
  · exact hs
  · exact ht

theorem State.recordsInPlace.forSlots {f : Fin 64 → State → State}
    (step : ∀ i (v : State), v.recordsInPlace → (f i v).recordsInPlace) (hs : s.recordsInPlace) :
    (s.forSlots f).recordsInPlace :=
  List.foldlRecOn allSlots _ hs fun v hv i _ => step i v hv

theorem State.recordsInPlace.forHeads {f : Fin 4 → State → State}
    (step : ∀ h (v : State), v.recordsInPlace → (f h v).recordsInPlace) (hs : s.recordsInPlace) :
    (s.forHeads f).recordsInPlace :=
  List.foldlRecOn allHeads _ hs fun v hv h _ => step h v hv

/-! ### A record in its place changes -/

/-- A record that keeps its spot changes. -/
theorem State.recordsInPlace.puts (hs : s.recordsInPlace) {i : Fin 64} {x : Option Record}
    (spot : x.bind Record.spot = (s.slots.look i).bind Record.spot) (equipped : ∀ r ∈ x, r.equipped)
    (slots : t.slots = s.slots.put i x) (standing : ∀ p, t.standing p = s.standing p)
    (state : t.link.state = s.link.state) : t.recordsInPlace :=
  ⟨slots ▸ (hs.fits.put spot equipped).congr standing, fun down => (standing _).trans (hs.tiles (state ▸ down))⟩

theorem State.updRecord_slots_of_look {i : Fin 64} {r : Record} (hr : s.slots.look i = some r) (f : Record → Record) :
    (s.updRecord i f).slots = s.slots.put i (some (f r)) := by
  rw [State.updRecord, Table.upd, hr, Option.map_some]

/-- A record takes values that leave its state, its head, its payloads and its decision. -/
theorem State.recordsInPlace.updRecord (hs : s.recordsInPlace) {i : Fin 64} {r : Record}
    (hr : s.slots.look i = some r) {f : Record → Record} (spot : (f r).spot = r.spot)
    (equipped : r.equipped → (f r).equipped) : (s.updRecord i f).recordsInPlace :=
  hs.puts (x := some (f r)) (by rw [hr, Option.bind_some, Option.bind_some, spot])
    (fun q hq => Option.some.inj hq ▸ equipped (hs.fits.equipped i r hr)) (State.updRecord_slots_of_look hr f)
    (State.standing_of_eq rfl rfl (fun _ => rfl) rfl rfl) rfl

/-! ### Out of place -/

section
variable {i : Fin 64}

/-- A slot that stands nowhere is out of place as it is. -/
theorem State.recordsInPlace.placedBut (hs : s.recordsInPlace) (nowhere : (s.slots.look i).bind Record.spot = none) :
    s.placedBut i := ⟨hs.fits.put nowhere.symm (by simp), hs.tiles⟩

/-- A slot leaves its spot. -/
theorem State.recordsInPlace.leave (hs : s.recordsInPlace) {r : Record} {p : Spot} (hr : s.slots.look i = some r)
    (spot : r.spot = some p) (slots : t.slots = s.slots) (state : t.link.state = s.link.state)
    (own : t.standing p = (s.standing p).filter (· ≠ i)) (others : ∀ q, q ≠ p → t.standing q = s.standing q) :
    t.placedBut i := by
  refine ⟨slots ▸ hs.fits.leave (by rw [hr, Option.bind_some, spot]) own others, fun down => ?_⟩
  have idle := hs.tiles (state ▸ down)
  by_cases same : Spot.wire = p
  · subst same
    rw [own, idle, List.filter_nil]
  · rw [others _ same, idle]

theorem State.recordsInPlace.dropCaptured (hs : s.recordsInPlace) {r : Record} (hr : s.slots.look i = some r)
    (captured : r.state = .captured) : (s.dropCaptured i).placedBut i :=
  hs.leave hr (Record.spot_of_captured captured) rfl rfl rfl fun q other => by
    cases q with
    | encodeQueue => exact absurd rfl other
    | _ => rfl

theorem State.recordsInPlace.dropDeferred (hs : s.recordsInPlace) {r : Record} (hr : s.slots.look i = some r)
    (deferred : r.state = .deferred) : (s.dropDeferred r.head i).placedBut i := by
  refine hs.leave hr (Record.spot_of_deferred deferred) rfl rfl ?_ fun q other => ?_
  · exact (s.dropDeferred_look r.head r.head i).trans (if_pos rfl)
  · cases q with
    | deferred h => exact (s.dropDeferred_look r.head h i).trans (if_neg fun same => other (congrArg _ same.symm))
    | _ => rfl

theorem State.recordsInPlace.dropQueued (hs : s.recordsInPlace) {r : Record} (hr : s.slots.look i = some r)
    (queued : r.state = .queued) : (s.dropQueued r.head i).placedBut i := by
  refine hs.leave hr (Record.spot_of_queued queued) rfl rfl ?_ fun q other => ?_
  · exact (s.dropQueued_look r.head r.head i).trans (if_pos rfl)
  · cases q with
    | send h => exact (s.dropQueued_look r.head h i).trans (if_neg fun same => other (congrArg _ same.symm))
    | _ => rfl

/-- The encoder gives up its record (R113). -/
theorem State.recordsInPlace.idleEncoder (hs : s.recordsInPlace) {r : Record} (hr : s.slots.look i = some r)
    (encoding : r.state = .encoding) : s.idleEncoder.placedBut i := by
  have holds : s.encoder = some i := State.mem_standing.1
    ((hs.fits.stands i .encoder).2 (by rw [hr, Option.bind_some, Record.spot_of_encoding encoding]))
  refine hs.leave hr (Record.spot_of_encoding encoding) rfl rfl ?_ fun q other => ?_
  · simp [State.standing, State.idleEncoder, holds]
  · cases q with
    | encoder => exact absurd rfl other
    | _ => rfl

section
variable (hs : s.placedBut i)

include hs

/-- A slot out of place is freed. -/
theorem State.placedBut.freeSlot : (s.freeSlot i).recordsInPlace :=
  ⟨hs.fits.congr (State.standing_of_eq rfl rfl (fun _ => rfl) rfl rfl), hs.tiles⟩

theorem State.placedBut.release (r : Record) : (s.release i r).recordsInPlace := hs.freeSlot.of_eq

theorem State.placedBut.updRecord (f : Record → Record) : (s.updRecord i f).placedBut i :=
  hs.congr (by simp [State.updRecord, Table.upd, Table.put_put])
    (State.standing_of_eq rfl rfl (fun _ => rfl) rfl rfl) rfl

/-- A head's budget changes, but for its deferral list. -/
theorem State.placedBut.updBudget (h : Fin 4) {f : HeadBudget → HeadBudget}
    (list : ∀ b, (f b).deferred = b.deferred) : (s.updBudget h f).placedBut i := by
  refine hs.congr rfl (State.standing_of_eq rfl rfl (fun q => ?_) rfl rfl) rfl
  rw [State.updBudget_heads, Table.look_upd]
  split
  next own => rw [list, own]
  next => rfl

/-- A slot out of place joins a spot; it joins the wire while the link is UP alone. -/
theorem State.placedBut.join {r : Record} {p : Spot} (spot : r.spot = some p) (equipped : r.equipped)
    (look : t.slots.look i = some r) (rest : t.slots.put i none = s.slots.put i none)
    (state : t.link.state = s.link.state) (up : p = .wire → s.link.state = .up)
    (own : t.standing p = s.standing p ++ [i]) (others : ∀ q, q ≠ p → t.standing q = s.standing q) :
    t.recordsInPlace := by
  have joined := hs.fits.join (by simp) spot equipped own others
  rw [← rest, Table.put_put, ← look, Table.put_look] at joined
  refine ⟨joined, fun down => ?_⟩
  rw [others .wire fun same => down (state.trans (up same.symm)), hs.tiles (state ▸ down)]

end

end

end

end Sys2Proof.Machine
end

section
/-! SUPPORT. Withdrawals, the send arbiter, the encode decision and deferral keep every record in its place (R62 to R65,
R130 to R135, R144 to R146). -/

namespace Sys2Proof.Machine

section
variable {s : State} {i : Fin 64}

/-! ### Withdrawals (R62 to R65, R98) -/

theorem State.recordsInPlace.abandonCapture (hs : s.recordsInPlace) {r : Record} (hr : s.slots.look i = some r)
    (capturing : r.state = .capturing) : (s.abandonCapture i r).recordsInPlace :=
  ((hs.placedBut (by rw [hr, Option.bind_some, Record.spot_of_capturing capturing])).release r).of_eq

theorem State.recordsInPlace.withdrawSlot (hs : s.recordsInPlace) (i : Fin 64) : (s.withdrawSlot i).recordsInPlace := by
  cases hr : s.slots.look i with
  | none =>
    unfold State.withdrawSlot
    rwa [hr]
  | some r =>
    rw [State.withdrawSlot_of_look hr]
    split
    next capturing => exact hs.abandonCapture hr capturing
    next captured => exact (hs.dropCaptured hr captured).release r
    next deferred => exact (hs.dropDeferred hr deferred).release r
    next queued => exact (hs.dropQueued hr queued).release r
    next => exact hs.updRecord hr rfl id
    next => exact hs

theorem State.recordsInPlace.withdrawWhere (hs : s.recordsInPlace) (p : Record → Bool) :
    (s.withdrawWhere p).recordsInPlace := by
  refine hs.forSlots fun i v hv => ?_
  split
  · exact .ite (hv.withdrawSlot i) hv
  · exact hv

theorem State.recordsInPlace.abandonWhere (hs : s.recordsInPlace) (p : Record → Bool) :
    (s.abandonWhere p).recordsInPlace := by
  refine hs.forSlots fun i v hv => ?_
  split
  next r hr =>
    split
    next named => exact hv.abandonCapture hr (of_decide_eq_true ((Bool.and_eq_true ..).mp named).1)
    next => exact hv
  next => exact hv

theorem State.recordsInPlace.blindMarking (hs : s.recordsInPlace) : s.blindMarking.recordsInPlace :=
  State.recordsInPlace.withdrawWhere hs.of_eq _

/-! ### The send arbiter (R145, R146) -/

/-- The first of distinct slots leaves the rest. -/
theorem filter_ne_head {i : Fin 64} {rest : List (Fin 64)} (nodup : (i :: rest).Nodup) :
    (i :: rest).filter (· ≠ i) = rest := by
  have erased := nodup.erase_eq_filter i
  rw [List.erase_cons_head] at erased
  simpa [bne_iff_ne] using erased.symm

/-- The record in a send FIFO is QUEUED, and of that head. -/
theorem State.recordsInPlace.queued (hs : s.recordsInPlace) {h : Fin 4} (member : i ∈ s.link.send.look h) :
    ∃ r, s.slots.look i = some r ∧ r.state = .queued ∧ h = r.head := by
  have stands := (hs.fits.stands i (.send h)).1 member
  obtain ⟨r, hr, spot⟩ := Option.bind_eq_some_iff.1 stands
  exact ⟨r, hr, Record.spot_eq_some.1 spot⟩

/-- A tile frame begins with the record at the head of a send FIFO, on an idle wire while the link is UP. -/
theorem State.recordsInPlace.beginTile (hs : s.recordsInPlace) {h : Fin 4} {rest : List (Fin 64)}
    (idle : s.link.wire = .idle) (up : s.link.state = .up) (fifo : s.link.send.look h = i :: rest) (c : HeadClass) :
    (s.beginTile c h i rest).recordsInPlace := by
  obtain ⟨r, hr, queued, rfl⟩ := hs.queued (fifo ▸ List.mem_cons_self : i ∈ s.link.send.look h)
  have nodup := hs.fits.once (.send r.head)
  rw [State.standing, fifo] at nodup
  have left := hs.dropQueued hr queued
  rw [State.dropQueued, Table.upd, fifo, filter_ne_head nodup] at left
  refine left.join (r := { r with state := .sending }) (Record.spot_of_sending rfl) ?_ ?_ ?_ rfl (fun _ => up) ?_
    fun q other => ?_
  · exact ⟨fun _ => (hs.fits.equipped i r hr).1 (.inr (.inl queued)),
      fun _ => (hs.fits.equipped i r hr).2 (.inl queued)⟩
  · exact (Table.look_upd_self _ _ _).trans (congrArg _ hr)
  · simp [State.beginTile, State.updRecord, Table.upd, Table.put_put]
  · exact (congrArg (Wire.slots · ++ [i]) idle).symm
  · cases q with
    | wire => exact absurd rfl other
    | _ => rfl

theorem State.recordsInPlace.sendTile (hs : s.recordsInPlace) (idle : s.link.wire = .idle) (up : s.link.state = .up)
    (l : List HeadClass) : (s.sendTile l).recordsInPlace := by
  induction l with
  | nil => exact hs
  | cons c l ih =>
    rw [State.sendTile]
    split
    next h _ =>
      split
      next i rest fifo => exact hs.beginTile idle up fifo c
      next => exact hs
    next => exact ih

/-- A control frame takes an idle wire. -/
theorem State.recordsInPlace.beginControl (hs : s.recordsInPlace) (idle : s.link.wire = .idle) (f : ControlFrame) :
    (s.beginControl f).recordsInPlace := by
  have still : (s.beginControl f).link.wire.slots = s.link.wire.slots := by
    rw [idle]
    cases f <;> rfl
  refine hs.congr (by simp) (fun p => ?_) fun up => by simpa using up
  cases p with
  | wire => exact still
  | _ => simp [State.standing]

theorem State.recordsInPlace.sendDecision (hs : s.recordsInPlace) : s.sendDecision.recordsInPlace := by
  unfold State.sendDecision
  split
  next => exact hs
  next idle _ =>
    split
    next f rest _ =>
      exact State.recordsInPlace.beginControl
        (s := { s with link := { s.link with control := rest } }) hs.of_eq idle f
    next =>
      split
      next up => exact hs.sendTile idle up _
      next => exact hs
  next => exact hs

/-! ### The encode decision (R130, R131, R144) -/

section
variable (hs : s.placedBut i) {r : Record} (hr : s.slots.look i = some r)

include hs hr

/-- A record out of place that has its payloads is charged: it joins its head's send FIFO, QUEUED. -/
theorem State.placedBut.charge (coded : r.coded ≠ none) (d : Decision) : (s.charge r.head i d).recordsInPlace := by
  unfold State.charge State.joinSendFifo
  extract_lets paid queued
  have out : paid.placedBut i := hs.updBudget r.head fun _ => rfl
  refine State.recordsInPlace.sendDecision (out.join (r := { r with state := .queued, decision := some d })
    (Record.spot_of_queued rfl) ⟨fun _ => coded, fun _ => Option.some_ne_none d⟩ ?_ ?_ rfl nofun ?_ fun q other => ?_)
  · exact (Table.look_upd_self _ _ _).trans (congrArg _ hr)
  · simp [queued, State.updRecord, Table.upd, Table.put_put]
  · exact Table.look_upd_self _ _ _
  · cases q with
    | send h => exact Table.look_upd_ne _ (fun same => other (congrArg _ same)) _
    | _ => rfl

/-- A record out of place that has its payloads is deferred: it joins its head's deferral list. -/
theorem State.placedBut.defer (coded : r.coded ≠ none) (f : CodedForms) : (s.defer r.head i f).recordsInPlace := by
  refine hs.join (r := { r with state := .deferred, age := 0 }) (Record.spot_of_deferred rfl)
    ⟨fun _ => coded, fun h => by simp at h⟩ ?_ ?_ rfl nofun ?_ fun q other => ?_
  · exact (Table.look_upd_self _ _ _).trans (congrArg _ hr)
  · exact Table.put_put _ _ _ _
  · simp [State.standing, State.defer, State.addDemand, State.updRecord]
  · cases q with
    | deferred h =>
      have others : h ≠ r.head := fun same => other (congrArg _ same)
      simp [State.standing, State.defer, State.addDemand, State.updRecord, Table.look_upd_ne _ others]
    | _ => rfl

theorem State.placedBut.encodeDecision (coded : r.coded ≠ none) (f : CodedForms) :
    (s.encodeDecision i r f).recordsInPlace := by
  unfold State.encodeDecision
  dsimp only
  split
  · exact hs.defer hr coded f
  · split
    next d _ => exact (hs.updBudget r.head fun _ => rfl : (s.addDemand r.head d.frameSize).placedBut i).charge hr coded d
    next => exact hs.defer hr coded f

/-- The record that the encoder has given up is released or decided on (R114). -/
theorem State.placedBut.finishEncoding : (s.finishEncoding i).recordsInPlace := by
  cases withdrawn : r.withdrawn with
  | true =>
    rw [State.finishEncoding_of_withdrawn hr withdrawn]
    exact hs.release r
  | false =>
    rw [State.finishEncoding_of_kept hr withdrawn]
    refine (hs.updRecord _).encodeDecision ?_ (Option.some_ne_none _) _
    exact (Table.look_upd_self _ _ _).trans (congrArg _ hr)

end

/-! ### The encoder (R113, R114) -/

/-- The encoder takes the record at the head of its queue. -/
theorem State.recordsInPlace.startEncoder (hs : s.recordsInPlace) : s.startEncoder.recordsInPlace := by
  unfold State.startEncoder
  split
  next i rest idle queue =>
    have queued : i ∈ s.standing .encodeQueue := by simp [State.standing, queue]
    obtain ⟨r, hr, spot⟩ := Option.bind_eq_some_iff.1 ((hs.fits.stands i .encodeQueue).1 queued)
    have captured : r.state = .captured := Record.spot_eq_some.1 spot
    have nodup := hs.fits.once .encodeQueue
    rw [State.standing, queue] at nodup
    have left := hs.dropCaptured hr captured
    rw [State.dropCaptured, queue, filter_ne_head nodup] at left
    refine left.join (r := { r with state := .encoding }) (Record.spot_of_encoding rfl)
      (Record.equipped_of_early (.inr (.inr rfl))) ?_ ?_ rfl nofun ?_ fun q other => ?_
    · exact (Table.look_upd_self _ _ _).trans (congrArg _ hr)
    · exact Table.put_put _ _ _ _
    · simp [State.standing, idle]
    · cases q with
      | encoder => exact absurd rfl other
      | _ => rfl
  next => exact hs

/-- A send decision does not read the encoder. -/
theorem State.sendTile_idleEncoder (s : State) (l : List HeadClass) :
    s.idleEncoder.sendTile l = (s.sendTile l).idleEncoder := by
  induction l with
  | nil => rfl
  | cons c l ih =>
    have next : s.idleEncoder.nextHead c = s.nextHead c := rfl
    have fifos : s.idleEncoder.link.send = s.link.send := rfl
    rw [State.sendTile, State.sendTile, next]
    cases s.nextHead c with
    | none => exact ih
    | some h =>
      dsimp only
      rw [fifos]
      cases s.link.send.look h <;> rfl

theorem State.sendDecision_idleEncoder (s : State) : s.idleEncoder.sendDecision = s.sendDecision.idleEncoder := by
  have link : s.idleEncoder.link = s.link := rfl
  unfold State.sendDecision
  rw [link]
  split
  · rfl
  · split
    next f _ _ => cases f <;> rfl
    next =>
      split
      · exact s.sendTile_idleEncoder _
      · rfl
  · rfl

theorem State.charge_idleEncoder (s : State) (h : Fin 4) (i : Fin 64) (d : Decision) :
    s.idleEncoder.charge h i d = (s.charge h i d).idleEncoder :=
  State.sendDecision_idleEncoder
    { (s.updBudget h fun b => { b with credit := b.credit - d.frameSize }).updRecord i
        (fun r => { r with state := .queued, decision := some d }) with
      link := { s.link with send := s.link.send.upd h fun l => l ++ [i] } }

theorem State.encodeDecision_idleEncoder (s : State) (i : Fin 64) (r : Record) (f : CodedForms) :
    s.idleEncoder.encodeDecision i r f = (s.encodeDecision i r f).idleEncoder := by
  unfold State.encodeDecision
  have budget : s.idleEncoder.budget = s.budget := rfl
  have exactOnly : s.idleEncoder.exactOnly r.head = s.exactOnly r.head := rfl
  rw [budget, exactOnly]
  dsimp only
  split
  · rfl
  · split
    next d _ => exact (s.addDemand r.head d.frameSize).charge_idleEncoder r.head i d
    next => rfl

/-- The completion of an encoding is the same after the encoder has given up the record. -/
theorem State.finishEncoding_idleEncoder {r : Record} (hr : s.slots.look i = some r) :
    s.idleEncoder.finishEncoding i = (s.finishEncoding i).idleEncoder := by
  cases withdrawn : r.withdrawn with
  | true =>
    rw [State.finishEncoding_of_withdrawn hr withdrawn, State.finishEncoding_of_withdrawn (s := s.idleEncoder) hr withdrawn]
    rfl
  | false =>
    rw [State.finishEncoding_of_kept hr withdrawn, State.finishEncoding_of_kept (s := s.idleEncoder) hr withdrawn]
    exact (s.updRecord i fun r' => { r' with coded := some r.codedForms }).encodeDecision_idleEncoder i _ _

/-- The completion of the record in the encoder, and the next one's start. -/
theorem State.recordsInPlace.completeEncoding (hs : s.recordsInPlace) (encoder : s.encoder = some i) :
    (s.finishEncoding i).idleEncoder.startEncoder.recordsInPlace := by
  obtain ⟨r, hr, spot⟩ := Option.bind_eq_some_iff.1 ((hs.fits.stands i .encoder).1 (State.mem_standing.2 encoder))
  rw [← State.finishEncoding_idleEncoder hr]
  exact ((hs.idleEncoder hr (Record.spot_eq_some.1 spot)).finishEncoding hr).startEncoder

end

end Sys2Proof.Machine
end

section
/-! SUPPORT. A re-evaluation, a band start, a fill, a tear and the loss of the link keep every record in its place (R91,
R94 to R96, R133, R134, R140). -/

namespace Sys2Proof.Machine

section
variable {s : State} {i : Fin 64}

/-! ### A re-evaluation (R133, R134) -/

/-- The record in a deferral list is DEFERRED, and of that head. -/
theorem State.recordsInPlace.deferred (hs : s.recordsInPlace) {h : Fin 4}
    (member : i ∈ (s.budget.heads.look h).deferred) :
    ∃ r, s.slots.look i = some r ∧ r.state = .deferred ∧ h = r.head := by
  obtain ⟨r, hr, spot⟩ := Option.bind_eq_some_iff.1 ((hs.fits.stands i (.deferred h)).1 member)
  exact ⟨r, hr, Record.spot_eq_some.1 spot⟩

theorem State.recordsInPlace.abandonDeferral (hs : s.recordsInPlace) {r : Record} (hr : s.slots.look i = some r)
    (deferred : r.state = .deferred) : (s.abandonDeferral i r).recordsInPlace :=
  State.recordsInPlace.of_eq (s := (s.dropDeferred r.head i).release i r) ((hs.dropDeferred hr deferred).release r)
    (by simp [State.abandonDeferral]) (by simp [State.abandonDeferral]) (by simp [State.abandonDeferral])
    (by simp [State.abandonDeferral]) (by simp [State.abandonDeferral]) (by simp [State.abandonDeferral])
    (by simp [State.abandonDeferral])

theorem State.recordsInPlace.freeDeferredRefines (hs : s.recordsInPlace) (h : Fin 4) :
    (s.freeDeferredRefines h).recordsInPlace := by
  refine List.foldlRecOn _ _ hs fun v hv i _ => ?_
  split
  next r hr =>
    split
    next named =>
      exact (hv.dropDeferred hr (of_decide_eq_true ((Bool.and_eq_true ..).mp named).1)).freeSlot
    next => exact hv
  next => exact hv

/-- The order of the trials names the deferred records of the head, each once (R133 step 2). -/
theorem State.tryOrder_perm (s : State) (h : Fin 4) : (s.tryOrder h).Perm (s.budget.heads.look h).deferred := by
  unfold State.tryOrder
  extract_lets l
  split
  next ph pc pr _ _ =>
    split
    · exact List.filter_append_perm (fun i => s.slotNear pc pr i) l
    · exact .refl l
  next => exact .refl l

/-- A slot charged from a deferral list leaves it, and no other slot does. -/
theorem State.charge_deferred (s : State) (h : Fin 4) (i : Fin 64) (d : Decision) :
    (((s.dropDeferred h i).charge h i d).budget.heads.look h).deferred =
      (s.budget.heads.look h).deferred.filter (· ≠ i) := by
  rw [State.charge_budget, State.updBudget_heads, Table.look_upd_self]
  exact (s.dropDeferred_look h h i).trans (if_pos rfl)

/-- The trials of distinct deferred records of a head (R133 step 3). -/
theorem State.recordsInPlace.tryDeferred (hs : s.recordsInPlace) {h : Fin 4} {order : List (Fin 64)}
    (distinct : order.Nodup) (waiting : ∀ i ∈ order, i ∈ (s.budget.heads.look h).deferred) :
    (s.tryDeferred h order).recordsInPlace := by
  induction order generalizing s with
  | nil => exact hs
  | cons i rest ih =>
    obtain ⟨once, distinct⟩ := List.nodup_cons.1 distinct
    obtain ⟨r, hr, deferred, rfl⟩ := hs.deferred (waiting i List.mem_cons_self)
    rw [State.tryDeferred, hr]
    dsimp only
    split
    next f coded =>
      split
      next d _ =>
        have charged : ((s.dropDeferred r.head i).charge r.head i d).recordsInPlace :=
          (hs.dropDeferred hr deferred).charge hr (coded ▸ Option.some_ne_none f) d
        refine ih charged distinct fun j member => ?_
        rw [State.charge_deferred, List.mem_filter]
        exact ⟨waiting j (List.mem_cons_of_mem i member), by simpa using fun same : j = i => once (same ▸ member)⟩
      next => exact hs
    next => exact hs

/-- One more tick of waiting leaves a slot FREE, or its record in the state it had. -/
theorem State.ageDeferred_look (s : State) (i j : Fin 64) : (s.ageDeferred i).slots.look j = none ∨
    ((s.ageDeferred i).slots.look j).map Record.state = (s.slots.look j).map Record.state := by
  cases hr : s.slots.look i with
  | none => exact .inr (by simp only [State.ageDeferred, hr])
  | some r =>
    rw [State.ageDeferred_of_look hr]
    by_cases own : j = i
    · subst own
      split
      · exact .inl (by simp [State.abandonDeferral, State.release, State.freeSlot])
      · exact .inr (by simp [hr])
    · split
      · exact .inr (by simp [State.abandonDeferral, State.release, State.freeSlot, Table.look_put_ne _ own])
      · exact .inr (by simp [Table.look_put_ne _ own])

theorem State.recordsInPlace.ageDeferred (hs : s.recordsInPlace)
    (waits : ∀ r ∈ s.slots.look i, r.state = .deferred) : (s.ageDeferred i).recordsInPlace := by
  cases hr : s.slots.look i with
  | none => simpa only [State.ageDeferred, hr] using hs
  | some r =>
    rw [State.ageDeferred_of_look hr]
    split
    · exact hs.abandonDeferral hr (waits r hr)
    · exact hs.puts (x := some { r with age := r.age + 1 }) (by rw [hr]; rfl)
        (fun q hq => Option.some.inj hq ▸ hs.fits.equipped i r hr) rfl
        (State.standing_of_eq rfl rfl (fun _ => rfl) rfl rfl) rfl

/-- The ageing of slots that are FREE or DEFERRED (R133 step 4). -/
theorem State.recordsInPlace.ageEach (hs : s.recordsInPlace) (l : List (Fin 64))
    (waits : ∀ i ∈ l, ∀ r ∈ s.slots.look i, r.state = .deferred) :
    (l.foldl (fun v i => v.ageDeferred i) s).recordsInPlace := by
  induction l generalizing s with
  | nil => exact hs
  | cons i l ih =>
    refine ih (hs.ageDeferred (waits i List.mem_cons_self)) fun j member r hr => ?_
    obtain free | same := s.ageDeferred_look i j
    · rw [free] at hr
      simp at hr
    · rw [Option.mem_def.1 hr, Option.map_some] at same
      obtain ⟨q, hq, state⟩ := Option.map_eq_some_iff.1 same.symm
      exact state.symm.trans (waits j (List.mem_cons_of_mem i member) q hq)

theorem State.recordsInPlace.reevaluate (hs : s.recordsInPlace) (h : Fin 4) : (s.reevaluate h).recordsInPlace := by
  unfold State.reevaluate
  extract_lets freed tried
  have inFreed : freed.recordsInPlace := .ite (hs.freeDeferredRefines h) hs
  have order := freed.tryOrder_perm h
  have inTried : tried.recordsInPlace :=
    inFreed.tryDeferred (order.nodup_iff.2 (inFreed.fits.once (.deferred h))) fun i => order.mem_iff.1
  refine inTried.ageEach _ fun i member r hr => ?_
  obtain ⟨q, hq, deferred, -⟩ := inTried.deferred member
  obtain rfl : q = r := Option.some.inj (hq.symm.trans hr)
  exact deferred

/-! ### The Capture Unit (R91, R94 to R96) -/

/-- A new record is CAPTURING, in a slot that stood nowhere. -/
theorem State.recordsInPlace.allocate (hs : s.recordsInPlace) (nowhere : (s.slots.look i).bind Record.spot = none)
    (b : BandStart) (c : Candidate) : (s.allocate b i c).recordsInPlace :=
  hs.puts (x := some (b.record c)) nowhere.symm
    (fun _ hq => Option.some.inj hq ▸ Record.equipped_of_early (.inl rfl)) (s.allocate_slots b i c)
    (State.standing_of_eq rfl rfl (fun _ => rfl) rfl rfl) rfl

theorem State.recordsInPlace.allocateEach (hs : s.recordsInPlace) (b : BandStart) (l : List (Fin 64 × Candidate))
    (nowhere : ∀ a ∈ l, (s.slots.look a.1).bind Record.spot = none) : (s.allocateEach b l).recordsInPlace := by
  induction l generalizing s with
  | nil => exact hs
  | cons a l ih =>
    refine ih (hs.allocate (nowhere a List.mem_cons_self) b a.2) fun e member => ?_
    rw [State.allocate_slots, Table.look_put]
    split
    next => rfl
    next => exact nowhere e (List.mem_cons_of_mem a member)

theorem State.recordsInPlace.serveBand (hs : s.recordsInPlace) (b : BandStart) : (s.serveBand b).recordsInPlace := by
  have allocated := hs.allocateEach b (s.allocations b) fun a member => by
    rw [(s.mem_freeSlots a.1).1 (List.of_mem_zip member).1, Option.bind_none]
  rw [State.serveBand_eq]
  exact allocated.of_eq rfl rfl rfl (fun _ => rfl) rfl rfl rfl

theorem State.recordsInPlace.bandStart (hs : s.recordsInPlace) (h : Fin 4) (band : Nat) :
    (s.bandStart h band).recordsInPlace := by
  unfold State.bandStart
  split
  · split
    · exact hs.serveBand _
    · exact hs
  · exact hs

/-- A record whose capture is complete joins the encode queue (R95, R112, R113). -/
theorem State.recordsInPlace.captured (hs : s.recordsInPlace) {r q : Record} (hr : s.slots.look i = some r)
    (capturing : r.state = .capturing) (captured : q.state = .captured) :
    (((s.updRecord i fun _ => q).count .capturesCompleted).joinEncodeQueue i).recordsInPlace := by
  have out : s.placedBut i := hs.placedBut (by rw [hr, Option.bind_some, Record.spot_of_capturing capturing])
  refine State.recordsInPlace.startEncoder (out.join (Record.spot_of_captured captured)
    (Record.equipped_of_early (.inr (.inl captured))) ?_ ?_ rfl nofun rfl fun p other => ?_)
  · exact (Table.look_upd_self _ _ _).trans (congrArg _ hr)
  · exact Table.put_put _ _ _ _
  · cases p with
    | encodeQueue => exact absurd rfl other
    | _ => rfl

theorem State.recordsInPlace.fillRead (hs : s.recordsInPlace) (surface : Fin 16) (line xb : Nat) (data : List Byte) :
    (s.fillRead surface line xb data).recordsInPlace := by
  unfold State.fillRead
  split
  next => exact hs
  next f _ =>
    split
    next => exact hs
    next =>
      dsimp only
      split
      next => exact hs
      next i _ =>
        split
        next => exact hs
        next r hr =>
          split
          next capturing =>
            split
            next => exact hs.captured hr capturing rfl
            next => exact hs.updRecord hr rfl id
          next => exact hs

theorem State.recordsInPlace.tear (hs : s.recordsInPlace) (id : Fin 16) (c w : Nat) :
    (s.tear id c w).recordsInPlace := by
  unfold State.tear
  split
  next => exact hs
  next i _ =>
    split
    next r hr =>
      split
      next capturing =>
        exact (hs.placedBut (by rw [hr, Option.bind_some, Record.spot_of_capturing capturing])).freeSlot.of_eq
      next => exact hs
    next => exact hs

theorem State.recordsInPlace.trackWrite (hs : s.recordsInPlace) (g : Nat) (bytes : List (Nat × Byte)) :
    (s.trackWrite g bytes).recordsInPlace := by
  unfold State.trackWrite State.surfaceWrite
  split
  next id c w _ =>
    have marked : (s.markStale id c w).recordsInPlace := hs.of_eq
    exact (marked.tear id c w).of_eq
  next => exact hs

/-! ### The loss of the link (R140) -/

/-- After link loss a record stands in the encoder or nowhere. -/
theorem Record.spot_afterLoss {o : Option Record} {p : Spot} : (o.bind Record.afterLoss).bind Record.spot = some p ↔
    p = .encoder ∧ o.bind Record.spot = some p := by
  cases o with
  | none => simp
  | some r =>
    by_cases encoding : r.state = .encoding
    · simp [Record.afterLoss, encoding, Record.spot, eq_comm]
    · have elsewhere : r.spot ≠ some .encoder := encoding ∘ Record.spot_eq_some.1
      simp only [Option.bind_some, Record.afterLoss, encoding, if_false, Option.bind_none, reduceCtorEq, false_iff]
      rintro ⟨rfl, spot⟩
      exact elsewhere spot

theorem State.recordsInPlace.leaveUp (hs : s.recordsInPlace) : s.leaveUp.recordsInPlace := by
  have inPlace := (State.recordsInPlace_iff.1 hs).1
  have standing : ∀ p, s.leaveUp.standing p = match p with
      | .encoder => s.encoder.toList
      | _ => [] := by
    intro p
    rw [State.leaveUp_eq]
    cases p with
    | encodeQueue => simpa [State.standing] using State.withdrawAtLinkLoss_encodeQueue inPlace
    | encoder => simp [State.standing, State.sever]
    | deferred h => simpa [State.standing] using State.withdrawAtLinkLoss_deferred inPlace h
    | send h => simpa [State.standing] using State.withdrawAtLinkLoss_send inPlace h
    | wire => simp [State.standing, Wire.slots]
  have slots : ∀ i, s.leaveUp.slots.look i = (s.slots.look i).bind Record.afterLoss := by
    intro i
    rw [State.leaveUp_eq]
    simpa using s.withdrawAtLinkLoss_look i
  refine ⟨⟨fun i p => ?_, fun p => ?_, fun i r hr => ?_⟩, fun _ => standing .wire⟩
  · rw [standing, slots, Record.spot_afterLoss, ← hs.fits.stands]
    cases p <;> simp [State.standing]
  · rw [standing]
    cases p with
    | encoder => exact hs.fits.once .encoder
    | _ => exact List.nodup_nil
  · rw [slots] at hr
    obtain ⟨q, -, lost⟩ := Option.bind_eq_some_iff.1 hr
    have kept : q.state = .encoding ∧ r = { q with withdrawn := true } := by
      unfold Record.afterLoss at lost
      split at lost
      next encoding => exact ⟨encoding, (Option.some.inj lost).symm⟩
      next => exact absurd lost nofun
    obtain ⟨encoding, rfl⟩ := kept
    exact Record.equipped_of_early (.inr (.inr encoding))

end

end Sys2Proof.Machine
end

section
/-! SUPPORT. What each command does to the records' places: O59. -/

namespace Sys2Proof.Machine

/-- The command goes on, with every record in its place. -/
def leadsInPlace (o : Host.Outcome State Fault Refusal) : Prop := ∃ t, o = .next t ∧ t.recordsInPlace

theorem State.recordsInPlace.into {t : State} (ht : t.recordsInPlace) : leadsInPlace (.next t) := ⟨t, rfl, ht⟩

section
variable {s : State} (hs : s.recordsInPlace)

include hs

/-! ### Changes of other things -/

theorem State.recordsInPlace.updScan (h : Fin 4) (f : Scan → Scan) : (s.updScan h f).recordsInPlace := hs.of_eq

theorem State.recordsInPlace.updHead (h : Fin 4) (f : Head → Head) : (s.updHead h f).recordsInPlace := hs.of_eq

theorem State.recordsInPlace.offerHead (h : Fin 4) : (s.offerHead h).recordsInPlace := hs.of_eq

theorem State.recordsInPlace.declare (id : Fin 16) (f : Surface) : (s.declare id f).recordsInPlace :=
  hs.of_eq rfl rfl rfl (fun _ => rfl) rfl rfl rfl

theorem State.recordsInPlace.formDemands : s.formDemands.recordsInPlace :=
  hs.of_eq (deferred := by simp [State.formDemands])

theorem State.recordsInPlace.recomputeShares : s.recomputeShares.recordsInPlace :=
  hs.of_eq (deferred := by simp [HeadBudget.withShare])

theorem State.recordsInPlace.refill : s.refill.recordsInPlace := by
  refine hs.of_eq (deferred := fun h => ?_)
  rw [State.refill_heads]
  split <;> rfl

/-! ### The Channel Follower -/

theorem State.recordsInPlace.loseChannel : s.loseChannel.recordsInPlace := by
  unfold State.loseChannel
  extract_lets _ released
  have unowed : released.recordsInPlace := hs.of_eq
  exact (unowed.abandonWhere fun _ => true).of_eq

theorem State.recordsInPlace.leaveFollowing : s.leaveFollowing.recordsInPlace := by
  unfold State.leaveFollowing
  extract_lets counted _ resync cleared
  have unflagged : cleared.recordsInPlace := hs.of_eq rfl rfl rfl (fun _ => rfl) rfl rfl rfl
  exact unflagged.loseChannel.of_eq

theorem State.recordsInPlace.testFollowing : s.testFollowing.recordsInPlace := by
  unfold State.testFollowing State.enterFollowing
  have following : State.recordsInPlace { s with channel := { s.channel with following := .following } } :=
    hs.of_eq
  exact .ite following.blindMarking.of_eq hs

omit hs in
theorem State.recordsInPlace.takeBlind (a : Anomaly) {effect : State → State} (y : Beyond) (counted : Bool)
    (he : (effect s).recordsInPlace) : (s.takeBlind a effect y counted).recordsInPlace := by
  have flagged : (State.flagged a y counted (effect s)).recordsInPlace := by
    rw [State.flagged_eq]
    exact he.of_eq rfl rfl rfl (fun _ => rfl) rfl rfl rfl
  rw [State.takeBlind_eq]
  exact .ite flagged flagged.testFollowing

omit hs in
theorem State.recordsInPlace.takeCommand (a : Anomaly) {effect : State → State} (y : Beyond)
    (he : (effect s).recordsInPlace) : (s.takeCommand a effect y).recordsInPlace := by
  unfold State.takeCommand
  split
  · exact .ite he.leaveFollowing he
  · exact State.recordsInPlace.takeBlind a y _ he
  · exact State.recordsInPlace.takeBlind a y _ he

theorem State.recordsInPlace.assertMemoryReset : s.assertMemoryReset.recordsInPlace := by
  have held : State.recordsInPlace { s with memoryResetLine := true, channel := s.channel.heldInReset } :=
    hs.of_eq rfl rfl rfl (fun _ => rfl) rfl rfl rfl
  rw [State.assertMemoryReset_eq]
  exact held.loseChannel.of_eq

/-- A rank command, taken or not. -/
theorem exec_rank_inPlace {c : Instr} {n : Nat} (hc : c.rank? = some n) : leadsInPlace (exec c s) := by
  by_cases cal : c = .calibrate n
  · subst cal
    exact hs.into
  cases line : s.memoryResetLine with
  | true =>
    rw [exec_held line (.inl (hc ▸ Option.some_ne_none n))]
    exact hs.into
  | false =>
    by_cases present : n < s.straps.rankCount
    · have two : n < 2 := Nat.lt_of_lt_of_le present (rankCount_le_two s.straps)
      have taken : c.takenBy ⟨n, two⟩ s := ⟨hc, cal, present, line⟩
      rw [exec_of_takenBy taken]
      exact (State.recordsInPlace.takeCommand _ _ (hs.of_eq rfl rfl rfl (fun _ => rfl) rfl rfl rfl)).into
    · obtain ⟨missing, -, -⟩ := commandsWithoutEffect
      rw [missing c n s hc (Nat.not_lt.1 present)]
      exact hs.into

theorem execModeSet_inPlace (n : Fin 4) (v : BitVec 16) : leadsInPlace (exec (.modeSet n v) s) := by
  cases line : s.memoryResetLine with
  | true =>
    rw [exec_held line (.inr (.inr ⟨n, v, rfl⟩))]
    exact hs.into
  | false =>
    rw [exec_modeSet line]
    exact (State.recordsInPlace.takeCommand _ _ (hs.of_eq rfl rfl rfl (fun _ => rfl) rfl rfl rfl)).into

/-! ### Descriptors (R38 to R45) -/

theorem State.recordsInPlace.loseShown (h : Fin 4) : (s.loseShown h).recordsInPlace := by
  have hidden : (s.hideShown h).recordsInPlace := hs.of_eq rfl rfl rfl (fun _ => rfl) rfl rfl rfl
  rw [State.loseShown_eq]
  exact hidden.offerHead h

theorem State.recordsInPlace.regrow (h : Fin 4) (g : Geometry) (queued : Bool) :
    (s.regrow h g queued).recordsInPlace := by
  have reshaped : (s.reshapeHead h g).recordsInPlace := hs.of_eq rfl rfl rfl (fun _ => rfl) rfl rfl rfl
  rw [State.regrow_eq]
  exact .ite reshaped (reshaped.offerHead h)

theorem State.recordsInPlace.redeclare (id : Fin 16) (old f : Surface) : (s.redeclare id old f).recordsInPlace := by
  unfold State.redeclare
  extract_lets withdrawn declared
  have inWithdrawn : withdrawn.recordsInPlace := hs.withdrawWhere _
  have inDeclared : declared.recordsInPlace := inWithdrawn.declare id _
  split
  next => exact inDeclared
  next h _ =>
    extract_lets shown lost
    have inLost : lost.recordsInPlace := .ite (inDeclared.loseShown h) inDeclared
    exact .ite (inLost.regrow h f.geometry _) inLost

/-- A head's budget cleared and the shares recomputed leave every deferral list (R122 to R124). -/
theorem State.recordsInPlace.rebudget (h : Fin 4) (fresh : Bool) : (s.rebudget h fresh).recordsInPlace :=
  hs.of_eq (by simp) (by simp) (by cases fresh <;> rfl) (s.rebudget_deferred h fresh) (by simp) (by simp) (by simp)

theorem State.recordsInPlace.disown (ids : List (Fin 16)) : (s.disown ids).recordsInPlace :=
  State.recordsInPlace.of_eq (s := s.withdrawFlipSet ids) (hs.withdrawWhere _) (by simp [State.disown])
    (by simp [State.disown]) (by simp [State.disown]) (by simp [State.disown]) (by simp [State.disown])
    (by simp [State.disown]) (by simp [State.disown])

theorem State.recordsInPlace.defineHead (h : Fin 4) (ids : List (Fin 16)) : (s.defineHead h ids).recordsInPlace := by
  rw [State.defineHead_eq]
  have enlisted : ((s.disown (s.heads.look h).flipSet).enlist h ids).recordsInPlace :=
    (hs.disown (s.heads.look h).flipSet).of_eq (encoder := by simp [State.enlist])
  exact (enlisted.offerHead h).rebudget h _

theorem State.recordsInPlace.removeHead (h : Fin 4) : (s.removeHead h).recordsInPlace := by
  rw [State.removeHead_eq]
  have vacated : ((s.disown (s.heads.look h).flipSet).vacate h).recordsInPlace :=
    (hs.disown (s.heads.look h).flipSet).of_eq rfl rfl rfl (fun _ => rfl) rfl rfl rfl
  exact (vacated.offerHead h).rebudget h true

theorem State.recordsInPlace.applyDescriptor (d : DescriptorSlot) : (s.applyDescriptor d).recordsInPlace := by
  unfold State.applyDescriptor
  split
  · unfold State.takeSurface
    split
    · exact hs
    · split
      · exact hs.declare _ _
      · exact hs.redeclare _ _ _
  · unfold State.takeHead
    split
    · exact hs
    · exact hs.defineHead _ _
  · unfold State.takeWithdrawSurface
    split
    · exact hs
    · exact hs.of_eq
  · unfold State.takeWithdrawHead
    split
    · exact hs
    · exact .ite (hs.removeHead _) hs
  · exact hs

theorem State.recordsInPlace.writeSlot (i : Fin 16) (off : Nat) (bytes : List (Nat × Byte)) :
    (s.writeSlot i off bytes).recordsInPlace := by
  unfold State.writeSlot State.conclude
  extract_lets d written o applied stored noticed
  have inWritten : written.recordsInPlace := hs.of_eq
  have inApplied : applied.recordsInPlace := .ite (inWritten.applyDescriptor d) inWritten
  have inStored : stored.recordsInPlace := inApplied.of_eq
  have inNoticed : noticed.recordsInPlace := inStored.of_eq
  exact .ite (State.recordsInPlace.ite inNoticed inNoticed.of_eq).sendDecision inWritten

/-! ### Observed writes and reads -/

theorem execObservedWrite_inPlace (o : WriteCompletion) : leadsInPlace (execObservedWrite o s) := by
  unfold execObservedWrite
  split
  next => exact hs.into
  next b _ =>
    extract_lets _ taken bytes
    have inTaken : taken.recordsInPlace := hs.of_eq
    split
    · unfold State.takeWrite
      exact (State.recordsInPlace.ite (inTaken.writeSlot _ _ bytes) (inTaken.trackWrite b.address bytes)).into
    · exact inTaken.into

theorem State.recordsInPlace.frameStart (h : Fin 4) (id : Fin 16) (xb : Nat) (data : List Byte) :
    (s.frameStart h id xb data).recordsInPlace := by
  rw [State.frameStart_eq]
  have cleared : (s.clearFrame h id).recordsInPlace := (hs.abandonWhere _).withdrawWhere _
  have entered : ∀ announces period now, ((s.clearFrame h id).enterFrame h id announces period now).recordsInPlace := by
    intro announces period now
    unfold State.enterFrame
    extract_lets shows
    have inShows : shows.recordsInPlace := cleared.of_eq
    exact (State.recordsInPlace.ite (inShows.offerHead h) inShows).of_eq rfl rfl rfl (fun _ => rfl) rfl rfl rfl
  have shown := entered (s.frameAnnounces h) ((s.scans.look h).measured s.budget.now) s.budget.now
  exact ((shown.bandStart h 0).fillRead id 0 xb data).of_eq

theorem State.recordsInPlace.scanRead (h : Fin 4) (id : Fin 16) (line xb : Nat) (data : List Byte) :
    (s.scanRead h id line xb data).recordsInPlace := by
  unfold State.scanRead
  extract_lets cursor ended started moved
  have inStarted : started.recordsInPlace :=
    .ite (.ite ((hs.abandonWhere _).bandStart h _) (hs.abandonWhere _)) hs
  have inMoved : moved.recordsInPlace := inStarted.of_eq rfl rfl rfl (fun _ => rfl) rfl rfl rfl
  exact inMoved.fillRead id line xb data

theorem State.recordsInPlace.takeRead (g : Nat) (data : List Byte) : (s.takeRead g data).recordsInPlace := by
  unfold State.takeRead
  repeat' split
  · exact hs
  · exact hs
  · exact hs
  · dsimp only
    split
    · exact (hs.frameStart _ _ _ _).sendDecision
    · exact hs.scanRead _ _ _ _ _
    · exact hs.of_eq

theorem execObservedRead_inPlace (o : ReadCompletion) : leadsInPlace (execObservedRead o s) := by
  unfold execObservedRead
  split
  next => exact hs.into
  next b _ =>
    extract_lets _ taken
    have inTaken : taken.recordsInPlace := hs.of_eq
    split
    · exact (inTaken.takeRead b.address _).into
    · exact inTaken.into

/-! ### The timers and the encoder -/

theorem State.recordsInPlace.stallHead (h : Fin 4) : (s.stallHead h).recordsInPlace := by
  rw [State.stallHead_eq]
  have halted : (s.haltHead h).recordsInPlace :=
    ((hs.abandonWhere fun r => r.head == h).updScan h Scan.stopped).updHead h _
  have raised : (((s.haltHead h).offerHead h).raise .headStalled).recordsInPlace := (halted.offerHead h).of_eq
  exact raised.sendDecision

theorem execStallTimerExpiry_inPlace (h : Fin 4) : leadsInPlace (execStallTimerExpiry h s) := by
  unfold execStallTimerExpiry
  split
  next => exact hs.into
  next e _ =>
    have reached : (s.reachTime e).recordsInPlace := hs.of_eq
    dsimp only
    split
    · exact reached.of_eq.into
    · exact (reached.stallHead h).into
    · exact reached.into

theorem execEncodeCompletion_inPlace : leadsInPlace (exec .encodeCompletion s) := by
  cases encoder : s.encoder with
  | none =>
    obtain ⟨idle, -⟩ := Sys2Proof.Machine.encodeCompletion
    rw [idle s encoder]
    exact hs.into
  | some i =>
    rw [exec_encodeCompletion encoder]
    exact (hs.completeEncoding encoder).into

/-- The steps of a tick before the re-evaluation leave every deferral list. -/
theorem State.recordsInPlace.tickBudget : s.tickBudget.recordsInPlace := by
  rw [State.tickBudget_eq, State.divided, State.shared_eq]
  have applied : s.applied.recordsInPlace := by
    rw [State.applied_eq]
    exact hs.of_eq
  have accounted : s.applied.accounted.recordsInPlace := .ite applied.formDemands applied
  have shared : (if 16 ≤ s.budget.epochTicks ∨ s.link.applyRequest = true ∨ s.budget.recompute = true then
      s.applied.accounted.recomputeShares else s.applied.accounted).recordsInPlace :=
    .ite accounted.recomputeShares accounted
  exact State.recordsInPlace.refill shared.of_eq

theorem execTick_inPlace : leadsInPlace (exec .tick s) := by
  have ticked : s.ticked.recordsInPlace := by
    rw [State.ticked_eq]
    exact hs.of_eq
  have evaluated : (allHeads.foldl (fun v h => v.reevaluate h) s.ticked.tickBudget).recordsInPlace :=
    ticked.tickBudget.forHeads fun h v hv => hv.reevaluate h
  have tested : (allHeads.foldl (fun v h => v.reevaluate h) s.ticked.tickBudget).statusTest.recordsInPlace :=
    evaluated.of_eq
  rw [exec_tick]
  exact tested.sendDecision.into

theorem execEpochEnd_inPlace : leadsInPlace (execEpochEnd s) := by
  unfold execEpochEnd
  extract_lets formed
  have shares : formed.recordsInPlace := hs.formDemands.recomputeShares
  exact shares.of_eq.into

theorem execDeferralAbandoned_inPlace (i : Fin 64) : leadsInPlace (execDeferralAbandoned i s) := by
  unfold execDeferralAbandoned
  split
  next r hr =>
    split
    next deferred => exact (hs.abandonDeferral hr deferred).into
    next => exact hs.into
  next => exact hs.into

theorem execOverrideHoldExpiry_inPlace : leadsInPlace (execOverrideHoldExpiry s) := by
  unfold execOverrideHoldExpiry
  split
  · exact hs.into
  · exact hs.of_eq.into

/-! ### The Desk Link -/

theorem execLanesAligned_inPlace : leadsInPlace (execLanesAligned s) := by
  unfold execLanesAligned
  split
  next down =>
    extract_lets _ aligning
    have inAligning : aligning.recordsInPlace :=
      hs.congr rfl (State.standing_of_eq rfl rfl (fun _ => rfl) rfl rfl) fun up => absurd (down.symm.trans up) nofun
    have offered : aligning.offerHello.recordsInPlace := inAligning.of_eq
    exact offered.sendDecision.into
  next => exact hs.into

/-- From ALIGNING the link goes DOWN with an idle wire, which no tile frame was on (R139, R140). -/
theorem State.recordsInPlace.leaveAligning (aligning : s.link.state = .aligning) : s.leaveAligning.recordsInPlace := by
  refine hs.congr rfl (fun p => ?_) fun up => absurd (aligning.symm.trans up) nofun
  cases p with
  | wire => exact (hs.tiles (by simp [aligning])).symm
  | _ => rfl

theorem execLaneAlignmentLost_inPlace (lane : Fin 2) : leadsInPlace (execLaneAlignmentLost lane s) := by
  unfold execLaneAlignmentLost
  split
  · extract_lets _ lost
    have inLost : lost.recordsInPlace := hs.of_eq
    split
    · exact inLost.into
    next aligning => exact (inLost.leaveAligning aligning).into
    · exact inLost.leaveUp.into
  · exact hs.into

theorem execHelloRepeatTimerExpiry_inPlace : leadsInPlace (execHelloRepeatTimerExpiry s) := by
  unfold execHelloRepeatTimerExpiry
  split
  next e _ _ =>
    extract_lets reached offered
    have inOffered : offered.recordsInPlace := hs.of_eq
    exact (State.recordsInPlace.sendDecision
      (s := { offered with link := { offered.link with helloAt := some (offered.after 10000) } }) inOffered.of_eq).into
  next => exact hs.into

theorem execAligningTimerExpiry_inPlace : leadsInPlace (execAligningTimerExpiry s) := by
  unfold execAligningTimerExpiry
  split
  next e aligning _ =>
    extract_lets left
    have reached : (s.reachTime e).recordsInPlace := hs.of_eq
    have inLeft : left.recordsInPlace := reached.leaveAligning (by simpa using aligning)
    exact inLeft.of_eq.into
  next => exact hs.into

theorem State.recordsInPlace.enterUp : s.enterUp.recordsInPlace := by
  unfold State.enterUp
  extract_lets _ up _ cleared marked heads status _ tested lamp notice
  have inCleared : cleared.recordsInPlace :=
    hs.congr rfl (State.standing_of_eq rfl rfl (fun _ => rfl) rfl rfl) fun _ => rfl
  have inMarked : marked.recordsInPlace := inCleared.of_eq
  have inHeads : heads.recordsInPlace := inMarked.forHeads fun h v hv => hv.offerHead h
  have inStatus : status.recordsInPlace := .ite inHeads.of_eq inHeads
  have inTested : tested.recordsInPlace := inStatus.of_eq
  have inLamp : lamp.recordsInPlace := inTested.of_eq
  have inNotice : notice.recordsInPlace := inLamp.of_eq
  exact inNotice.sendDecision

theorem execHello_inPlace (version : Byte) : leadsInPlace (execHello version s) := by
  unfold execHello
  split
  · exact hs.into
  · split
    · exact hs.enterUp.into
    · exact hs.of_eq.into
  · exact hs.into

/-- The end of a frame frees the slot of a tile frame, and the wire takes the next frame (R146). -/
theorem execFrameEnd_inPlace : leadsInPlace (exec .frameEnd s) := by
  cases wire : s.link.wire with
  | tile i =>
    obtain ⟨r, hr, spot⟩ := Option.bind_eq_some_iff.1 ((hs.fits.stands i .wire).1 (State.mem_standing.2 wire))
    have sending : r.state = .sending := Record.spot_eq_some.1 spot
    obtain ⟨d, hd⟩ := Option.ne_none_iff_exists'.1 ((hs.fits.equipped i r hr).2 (.inr sending))
    have left : State.placedBut i { s with link := { s.link with wire := .idle } } := by
      refine hs.leave hr spot rfl rfl ?_ fun p other => ?_
      · simp [State.standing, wire, Wire.slots]
      · cases p with
        | wire => exact absurd rfl other
        | _ => rfl
    have ended : (s.endTile i r d).recordsInPlace := by
      rw [State.endTile_eq]
      exact left.freeSlot.of_eq rfl rfl rfl (fun _ => rfl) rfl rfl rfl
    rw [exec_frameEnd_tile wire hr hd]
    exact ended.sendDecision.into
  | idle =>
    simp only [exec, execFrameEnd, wire]
    exact hs.into
  | control | status =>
    have ended : State.recordsInPlace { s with link := { s.link with wire := .idle } } := by
      refine hs.congr rfl (fun p => ?_) fun up => up
      cases p with
      | wire => simp [State.standing, wire, Wire.slots]
      | _ => rfl
    simp only [exec, execFrameEnd, State.endFrame, wire]
    exact ended.sendDecision.into

theorem execSet_inPlace (setting head : Byte) (value : BitVec 64) : leadsInPlace (execSet setting head value s) := by
  unfold execSet
  split
  · split
    · exact hs.of_eq.into
    · exact hs.of_eq.into
  · exact hs.into

theorem execApply_inPlace : leadsInPlace (execApply s) := by
  unfold execApply
  split
  · exact hs.of_eq.into
  · exact hs.into

theorem State.recordsInPlace.clearItem (item head : Byte) : (s.clearItem item head).recordsInPlace := by
  unfold State.clearItem
  repeat' split
  all_goals exact hs.of_eq rfl rfl rfl (fun _ => rfl) rfl rfl rfl

theorem execReadRequest_inPlace (id : BitVec 16) (item head flags : Byte) :
    leadsInPlace (execReadRequest id item head flags s) := by
  unfold execReadRequest
  split
  · extract_lets v cleared
    have inCleared : cleared.recordsInPlace := .ite (hs.clearItem item head) hs
    have offered : (cleared.offerAnswer id v.isSome (BitVec.ofNat 64 (v.getD 0))).recordsInPlace := inCleared.of_eq
    exact offered.sendDecision.into
  · exact hs.into

theorem execClear_inPlace (events : BitVec 16) : leadsInPlace (execClear events s) := by
  unfold execClear
  split
  · exact hs.of_eq.into
  · exact hs.into

theorem execResync_inPlace (head : Byte) : leadsInPlace (execResync head s) := by
  unfold execResync
  split
  · split
    · exact hs.of_eq.into
    · exact hs.into
  · exact hs.into

/-! ### The Input Relay -/

theorem execKeys_inPlace (modifiers : Byte) (codes : Table 6 Byte) : leadsInPlace (execKeys modifiers codes s) := by
  unfold execKeys
  split
  · extract_lets keys changed acted replaced
    have inActed : acted.recordsInPlace := .ite hs.of_eq hs
    have inReplaced : replaced.recordsInPlace := inActed.of_eq
    exact inReplaced.of_eq.into
  · exact hs.into

theorem execPointer_inPlace (x y : BitVec 16) (buttons wheel : Byte) :
    leadsInPlace (execPointer x y buttons wheel s) := by
  unfold execPointer
  split
  · extract_lets px py b moved pressed afterMotion afterButtons positioned
    have inMotion : afterMotion.recordsInPlace := .ite hs.of_eq hs
    have inButtons : afterButtons.recordsInPlace := .ite inMotion.of_eq inMotion
    have inPositioned : positioned.recordsInPlace := inButtons.of_eq
    exact inPositioned.of_eq.into
  · exact hs.into

theorem execInputFrameEnd_inPlace : leadsInPlace (execInputFrameEnd s) := by
  unfold execInputFrameEnd
  split
  · exact hs.into
  · exact hs.of_eq.into

theorem execLamp_inPlace (set : Byte) : leadsInPlace (execLamp set s) := by
  unfold execLamp
  extract_lets overrun received
  have inOverrun : overrun.recordsInPlace := .ite hs.of_eq hs
  have inReceived : received.recordsInPlace := inOverrun.of_eq
  have offered : (received.offerLamp set).recordsInPlace := inReceived.of_eq
  split
  · exact offered.sendDecision.into
  · exact inReceived.into

end

/-! ### Part reset -/

/-- After part reset every slot is FREE, every list empty and the wire idle. -/
theorem State.recordsInPlace_initial (p : Straps) (line ready : Bool) :
    (State.initial p line ready).recordsInPlace := by
  have standing : ∀ q, (State.initial p line ready).standing q = [] := by
    intro q
    cases q <;> simp [State.standing, State.initial, Budget.reset, HeadBudget.reset, Link.reset, Wire.slots]
  have free : ∀ i, (State.initial p line ready).slots.look i = none := fun i => by simp [State.initial]
  refine ⟨⟨fun i q => ?_, fun q => ?_, fun i r hr => ?_⟩, fun _ => standing .wire⟩
  · simp [standing, free]
  · rw [standing]
    exact List.nodup_nil
  · rw [free] at hr
    simp at hr

theorem execPartReset_inPlace (p : Straps) (line ready : Bool) (s : State) :
    leadsInPlace (execPartReset p line ready s) := by
  unfold execPartReset
  extract_lets _ fresh held
  have inFresh : fresh.recordsInPlace := (State.recordsInPlace_initial p line ready).of_eq
  have inHeld : held.recordsInPlace := .ite inFresh.assertMemoryReset inFresh
  exact inHeld.of_eq.into

/-! ### A step -/

/-- Each command goes on and keeps every record in its place. -/
theorem exec_inPlace (c : Instr) {s : State} (hs : s.recordsInPlace) : leadsInPlace (exec c s) := by
  cases c with
  | partReset p line ready => exact execPartReset_inPlace p line ready s
  | activate rank bank row => exact exec_rank_inPlace hs rfl
  | precharge rank bank => exact exec_rank_inPlace hs rfl
  | prechargeAll rank => exact exec_rank_inPlace hs rfl
  | write rank bank column chop => exact exec_rank_inPlace hs rfl
  | writeAutoPrecharge rank bank column chop => exact exec_rank_inPlace hs rfl
  | read rank bank column chop => exact exec_rank_inPlace hs rfl
  | readAutoPrecharge rank bank column chop => exact exec_rank_inPlace hs rfl
  | refresh rank => exact exec_rank_inPlace hs rfl
  | modeSet n v => exact execModeSet_inPlace hs n v
  | calibrate rank => exact hs.into
  | powerDownEntry rank => exact exec_rank_inPlace hs rfl
  | powerDownExit rank => exact exec_rank_inPlace hs rfl
  | selfRefreshEntry rank => exact exec_rank_inPlace hs rfl
  | selfRefreshExit rank => exact exec_rank_inPlace hs rfl
  | noOp => exact hs.into
  | memoryReset => exact hs.assertMemoryReset.into
  | memoryResetRelease => exact hs.of_eq.into
  | observedWrite o => exact execObservedWrite_inPlace hs o
  | observedRead o => exact execObservedRead_inPlace hs o
  | encodeCompletion => exact execEncodeCompletion_inPlace hs
  | stallTimerExpiry h => exact execStallTimerExpiry_inPlace hs h
  | tick => exact execTick_inPlace hs
  | epochEnd => exact execEpochEnd_inPlace hs
  | deferralAbandoned i => exact execDeferralAbandoned_inPlace hs i
  | overrideHoldExpiry => exact execOverrideHoldExpiry_inPlace hs
  | lanesAligned => exact execLanesAligned_inPlace hs
  | laneAlignmentLost lane => exact execLaneAlignmentLost_inPlace hs lane
  | helloRepeatTimerExpiry => exact execHelloRepeatTimerExpiry_inPlace hs
  | aligningTimerExpiry => exact execAligningTimerExpiry_inPlace hs
  | frameEnd => exact execFrameEnd_inPlace hs
  | hello version => exact execHello_inPlace hs version
  | keys modifiers codes => exact execKeys_inPlace hs modifiers codes
  | pointer x y buttons wheel => exact execPointer_inPlace hs x y buttons wheel
  | set setting head value => exact execSet_inPlace hs setting head value
  | apply => exact execApply_inPlace hs
  | readRequest id item head flags => exact execReadRequest_inPlace hs id item head flags
  | clear events => exact execClear_inPlace hs events
  | resync head => exact execResync_inPlace hs head
  | badUpstreamFrame defect => exact hs.of_eq.into
  | readyLevelRise => exact hs.of_eq.into
  | readyLevelFall => exact hs.of_eq.into
  | inputFrameEnd => exact execInputFrameEnd_inPlace hs
  | lamp set => exact execLamp_inPlace hs set
  | inputLineBadFrame defect => exact hs.of_eq.into

/-- A step keeps every record in its place. -/
theorem State.recordsInPlace.step {s t : State} (hs : s.recordsInPlace) (h : Machine.step s = .next t) :
    t.recordsInPlace := by
  unfold Machine.step at h
  split at h
  · obtain rfl := Host.Outcome.next.inj h
    exact hs.of_eq rfl rfl rfl (fun _ => rfl) rfl rfl rfl
  next c rest _ =>
    have popped : State.recordsInPlace { s with pending := rest } := hs.of_eq
    obtain ⟨u, hu, inPlace⟩ := exec_inPlace c popped
    obtain rfl := Host.Outcome.next.inj (h.symm.trans hu)
    exact inPlace

/-- Settles O59: a step is a chain of operations, each of which moves a slot from the list of its record's old state to
that of its new one, or moves none. -/
theorem recordsStayInPlace : Obligations.RecordsStayInPlace := fun _ _ slots tiles h =>
  State.recordsInPlace_iff.1 ((State.recordsInPlace_iff.2 ⟨slots, tiles⟩).step h)

end Sys2Proof.Machine
end

section
/-! SUPPORT. The quantiser (R104) and the reduced pixels (R103, R105). -/

namespace Sys2Proof.Machine

/-! ### Rounding to the nearest -/

/-- A channel's largest value is odd: one more than twice the half that R104 adds. -/
theorem two_pow_sub_one_odd {w : Nat} (positive : 1 ≤ w) : 2 ^ w - 1 = 2 * ((2 ^ w - 1) / 2) + 1 := by
  obtain ⟨n, rfl⟩ := Nat.exists_eq_add_of_le' positive
  have := Nat.two_pow_pos n
  omega

section
variable {w : Nat} (w' : Nat) (positive : 1 ≤ w)

include positive

theorem quantise_zero : quantise w w' 0 = 0 := by
  have odd := two_pow_sub_one_odd positive
  rw [quantise, Nat.zero_mul, Nat.zero_add]
  exact Nat.div_eq_of_lt (by omega)

theorem quantise_max : quantise w w' (2 ^ w - 1) = 2 ^ w' - 1 := by
  have odd := two_pow_sub_one_odd positive
  have largest : 0 < 2 ^ w - 1 := by omega
  rw [quantise, Nat.mul_add_div largest, Nat.div_eq_of_lt (by omega : (2 ^ w - 1) / 2 < 2 ^ w - 1), Nat.add_zero]

omit positive in
theorem quantise_mono {v u : Nat} (le : v ≤ u) : quantise w w' v ≤ quantise w w' u :=
  Nat.div_le_div_right (Nat.add_le_add_right (Nat.mul_le_mul_right _ le) _)

/-- Scaled up again the result is less than half a step from the scaled value, on either side. -/
theorem quantise_near (v : Nat) :
    2 * (quantise w w' v * (2 ^ w - 1)) < 2 * (v * (2 ^ w' - 1)) + (2 ^ w - 1) ∧
      2 * (v * (2 ^ w' - 1)) < 2 * (quantise w w' v * (2 ^ w - 1)) + (2 ^ w - 1) := by
  have odd := two_pow_sub_one_odd positive
  have below := Nat.div_mul_le_self (v * (2 ^ w' - 1) + (2 ^ w - 1) / 2) (2 ^ w - 1)
  have above := Nat.lt_div_mul_add (a := v * (2 ^ w' - 1) + (2 ^ w - 1) / 2) (by omega : 0 < 2 ^ w - 1)
  rw [← quantise] at below above
  generalize quantise w w' v * (2 ^ w - 1) = result at *
  generalize v * (2 ^ w' - 1) = scaled at *
  omega

/-- A value of the channel is reduced into the reduced range. -/
theorem quantise_lt {v : Nat} (channel : v < 2 ^ w) : quantise w w' v < 2 ^ w' := by
  have top := quantise_mono (w := w) w' (Nat.le_sub_one_of_lt channel)
  rw [quantise_max w' positive] at top
  have := Nat.two_pow_pos w'
  omega

end

/-! ### Reduced pixels -/

/-- Numbers below 256 are equal as bytes when they are equal. -/
theorem ofNat_byte_inj {m n : Nat} (hm : m < 256) (hn : n < 256) : BitVec.ofNat 8 m = BitVec.ofNat 8 n ↔ m = n := by
  rw [← BitVec.toNat_inj, BitVec.toNat_ofNat, BitVec.toNat_ofNat, Nat.mod_eq_of_lt hm, Nat.mod_eq_of_lt hn]

theorem quantise_byte_lt (v : Byte) : quantise 8 4 v.toNat < 16 := quantise_lt 4 (by decide) v.isLt

/-- Reduced F32 pixels are equal exactly when their quantised channels are (R105). -/
theorem reducedPixel32_eq_iff (b g r b' g' r' : Byte) : reducedPixel32 b g r = reducedPixel32 b' g' r' ↔
    quantise 8 4 b.toNat = quantise 8 4 b'.toNat ∧ quantise 8 4 g.toNat = quantise 8 4 g'.toNat ∧
      quantise 8 4 r.toNat = quantise 8 4 r'.toNat := by
  have hb := quantise_byte_lt b
  have hg := quantise_byte_lt g
  have hr := quantise_byte_lt r
  have hb' := quantise_byte_lt b'
  have hg' := quantise_byte_lt g'
  have hr' := quantise_byte_lt r'
  simp only [reducedPixel32, List.cons.injEq, and_true]
  rw [ofNat_byte_inj (by omega) (by omega), ofNat_byte_inj (by omega) (by omega)]
  omega

/-- The channels of a 16-bit pixel lie in 5, 6 and 5 bits (R103). -/
theorem channels16_lt (lo hi : Byte) : (lo.toNat + 256 * hi.toNat) % 32 < 2 ^ 5 ∧
    (lo.toNat + 256 * hi.toNat) / 32 % 64 < 2 ^ 6 ∧ (lo.toNat + 256 * hi.toNat) / 2048 < 2 ^ 5 := by
  have := lo.isLt
  have := hi.isLt
  omega

/-- Reduced F16 pixels are equal exactly when their quantised channels are (R105). -/
theorem reducedPixel16_eq_iff (lo hi lo' hi' : Byte) :
    let v := lo.toNat + 256 * hi.toNat
    let v' := lo'.toNat + 256 * hi'.toNat
    reducedPixel16 lo hi = reducedPixel16 lo' hi' ↔
      quantise 5 2 (v % 32) = quantise 5 2 (v' % 32) ∧
      quantise 6 3 (v / 32 % 64) = quantise 6 3 (v' / 32 % 64) ∧
      quantise 5 3 (v / 2048) = quantise 5 3 (v' / 2048) := by
  dsimp only
  obtain ⟨blue, green, red⟩ := channels16_lt lo hi
  obtain ⟨blue', green', red'⟩ := channels16_lt lo' hi'
  have hb := quantise_lt 2 (by decide) blue
  have hg := quantise_lt 3 (by decide) green
  have hr := quantise_lt 3 (by decide) red
  have hb' := quantise_lt 2 (by decide) blue'
  have hg' := quantise_lt 3 (by decide) green'
  have hr' := quantise_lt 3 (by decide) red'
  simp only [reducedPixel16, List.cons.injEq, and_true]
  rw [ofNat_byte_inj (by omega) (by omega)]
  omega

/-- Settles O34: the rounding holds for all widths from 1 up, and the digits of a reduced pixel are its channels. -/
theorem quantiserRounds : Obligations.QuantiserRounds := by
  refine ⟨fun w w' widths => ?_, reducedPixel32_eq_iff, reducedPixel16_eq_iff⟩
  have positive : 1 ≤ w := by
    simp only [List.mem_cons, Prod.mk.injEq, List.not_mem_nil, or_false] at widths
    omega
  exact ⟨quantise_zero w' positive, quantise_max w' positive, fun _ _ => quantise_mono w',
    fun v _ => ⟨rfl, quantise_near w' positive v⟩⟩

end Sys2Proof.Machine
end

section
/-! SUPPORT. The bytes that leave the part: downstream frames (R142, R168, R170, TABLE 46), input-line frames (R155, R171,
TABLE 49) and what each lane carries of a frame (R138, log 18). -/

namespace Sys2Proof.Machine

/-! ### Downstream frames -/

/-- A frame of one byte field. -/
@[simp] theorem littleEndian_one (v : Nat) : littleEndian 1 v = [BitVec.ofNat 8 v] := by simp [littleEndian]

theorem littleEndian_partNumber : littleEndian 2 742 = [0xE6, 0x02] := by decide

/-- A list filled up to a length that it does not exceed. -/
theorem take_append_replicate {α : Type} {l : List α} {n : Nat} (fits : l.length ≤ n) (x : α) :
    (l ++ List.replicate n x).take n = l ++ List.replicate (n - l.length) x := by
  rw [List.take_append, List.take_of_length_le fits, List.take_replicate, Nat.min_eq_left (Nat.sub_le ..)]

/-- The id places of a HEAD frame: the ids, and 0xFF for each of three that is not used (R170). -/
theorem idPlaces_eq {ids : List (Fin 16)} (three : ids.length ≤ 3) :
    idPlaces ids = ids.map (fun i => BitVec.ofNat 8 i.1) ++ List.replicate (3 - ids.length) 0xFF := by
  have fill := take_append_replicate (l := ids.map fun i => BitVec.ofNat 8 i.1) (n := 3) (by simpa using three) (0xFF : Byte)
  rwa [List.length_map] at fill

section
variable {s : State}

theorem State.wireBytes_control {f : ControlFrame} (wire : s.link.wire = .control f) : s.wireBytes = f.bytes := by
  simp only [State.wireBytes, wire]

theorem State.wireBytes_tile {i : Fin 64} {r : Record} (wire : s.link.wire = .tile i) (hr : s.slots.look i = some r) :
    s.wireBytes = r.tileFrame := by
  simp only [State.wireBytes, wire, hr]

end

theorem PixelFormat.code_byte (f : PixelFormat) : BitVec.ofNat 8 f.code = if f = .f32 then 1 else 2 := by
  cases f <;> rfl

theorem Code.number_eq (c : Code) : c.number = if c = .exact then 0 else 1 := by cases c <;> rfl

theorem CodedForms.payload_eq (f : CodedForms) (c : Code) :
    f.payload c = if c = .exact then f.exact else f.reduced := by cases c <;> rfl

/-- The HEAD frame of a head over a geometry. -/
theorem HeadFrame.bytes_on (h : Fin 4) (st : HeadState) {ids : List (Fin 16)} (g : Geometry) (p : Nat)
    (three : ids.length ≤ 3) :
    ({ head := h, state := st, flipSet := ids, geometry := some g, period := p } : HeadFrame).bytes =
      withCheck ([0x03, BitVec.ofNat 8 h.1, BitVec.ofNat 8 st.code, BitVec.ofNat 8 ids.length]
        ++ ids.map (fun i => BitVec.ofNat 8 i.1) ++ List.replicate (3 - ids.length) 0xFF ++ littleEndian 2 g.width
        ++ littleEndian 2 g.height ++ [if g.format = .f32 then 1 else 2, BitVec.ofNat 8 g.tileColumns,
          BitVec.ofNat 8 g.tileRows] ++ littleEndian 4 p) := by
  simp [HeadFrame.bytes, idPlaces_eq three, geometryBytes, PixelFormat.code_byte]

/-- The HEAD frame of an OFF head. -/
theorem HeadFrame.bytes_off (h : Fin 4) :
    ({ head := h, state := .off, flipSet := [], geometry := none, period := 0 } : HeadFrame).bytes =
      withCheck ([0x03, BitVec.ofNat 8 h.1, 0, 0, 0xFF, 0xFF, 0xFF] ++ List.replicate 11 0) := by
  simp [HeadFrame.bytes, idPlaces, geometryBytes, HeadState.code, littleEndian]

/-- The TILE frame of a record with its payloads and its decision (R111). -/
theorem Record.tileFrame_of_decided {r : Record} {c : CodedForms} {d : Decision} (coded : r.coded = some c)
    (decided : r.decision = some d) :
    let payload := if d.code = .exact then c.exact else c.reduced
    r.tileFrame = withCheck ([0x02, BitVec.ofNat 8 r.head.1, BitVec.ofNat 8 r.column, BitVec.ofNat 8 r.row,
      if d.code = .exact then 0 else 1, if r.format = .f32 then 1 else 2] ++ littleEndian 2 payload.length
        ++ payload) := by
  simp only [Record.tileFrame, coded, decided, Code.number_eq, PixelFormat.code_byte, CodedForms.payload_eq]

/-! ### Input-line frames -/

theorem State.lineBytes_sending {s : State} {f : InputFrame} (sending : s.relay.sending = some f) :
    s.lineBytes = lineFrame f.payload.1 f.payload.2 := by
  simp only [State.lineBytes, sending, InputFrame.bytes]

/-- A KEYBOARD frame of at most six keys has all of them, and 0 in the places not used (R171). -/
theorem InputFrame.payload_keyboard (m : Byte) {keys : List Byte} (w : Bool) (six : keys.length ≤ 6) :
    ({ entry := .keyboard m keys, lost := w } : InputFrame).payload =
      (0x01, [m, 0] ++ keys ++ List.replicate (6 - keys.length) 0) := by
  have fill := take_append_replicate six (0 : Byte)
  simp only [InputFrame.payload, List.cons_append, List.nil_append, List.take_succ_cons, fill]

/-! ### Lanes -/

/-- Two places on, a byte falls to the same lane. -/
theorem laneBytes_shift (lane k : Nat) (f : List Byte) :
    ((f.zipIdx (k + 2)).filter fun b => b.2 % 2 == lane).map (·.1) =
      ((f.zipIdx k).filter fun b => b.2 % 2 == lane).map (·.1) := by
  induction f generalizing k with
  | nil => rfl
  | cons a f ih =>
    have later := ih (k + 1)
    rw [Nat.add_right_comm] at later
    simp only [List.zipIdx_cons, List.filter_cons, Nat.add_mod_right]
    split
    · rw [List.map_cons, List.map_cons, later]
    · exact later

theorem laneBytes_first_cons (a b : Byte) (f : List Byte) : laneBytes 2 0 (a :: b :: f) = a :: laneBytes 2 0 f :=
  congrArg (a :: ·) (laneBytes_shift 0 0 f)

theorem laneBytes_second_cons (a b : Byte) (f : List Byte) : laneBytes 2 1 (a :: b :: f) = b :: laneBytes 2 1 f :=
  congrArg (b :: ·) (laneBytes_shift 1 0 f)

/-- One lane carries every byte. -/
theorem laneBytes_single (f : List Byte) : laneBytes 1 0 f = f := by
  simp [laneBytes, Nat.mod_one]

/-- Lane 0 of two carries the bytes of even number. -/
theorem laneBytes_first (f : List Byte) : (laneBytes 2 0 f).length = (f.length + 1) / 2 ∧
    ∀ n, 2 * n < f.length → (laneBytes 2 0 f)[n]? = f[2 * n]? := by
  induction f using List.twoStepInduction with
  | nil => exact ⟨rfl, fun n within => absurd within (Nat.not_lt_zero _)⟩
  | singleton a => exact ⟨by simp [laneBytes], fun n within => by
      obtain rfl : n = 0 := by simp only [List.length_singleton] at within; omega
      rfl⟩
  | cons_cons a b f ih _ =>
    obtain ⟨length, bytes⟩ := ih
    rw [laneBytes_first_cons]
    refine ⟨by simp only [List.length_cons, length]; omega, fun n within => ?_⟩
    cases n with
    | zero => rfl
    | succ n => exact bytes n (by simp only [List.length_cons] at within; omega)

/-- Lane 1 of two carries the bytes of odd number. -/
theorem laneBytes_second (f : List Byte) : (laneBytes 2 1 f).length = f.length / 2 ∧
    ∀ n, 2 * n + 1 < f.length → (laneBytes 2 1 f)[n]? = f[2 * n + 1]? := by
  induction f using List.twoStepInduction with
  | nil => exact ⟨rfl, fun n within => absurd within (Nat.not_lt_zero _)⟩
  | singleton a => exact ⟨by simp [laneBytes], fun n within => by simp at within⟩
  | cons_cons a b f ih _ =>
    obtain ⟨length, bytes⟩ := ih
    rw [laneBytes_second_cons]
    refine ⟨by simp only [List.length_cons, length]; omega, fun n within => ?_⟩
    cases n with
    | zero => rfl
    | succ n => exact bytes n (by simp only [List.length_cons] at within; omega)

/-- The data bits of a byte stand between its start bit and its stop bit (R155). -/
theorem lineBits_data (b : Byte) {k : Nat} (data : k < 8) : (lineBits b)[k + 1]? = some (b.getLsbD k) := by
  simp [lineBits, data, List.getElem?_append_left]

/-- Settles O49: the frame on the wire and on the line by its kind, the lanes two bytes at a time, and a byte's bits. -/
theorem outboundBytes : Obligations.OutboundBytes := by
  refine ⟨fun _ _ => rfl, fun s => ?_, fun s => ?_, fun f => ?_, fun b => ⟨rfl, rfl, rfl, fun _ => lineBits_data b⟩⟩
  · intro framed byte
    refine ⟨fun idle => ?_, fun n wire => ?_, fun _ wire => State.wireBytes_control wire, fun _ wire => ?_,
      fun _ _ _ wire => State.wireBytes_control wire, fun h st ids g p three wire => ?_,
      fun h wire => (State.wireBytes_control wire).trans (HeadFrame.bytes_off h),
      fun i r c d wire hr coded decided =>
        (State.wireBytes_tile wire hr).trans (Record.tileFrame_of_decided coded decided)⟩
    · simp only [State.wireBytes, idle]
    · rw [State.wireBytes_control wire, ControlFrame.bytes, littleEndian_one, littleEndian_partNumber]
      rfl
    · simp only [State.wireBytes, wire]
      rfl
    · refine (State.wireBytes_control wire).trans ((HeadFrame.bytes_on h st g p three).trans ?_)
      cases st <;> rfl
  · refine ⟨fun idle => ?_, fun m keys w six sending => ?_, fun x y b v w sending => State.lineBytes_sending sending,
      fun w => ⟨fun sending => State.lineBytes_sending sending, fun slot g o sending => ?_,
        fun up sending => State.lineBytes_sending sending⟩⟩
    · simp only [State.lineBytes, idle]
    · have eight : ([m, 0] ++ keys ++ List.replicate (6 - keys.length) 0).length = 8 := by
        simp only [List.length_append, List.length_cons, List.length_nil, List.length_replicate]
        omega
      rw [State.lineBytes_sending sending, InputFrame.payload_keyboard m w six, lineFrame, eight]
      rfl
    · refine (State.lineBytes_sending sending).trans ?_
      cases o <;> rfl
  · obtain ⟨evenLength, even⟩ := laneBytes_first f
    obtain ⟨oddLength, odd⟩ := laneBytes_second f
    exact ⟨laneBytes_single f, evenLength, oddLength, even, odd⟩

end Sys2Proof.Machine
end

section
/-! SUPPORT. The tokeniser over a list of pixels (R106 to R108): its runs are runs of places of the tile, and its tokens
tile the list, each of the kind that the two runs at its first place name. -/

namespace Sys2Proof.Machine

/-! ### Runs -/

/-- The places from the first on that meet `q`, at most `n` of them, counted by place instead of by element. -/
theorem length_takeWhile_range {α : Type} (q : α → Bool) (l : List α) (n : Nat) :
    ((List.range (min n l.length)).takeWhile fun k => l[k]?.any q).length = min n (l.takeWhile q).length := by
  induction l generalizing n with
  | nil => simp
  | cons a l ih =>
    cases n with
    | zero => simp
    | succ n =>
      rw [List.length_cons, Nat.add_min_add_right, List.range_succ_eq_map, List.takeWhile_cons, List.takeWhile_cons]
      cases ha : q a with
      | false => simp [ha]
      | true =>
        simp only [List.getElem?_cons_zero, Option.any_some, ha, if_true, List.length_cons, Nat.add_min_add_right,
          List.takeWhile_map, List.length_map]
        exact congrArg (· + 1) (ih n)

theorem takeWhile_congr_mem {α : Type} {p q : α → Bool} {l : List α} (agree : ∀ a ∈ l, p a = q a) :
    l.takeWhile p = l.takeWhile q := by
  induction l with
  | nil => rfl
  | cons a l ih =>
    rw [List.takeWhile_cons, List.takeWhile_cons, agree a List.mem_cons_self,
      ih fun b hb => agree b (List.mem_cons_of_mem _ hb)]

theorem runOf_le (limit : Nat) (ok : Nat → Bool) (i : Nat) : runOf limit ok i ≤ limit := by
  simpa [runOf] using (List.takeWhile_sublist fun k => ok (i + k)).length_le (l₂ := List.range limit)

/-- Each place of a run meets its condition. -/
theorem runOf_holds {limit : Nat} {ok : Nat → Bool} {i k : Nat} (inside : k < runOf limit ok i) : ok (i + k) = true := by
  have first := List.mem_takeWhile_imp (List.getElem_mem inside)
  have place := (List.takeWhile_prefix fun k => ok (i + k)).getElem inside
  rwa [place, List.getElem_range] at first

/-- A run of the elements from place `i` of a list on, as a run of its places. -/
theorem length_takeWhile_drop {α : Type} {q : α → Bool} {l : List α} {ok : Nat → Bool} {i : Nat} (n : Nat)
    (agree : ∀ j a, l[j]? = some a → i ≤ j → q a = ok j) :
    min n ((l.drop i).takeWhile q).length = runOf (min n (l.length - i)) ok i := by
  rw [← length_takeWhile_range, List.length_drop]
  refine congrArg List.length (takeWhile_congr_mem fun k within => ?_)
  have inside : i + k < l.length := by
    rw [List.mem_range] at within
    omega
  rw [List.getElem?_drop, List.getElem?_eq_getElem inside, Option.any_some]
  exact agree _ _ (List.getElem?_eq_getElem inside) (Nat.le_add_right ..)

/-! ### The positions of a tile -/

section
variable {tw : Nat} {ps : List Pixel}

@[simp] theorem map_fst_positions : (positions tw ps).map (·.1) = ps :=
  List.map_fst_zip (by simp)

@[simp] theorem length_positions : (positions tw ps).length = ps.length := by
  rw [← List.length_map (·.1), map_fst_positions]

/-- The position at place `j`: its pixel, and the pixel one row before it. -/
theorem getElem?_positions (j : Nat) :
    (positions tw ps)[j]? = ps[j]?.map fun x => (x, if tw ≤ j then ps[j - tw]? else none) := by
  by_cases inside : j < ps.length
  · have above : (List.replicate tw none ++ ps.map some)[j]? = some (if tw ≤ j then ps[j - tw]? else none) := by
      by_cases row : tw ≤ j
      · have before : j - tw < ps.length := by omega
        rw [List.getElem?_append_right (by simpa using row)]
        simp [row, before]
      · have first : j < (List.replicate tw (none : Option Pixel)).length := by simpa using row
        rw [List.getElem?_append_left first, List.getElem?_eq_getElem first, List.getElem_replicate, if_neg row]
    have here := List.getElem?_eq_getElem inside
    rw [here, Option.map_some]
    exact List.getElem?_zip_eq_some.2 ⟨here, above⟩
  · have outside := Nat.le_of_not_lt inside
    rw [List.getElem?_eq_none (by simpa using outside), List.getElem?_eq_none outside]
    rfl

end

/-- The run above at place `i`: the places there that hold the pixel one row before (R107). -/
def aboveRun (tw : Nat) (ps : List Pixel) (i : Nat) : Nat :=
  runOf (min 64 (ps.length - i)) (fun j => decide (tw ≤ j) && ps[j]? == ps[j - tw]?) i

/-- The run of the same pixel at place `i` (R107). -/
def sameRun (ps : List Pixel) (i : Nat) : Nat := runOf (min 64 (ps.length - i)) (fun j => ps[j]? == ps[i]?) i

section
variable {tw : Nat} {ps : List Pixel} {i : Nat}

theorem aboveRun_le : aboveRun tw ps i ≤ 64 ∧ aboveRun tw ps i ≤ ps.length - i := le_min_iff.1 (runOf_le ..)

theorem sameRun_le : sameRun ps i ≤ 64 ∧ sameRun ps i ≤ ps.length - i := le_min_iff.1 (runOf_le ..)

theorem aboveRun_holds {k : Nat} (inside : k < aboveRun tw ps i) : tw ≤ i + k ∧ ps[i + k]? = ps[i + k - tw]? := by
  simpa using runOf_holds inside

theorem sameRun_holds {k : Nat} (inside : k < sameRun ps i) : ps[i + k]? = ps[i]? := by
  simpa using runOf_holds inside

theorem runAbove_drop (tw : Nat) (ps : List Pixel) (i : Nat) :
    runAbove ((positions tw ps).drop i) = aboveRun tw ps i := by
  rw [aboveRun, ← length_positions (tw := tw), runAbove]
  refine length_takeWhile_drop 64 fun j a here _ => ?_
  rw [getElem?_positions] at here
  obtain ⟨x, hx, rfl⟩ := Option.map_eq_some_iff.1 here
  by_cases row : tw ≤ j
  · simp [Position.sameAsAbove, row, hx, BEq.comm]
  · simp [Position.sameAsAbove, row]

theorem runSame_drop (tw : Nat) (ps : List Pixel) (i : Nat) :
    runSame ((positions tw ps).drop i) = sameRun ps i := by
  rw [sameRun, ← length_positions (tw := tw)]
  cases rest : (positions tw ps).drop i with
  | nil =>
    rw [Nat.sub_eq_zero_of_le (List.drop_eq_nil_iff.1 rest)]
    rfl
  | cons p more =>
    have first : ps[i]? = some p.1 := by
      rw [← map_fst_positions (tw := tw) (ps := ps), List.getElem?_map, ← List.head?_drop, rest]
      rfl
    rw [runSame, ← rest]
    refine length_takeWhile_drop 64 fun j a here _ => ?_
    rw [getElem?_positions] at here
    obtain ⟨x, hx, rfl⟩ := Option.map_eq_some_iff.1 here
    simp [first, hx]

end

/-! ### The tokens -/

/-- Where a LITERAL of `m` pixels that reaches up to place `j` ends (R108 step 3). -/
def LiteralEnds (tw : Nat) (ps : List Pixel) (m j : Nat) : Prop :=
  m = 64 ∨ j = ps.length ∨ 2 ≤ aboveRun tw ps j ∨ 2 ≤ sameRun ps j

/-- The token at place `i` (R108): ABOVE, SAME or LITERAL by the two runs there. -/
inductive TokenAt (tw : Nat) (ps : List Pixel) (i : Nat) : Token → Prop
  | above (two : 2 ≤ aboveRun tw ps i) (longest : sameRun ps i ≤ aboveRun tw ps i) :
      TokenAt tw ps i (.above (aboveRun tw ps i))
  | same {x : Pixel} (notAbove : ¬ (2 ≤ aboveRun tw ps i ∧ sameRun ps i ≤ aboveRun tw ps i))
      (two : 2 ≤ sameRun ps i) (first : ps[i]? = some x) : TokenAt tw ps i (.same (sameRun ps i) x)
  | literal {m : Nat} (notAbove : ¬ (2 ≤ aboveRun tw ps i ∧ sameRun ps i ≤ aboveRun tw ps i))
      (notSame : sameRun ps i < 2) (one : 1 ≤ m) (most : m ≤ 64) (inside : i + m ≤ ps.length)
      (ends : LiteralEnds tw ps m (i + m)) (before : ∀ n, 1 ≤ n → n < m → ¬ LiteralEnds tw ps n (i + n)) :
      TokenAt tw ps i (.literal ((ps.drop i).take m))

/-- Tokens that cover the places from `i` to the end once each, in order, each the token at its first place. -/
inductive Tiling (tw : Nat) (ps : List Pixel) : Nat → List Token → Prop
  | done : Tiling tw ps ps.length []
  | token {i : Nat} {t : Token} {ts : List Token} (here : TokenAt tw ps i t) (later : Tiling tw ps (i + t.length) ts) :
      Tiling tw ps i (t :: ts)

section
variable {tw : Nat} {ps : List Pixel} {i : Nat}

theorem length_literal {m : Nat} (inside : i + m ≤ ps.length) : ((ps.drop i).take m).length = m := by
  rw [List.length_take, List.length_drop]
  omega

/-- A token covers from 1 to 64 places, none of them past the end (R108). -/
theorem TokenAt.length_bounds {t : Token} (here : TokenAt tw ps i t) :
    1 ≤ t.length ∧ t.length ≤ 64 ∧ i + t.length ≤ ps.length := by
  cases here with
  | above two _ =>
    obtain ⟨most, inside⟩ := aboveRun_le (tw := tw) (ps := ps) (i := i)
    simp only [Token.length]
    omega
  | same _ two _ =>
    obtain ⟨most, inside⟩ := sameRun_le (ps := ps) (i := i)
    simp only [Token.length]
    omega
  | literal _ _ one most inside _ _ =>
    simp only [Token.length, length_literal inside]
    exact ⟨one, most, inside⟩

/-- What a LITERAL takes past its first pixels: it stops at the first place that R108 names. -/
theorem literalMore_spec {rest : List Position} (taken j : Nat) (suffix : (positions tw ps).drop j = rest)
    (most : taken ≤ 64) (inside : j ≤ ps.length) :
    let m := literalMore taken rest
    taken + m ≤ 64 ∧ j + m ≤ ps.length ∧ LiteralEnds tw ps (taken + m) (j + m) ∧
      ∀ n, n < m → ¬ LiteralEnds tw ps (taken + n) (j + n) := by
  induction rest generalizing taken j with
  | nil =>
    have atEnd : ps.length ≤ j := by simpa using List.drop_eq_nil_iff.1 suffix
    exact ⟨most, inside, .inr (.inl (Nat.le_antisymm inside atEnd)), fun n none => absurd none (Nat.not_lt_zero _)⟩
  | cons p more ih =>
    have within : j < ps.length := by
      have some := congrArg List.length suffix
      rw [List.length_drop, length_positions, List.length_cons] at some
      omega
    have stop : (64 ≤ taken ∨ 2 ≤ runAbove (p :: more) ∨ 2 ≤ runSame (p :: more)) ↔ LiteralEnds tw ps taken j := by
      rw [← suffix, runAbove_drop, runSame_drop, LiteralEnds]
      omega
    rw [literalMore]
    by_cases ends : LiteralEnds tw ps taken j
    · rw [if_pos (stop.2 ends)]
      exact ⟨most, inside, ends, fun n none => absurd none (Nat.not_lt_zero _)⟩
    · rw [if_neg (mt stop.1 ends)]
      have taken_lt : taken ≠ 64 := fun full => ends (.inl full)
      have next : (positions tw ps).drop (j + 1) = more := by rw [← List.drop_drop, suffix]; rfl
      obtain ⟨most', inside', ends', before⟩ := ih (taken + 1) (j + 1) next (by omega) within
      rw [Nat.add_right_comm, Nat.add_right_comm j] at ends'
      refine ⟨by omega, by omega, ends', fun n hn => ?_⟩
      cases n with
      | zero => exact ends
      | succ n =>
        have later := before n (by omega)
        rwa [Nat.add_right_comm, Nat.add_right_comm j] at later

/-- The tokeniser takes the token at its place, and counts the places that it covers. -/
theorem nextToken_spec {p : Position} {more : List Position} (suffix : (positions tw ps).drop i = p :: more) :
    TokenAt tw ps i (nextToken p more).1 ∧ (nextToken p more).2 = (nextToken p more).1.length := by
  have pixels : (p :: more).map (·.1) = ps.drop i := by rw [← suffix, List.map_drop, map_fst_positions]
  have within : i < ps.length := by
    have some := congrArg List.length pixels
    rw [List.length_drop, List.length_map, List.length_cons] at some
    omega
  have first : ps[i]? = some p.1 := by rw [← List.head?_drop, ← pixels]; rfl
  have next : (positions tw ps).drop (i + 1) = more := by rw [← List.drop_drop, suffix]; rfl
  simp only [nextToken]
  rw [← suffix, runAbove_drop, runSame_drop]
  by_cases isAbove : 2 ≤ aboveRun tw ps i ∧ sameRun ps i ≤ aboveRun tw ps i
  · rw [if_pos isAbove]
    exact ⟨.above isAbove.1 isAbove.2, rfl⟩
  · rw [if_neg isAbove]
    by_cases isSame : 2 ≤ sameRun ps i
    · rw [if_pos isSame]
      exact ⟨.same isAbove isSame first, rfl⟩
    · rw [if_neg isSame, List.map_take, suffix, pixels]
      obtain ⟨most, inside, ends, before⟩ := literalMore_spec 1 (i + 1) next (by omega) within
      have reach (n : Nat) : 1 + n = n + 1 ∧ i + 1 + n = i + (n + 1) := by omega
      rw [(reach _).1, (reach _).2] at ends
      rw [(reach _).2] at inside
      refine ⟨.literal isAbove (by omega) (by omega) (by omega) inside ends fun n one less => ?_,
        (length_literal inside).symm⟩
      obtain ⟨n, rfl⟩ := Nat.exists_eq_add_of_le' one
      have earlier := before n (by omega)
      rwa [(reach n).1, (reach n).2] at earlier

/-- With fuel for every place that remains, the tokens tile them. -/
theorem tiling_tokens {fuel : Nat} (inside : i ≤ ps.length) (enough : ps.length - i ≤ fuel) :
    Tiling tw ps i (tokens fuel ((positions tw ps).drop i)) := by
  induction fuel generalizing i with
  | zero =>
    obtain rfl : i = ps.length := by omega
    exact .done
  | succ fuel ih =>
    cases rest : (positions tw ps).drop i with
    | nil =>
      have atEnd : ps.length ≤ i := by simpa using List.drop_eq_nil_iff.1 rest
      obtain rfl : i = ps.length := Nat.le_antisymm inside atEnd
      exact .done
    | cons p more =>
      obtain ⟨here, covers⟩ := nextToken_spec rest
      obtain ⟨one, -, reach⟩ := here.length_bounds
      refine .token here ?_
      rw [← rest, List.drop_drop, covers]
      exact ih reach (by omega)

end

/-- The tokens of a list of pixels tile it (R108). -/
theorem tiling_positions (tw : Nat) (ps : List Pixel) : Tiling tw ps 0 (tokens ps.length (positions tw ps)) :=
  tiling_tokens (Nat.zero_le _) (Nat.sub_le ..)

end Sys2Proof.Machine
end

section
/-! SUPPORT. The desk reads a payload back (R109, 06 "How the desk reads a payload"): its bytes parse into the tokens, and
the tokens expand to the pixels. -/

namespace Sys2Proof.Machine

/-! ### The bytes parse into the tokens -/

/-- A token that the payload format can spell with pixels of size `p`: its length fits in 6 bits. -/
def Token.Spells (p : Nat) (t : Token) : Prop :=
  1 ≤ t.length ∧ t.length ≤ 64 ∧
    match t with
    | .literal l => ∀ x ∈ l, x.length = p
    | .same _ x => x.length = p
    | .above _ => True

/-- A token byte has the kind and the length of its token. -/
theorem tokenByte_fields {kind n : Nat} (three : kind < 3) (one : 1 ≤ n) (most : n ≤ 64) :
    (tokenByte kind n).toNat / 64 = kind ∧ (tokenByte kind n).toNat % 64 + 1 = n := by
  rw [tokenByte, BitVec.toNat_ofNat]
  omega

/-- Pixels of one size, one after another, are read back one by one. -/
theorem chunks_flatten {p : Nat} {l : List Pixel} (size : ∀ x ∈ l, x.length = p) (rest : List Byte) :
    ((List.range l.length).map fun k => ((l.flatten ++ rest).drop (k * p)).take p) = l ∧
      (l.flatten ++ rest).drop (l.length * p) = rest := by
  induction l with
  | nil => simp
  | cons x l ih =>
    obtain ⟨pixels, after⟩ := ih fun y hy => size y (List.mem_cons_of_mem _ hy)
    have first : x.length = p := size x List.mem_cons_self
    have skip (k : Nat) : (x ++ (l.flatten ++ rest)).drop ((k + 1) * p) = (l.flatten ++ rest).drop (k * p) := by
      rw [Nat.succ_mul, Nat.add_comm, ← List.drop_drop, ← first, List.drop_left]
    rw [List.flatten_cons, List.append_assoc, List.length_cons, skip, List.range_succ_eq_map, List.map_cons,
      List.map_map]
    refine ⟨?_, after⟩
    simp only [Function.comp_def, Nat.succ_eq_add_one, skip, pixels, Nat.zero_mul, List.drop_zero]
    rw [← first, List.take_left]

/-- The desk reads a token's bytes as that token and goes on behind them. -/
theorem deskTokens_token {p : Nat} {t : Token} (spells : t.Spells p) (fuel : Nat) (rest : List Byte) :
    deskTokens (fuel + 1) p (t.bytes ++ rest) = t :: deskTokens fuel p rest := by
  obtain ⟨one, most, size⟩ := spells
  cases t with
  | literal l =>
    obtain ⟨kind, length⟩ := tokenByte_fields (kind := 0) (by omega) one most
    obtain ⟨pixels, after⟩ := chunks_flatten size rest
    simp only [Token.length] at kind length
    simp only [Token.bytes, List.cons_append, deskTokens, kind, length, pixels, after]
  | same n x =>
    obtain ⟨kind, length⟩ := tokenByte_fields (kind := 1) (by omega) one most
    simp only [Token.length] at kind length
    simp only [Token.bytes, List.cons_append, deskTokens, kind, length]
    rw [← size, List.take_left, List.drop_left]
  | above n =>
    obtain ⟨kind, length⟩ := tokenByte_fields (kind := 2) (by omega) one most
    simp only [Token.length] at kind length
    simp only [Token.bytes, List.cons_append, List.nil_append, deskTokens, kind, length]

theorem Token.bytes_length_pos (t : Token) : 1 ≤ t.bytes.length := by
  cases t <;> exact Nat.le_add_left ..

/-- With fuel for every byte, the desk reads back the tokens that spell them. -/
theorem deskTokens_bytes {p fuel : Nat} {ts : List Token} (spell : ∀ t ∈ ts, t.Spells p)
    (enough : (ts.flatMap Token.bytes).length ≤ fuel) : deskTokens fuel p (ts.flatMap Token.bytes) = ts := by
  induction ts generalizing fuel with
  | nil => cases fuel <;> rfl
  | cons t ts ih =>
    have pos := t.bytes_length_pos
    rw [List.flatMap_cons, List.length_append] at enough
    obtain ⟨fuel, rfl⟩ : ∃ k, fuel = k + 1 := Nat.exists_eq_add_of_le' (by omega)
    rw [List.flatMap_cons, deskTokens_token (spell t List.mem_cons_self),
      ih (fun u hu => spell u (List.mem_cons_of_mem _ hu)) (by omega)]

/-! ### The tokens expand to the pixels -/

section
variable {tw p i : Nat} {ps : List Pixel}

theorem TokenAt.spells {t : Token} (here : TokenAt tw ps i t) (size : ∀ x ∈ ps, x.length = p) : t.Spells p := by
  obtain ⟨one, most, -⟩ := here.length_bounds
  refine ⟨one, most, ?_⟩
  cases here with
  | above _ _ => trivial
  | same _ _ first => exact size _ (List.mem_of_getElem? first)
  | literal _ _ _ _ _ _ _ => exact fun x hx => size x (List.mem_of_mem_drop (List.mem_of_mem_take hx))

theorem Tiling.spells {ts : List Token} (tiles : Tiling tw ps i ts) (size : ∀ x ∈ ps, x.length = p) :
    ∀ t ∈ ts, t.Spells p := by
  induction tiles with
  | done => exact fun t none => absurd none List.not_mem_nil
  | token here _ ih => exact List.forall_mem_cons.2 ⟨here.spells size, ih⟩

/-- A SAME's pixel, as often as its run is long, is what stands there. -/
theorem replicate_sameRun {x : Pixel} (first : ps[i]? = some x) :
    List.replicate (sameRun ps i) x = (ps.drop i).take (sameRun ps i) := by
  obtain ⟨-, inside⟩ := sameRun_le (ps := ps) (i := i)
  refine List.ext_getElem? fun k => ?_
  by_cases hk : k < sameRun ps i
  · rw [List.getElem?_take_of_lt hk, List.getElem?_drop, sameRun_holds hk, first, List.getElem?_replicate, if_pos hk]
  · rw [List.getElem?_eq_none (by simpa using hk), List.getElem?_eq_none (by simp; omega)]

/-- Within an ABOVE's run the pixel one row back, repeated place by place, is what stands there. -/
theorem repeatAbove_take (row : 1 ≤ tw) {n : Nat} (run : n ≤ aboveRun tw ps i) :
    (List.range n).foldl (fun d _ => d ++ [d.getD (d.length - tw) []]) (ps.take i) = ps.take (i + n) := by
  induction n with
  | zero => rfl
  | succ n ih =>
    obtain ⟨below, same⟩ := aboveRun_holds run
    obtain ⟨-, within⟩ := aboveRun_le (tw := tw) (ps := ps) (i := i)
    have inside : i + n < ps.length := by omega
    have length : (ps.take (i + n)).length = i + n := by rw [List.length_take, Nat.min_eq_left inside.le]
    have back : (ps.take (i + n)).getD (i + n - tw) [] = ps[i + n] := by
      rw [List.getD_eq_getElem?_getD, List.getElem?_take_of_lt (by omega), ← same, List.getElem?_eq_getElem inside]
      rfl
    rw [List.range_succ, List.foldl_append, ih (by omega), List.foldl_cons, List.foldl_nil, length, back,
      ← Nat.add_assoc, List.take_succ_eq_append_getElem inside]

/-- With the pixels before it rebuilt, a token adds those that it covers. -/
theorem TokenAt.rebuild {t : Token} (here : TokenAt tw ps i t) (row : 1 ≤ tw) (rest : List Token) :
    rebuildPixels tw (t :: rest) (ps.take i) = rebuildPixels tw rest (ps.take (i + t.length)) := by
  cases here with
  | above _ _ => rw [rebuildPixels, repeatAbove_take row (Nat.le_refl _), Token.length]
  | same _ _ first => rw [rebuildPixels, replicate_sameRun first, ← List.take_add, Token.length]
  | literal _ _ _ _ inside _ _ => rw [rebuildPixels, ← List.take_add, Token.length, length_literal inside]

theorem Tiling.rebuild {ts : List Token} (tiles : Tiling tw ps i ts) (row : 1 ≤ tw) :
    rebuildPixels tw ts (ps.take i) = ps := by
  induction tiles with
  | done => exact List.take_length
  | token here _ ih => rw [here.rebuild row, ih]

end

/-- Settles O33: the bytes parse into the tokens, and the tokens, which tile the list, expand to it. -/
theorem deskRebuildsTheTile : Obligations.DeskRebuildsTheTile := by
  intro tw p ps row _ size
  have tiles := tiling_positions tw ps
  rw [payloadOf, deskTokens_bytes (tiles.spells size) (Nat.le_refl _)]
  exact tiles.rebuild row

end Sys2Proof.Machine
end

section
/-! SUPPORT. The pixels of a record and the size of its payload (R102, R103, R105, R106, R110). -/

namespace Sys2Proof.Machine

/-! ### Pixels -/

section
variable {r : Record} {c : Code}

/-- A pixel is as many bytes as its code has (06 section 6.3). -/
theorem Record.length_pixelAt (x l : Nat) : (r.pixelAt c x l).length = pixelSize r.format c := by
  unfold Record.pixelAt
  cases r.format <;> cases c <;> rfl

theorem Record.length_pixelList : (r.pixelList c).length = r.th * r.tw :=
  length_flatMap_range _ fun _ _ => by simp

/-- The pixels stand row after row (R106). -/
theorem Record.getElem?_pixelList {x l : Nat} (column : x < r.tw) (row : l < r.th) :
    (r.pixelList c)[l * r.tw + x]? = some (r.pixelAt c x l) := by
  rw [Record.pixelList, getElem?_flatMap_range (fun _ _ => by simp) row column]
  simp [column]

theorem Record.length_of_mem_pixelList {x : Pixel} (hx : x ∈ r.pixelList c) : x.length = pixelSize r.format c := by
  simp only [Record.pixelList, List.mem_flatMap, List.mem_map] at hx
  obtain ⟨l, -, k, -, rfl⟩ := hx
  exact r.length_pixelAt k l

end

/-! ### Tokens and their bytes -/

/-- A token's bytes, the kind code written out (10 section 10.3). -/
theorem Token.bytes_eq (t : Token) : t.bytes = match t with
    | .literal l => BitVec.ofNat 8 (l.length - 1) :: l.flatten
    | .same n x => BitVec.ofNat 8 (64 + (n - 1)) :: x
    | .above n => [BitVec.ofNat 8 (128 + (n - 1))] := by
  cases t with
  | literal l => simp only [Token.bytes, tokenByte, Nat.zero_mul, Nat.zero_add]
  | same n x => rfl
  | above n => rfl

/-- A token takes at most a byte and a pixel's bytes for each pixel that it covers (R110). -/
theorem Token.Spells.length_bytes_le {p : Nat} {t : Token} (spells : t.Spells p) :
    t.bytes.length ≤ t.length * (1 + p) := by
  obtain ⟨one, -, size⟩ := spells
  cases t with
  | literal l =>
    have flat : l.flatten.length = l.length * p := by
      rw [List.length_flatten, List.sum_eq_card_nsmul _ p (by simpa using size)]
      simp
    simp only [Token.length] at one
    simp only [Token.bytes, Token.length, List.length_cons, flat, Nat.mul_add]
    omega
  | same n x =>
    simp only [Token.length] at one
    simp only [Token.bytes, Token.length, List.length_cons, size]
    calc p + 1 = 1 * (1 + p) := by omega
      _ ≤ n * (1 + p) := Nat.mul_le_mul_right _ one
  | above n => exact Nat.le_trans one (Nat.le_mul_of_pos_right _ (by omega))

section
variable {tw p i : Nat} {ps : List Pixel} {ts : List Token}

/-- The tokens cover what remains once each. -/
theorem Tiling.sum_length (tiles : Tiling tw ps i ts) : i + (ts.map Token.length).sum = ps.length := by
  induction tiles with
  | done => rfl
  | token _ _ ih => rwa [List.map_cons, List.sum_cons, ← Nat.add_assoc]

theorem Tiling.length_bounds (tiles : Tiling tw ps i ts) : ∀ t ∈ ts, 1 ≤ t.length ∧ t.length ≤ 64 := by
  induction tiles with
  | done => exact fun t none => absurd none List.not_mem_nil
  | token here _ ih =>
    obtain ⟨one, most, -⟩ := here.length_bounds
    exact List.forall_mem_cons.2 ⟨⟨one, most⟩, ih⟩

/-- Each token is the token at the place where the ones before it end. -/
theorem Tiling.tokenAt (tiles : Tiling tw ps i ts) {k : Nat} {t : Token} (hk : ts[k]? = some t) :
    TokenAt tw ps (i + ((ts.take k).map Token.length).sum) t := by
  induction tiles generalizing k with
  | done => exact absurd hk (by simp)
  | token here _ ih =>
    cases k with
    | zero =>
      obtain rfl := Option.some.inj hk
      exact here
    | succ k =>
      have later := ih (k := k) hk
      rwa [Nat.add_assoc] at later

/-- The bytes of tokens with pixels of size `p` (R110). -/
theorem Tiling.length_bytes_le (tiles : Tiling tw ps i ts) (size : ∀ x ∈ ps, x.length = p) :
    (ts.flatMap Token.bytes).length ≤ (ts.map Token.length).sum * (1 + p) := by
  induction tiles with
  | done => simp
  | token here _ ih =>
    rw [List.flatMap_cons, List.length_append, List.map_cons, List.sum_cons, Nat.add_mul]
    exact Nat.add_le_add (here.spells size).length_bytes_le ih

end

/-- N pixels of size `p` take a payload of at most N * (1 + p) bytes (R110). -/
theorem length_payloadOf_le (tw : Nat) {p : Nat} {ps : List Pixel} (size : ∀ x ∈ ps, x.length = p) :
    (payloadOf tw ps).length ≤ ps.length * (1 + p) := by
  have tiles := tiling_positions tw ps
  have covered := tiles.sum_length
  rw [Nat.zero_add] at covered
  have bytes := tiles.length_bytes_le size
  rwa [covered] at bytes

/-- A record's payload, for a tile of at most 32 by 32 pixels (R110, TABLE 24). -/
theorem Record.length_payload_le {r : Record} (c : Code) (columns : r.tw ≤ 32) (rows : r.th ≤ 32) :
    (r.payload c).length ≤ 32 * 32 * (1 + pixelSize r.format c) := by
  have bytes := length_payloadOf_le r.tw (ps := r.pixelList c) fun _ => Record.length_of_mem_pixelList
  rw [Record.length_pixelList] at bytes
  exact bytes.trans (Nat.mul_le_mul_right _ (Nat.mul_le_mul rows columns))

/-- Settles O32: the pixels block by block, the tokens as a tiling of the list, and the sizes from the two. -/
theorem tokensCoverTheTile : Obligations.TokensCoverTheTile := by
  refine ⟨fun r c => ⟨Record.length_pixelList, rfl, fun x l column row => ?_⟩, fun tw p ps => ?_,
    fun r columns rows => ?_⟩
  · refine (Record.getElem?_pixelList column row).trans (congrArg some ?_)
    unfold Record.pixelAt
    cases r.format with
    | f32 =>
      cases c with
      | exact => rfl
      | reduced => simp only [reducedPixel32, quantise, Nat.mul_comm]
    | f16 =>
      cases c with
      | exact => rfl
      | reduced => simp only [reducedPixel16, quantise, Nat.mul_comm]
  · have tiles := tiling_positions tw ps
    have covered := tiles.sum_length
    rw [Nat.zero_add] at covered
    refine ⟨fun k t hk => ?_, ?_, covered, tiles.length_bounds, length_payloadOf_le tw⟩
    · have here := tiles.tokenAt hk
      rw [Nat.zero_add] at here
      cases here with
      | above two longest =>
        exact ⟨fun _ _ => rfl, fun notAbove => absurd ⟨two, longest⟩ notAbove,
          fun notAbove => absurd ⟨two, longest⟩ notAbove⟩
      | same notAbove two first =>
        exact ⟨fun two longest => absurd ⟨two, longest⟩ notAbove, fun _ _ => ⟨_, first, rfl⟩,
          fun _ one => absurd two (Nat.not_le_of_lt one)⟩
      | literal notAbove notSame one most inside ends before =>
        exact ⟨fun two longest => absurd ⟨two, longest⟩ notAbove, fun _ two => absurd two (Nat.not_le_of_lt notSame),
          fun _ _ => ⟨_, one, ends, before, rfl⟩⟩
    · exact congrArg (List.flatMap · _) (funext Token.bytes_eq)
  · have exactSize := r.length_payload_le .exact columns rows
    have reducedSize := r.length_payload_le .reduced columns rows
    refine ⟨fun format => ?_, fun format => ?_⟩
    · rw [format] at exactSize reducedSize
      exact ⟨exactSize, reducedSize⟩
    · rw [format] at exactSize reducedSize
      exact ⟨exactSize, reducedSize⟩

end Sys2Proof.Machine
end

end

section
-- One after another, as the theorems of the sections before this one, for the same limit.
set_option Elab.async false

section
/-! SUPPORT. Credits and caps (R127, R128): an operation leaves a head's budget alone, or changes its lists and counts,
or spends credit, or divides the budget anew, and each keeps the credit within the cap. -/

namespace Sys2Proof.Machine

/-- The credit lies within the cap, and the cap is that of the share (R127, R128). -/
def HeadBudget.capped (b : HeadBudget) : Prop := b.credit ≤ b.cap ∧ b.cap = max (4 * b.share) 8192

/-- From `s` to `t` a head whose credit lay within its cap keeps it there. -/
def State.KeepsCaps (s t : State) : Prop := ∀ h, (s.budget.heads.look h).capped → (t.budget.heads.look h).capped

/-! ### One head's budget -/

/-- A budget that only spends credit. -/
theorem HeadBudget.capped.spend {b c : HeadBudget} (hb : b.capped) (share : c.share = b.share) (cap : c.cap = b.cap)
    (credit : c.credit ≤ b.credit) : c.capped := by
  obtain ⟨within, max⟩ := hb
  exact ⟨cap ▸ credit.trans within, by rw [cap, share, max]⟩

/-- A new share brings its cap, and the credit down to it. -/
theorem HeadBudget.capped_withShare (b : HeadBudget) (share : Nat) : (b.withShare share).capped :=
  ⟨Nat.min_le_right _ _, rfl⟩

/-- A refill stops at the cap. -/
theorem HeadBudget.capped.refilled {b : HeadBudget} (hb : b.capped) (on : Bool) : (b.refilled on).capped := by
  cases on with
  | false => exact hb
  | true => exact ⟨Nat.min_le_right _ _, hb.2⟩

theorem HeadBudget.capped_reset : HeadBudget.reset.capped := ⟨Nat.zero_le _, rfl⟩

/-! ### The relation -/

namespace State.KeepsCaps

variable {s t u : State}

theorem refl (s : State) : s.KeepsCaps s := fun _ => id

theorem trans (h : s.KeepsCaps t) (k : t.KeepsCaps u) : s.KeepsCaps u := fun q => k q ∘ h q

/-- A change of anything but the heads' budgets. -/
theorem of_eq (h : t.budget.heads = s.budget.heads := by simp) : s.KeepsCaps t := fun q => by
  rw [h]
  exact id

/-- Before an operation such a change does no harm. -/
theorem after (k : t.KeepsCaps u) (h : t.budget.heads = s.budget.heads := by simp) : s.KeepsCaps u :=
  (of_eq h).trans k

/-- Nor does it after an operation. -/
theorem before (k : s.KeepsCaps t) (h : u.budget.heads = t.budget.heads := by simp) : s.KeepsCaps u :=
  k.trans (of_eq h)

theorem ite {c : Prop} {_ : Decidable c} (h : s.KeepsCaps t) (k : s.KeepsCaps u) :
    s.KeepsCaps (if c then t else u) := by
  split
  · exact h
  · exact k

theorem foldl {α : Type} {f : State → α → State} (h : ∀ (v : State) a, v.KeepsCaps (f v a)) (l : List α)
    (s : State) : s.KeepsCaps (l.foldl f s) :=
  List.foldlRecOn (motive := s.KeepsCaps) l f (refl s) fun v hv a _ => hv.trans (h v a)

theorem forSlots {f : Fin 64 → State → State} (h : ∀ i (v : State), v.KeepsCaps (f i v)) (s : State) :
    s.KeepsCaps (s.forSlots f) := foldl (fun v i => h i v) allSlots s

theorem forHeads {f : Fin 4 → State → State} (h : ∀ i (v : State), v.KeepsCaps (f i v)) (s : State) :
    s.KeepsCaps (s.forHeads f) := foldl (fun v i => h i v) allHeads s

/-- One head's budget keeps its share and cap, and gains no credit. -/
theorem updBudget (s : State) (h : Fin 4) (f : HeadBudget → HeadBudget)
    (share : ∀ b, (f b).share = b.share := by intro; rfl) (cap : ∀ b, (f b).cap = b.cap := by intro; rfl)
    (credit : ∀ b, (f b).credit ≤ b.credit := by intro; exact Nat.le_refl _) : s.KeepsCaps (s.updBudget h f) := by
  intro q capped
  rw [State.updBudget_heads, Table.look_upd]
  split
  next own => exact (own ▸ capped).spend (share _) (cap _) (credit _)
  next => exact capped

end State.KeepsCaps

theorem State.offerHead_keepsCaps (s : State) (h : Fin 4) : s.KeepsCaps (s.offerHead h) := .of_eq

theorem State.raise_keepsCaps (s : State) (e : Event) : s.KeepsCaps (s.raise e) := .of_eq

theorem State.sendDecision_keepsCaps (s : State) : s.KeepsCaps s.sendDecision := .of_eq

/-! ### Withdrawals (R62 to R65) -/

theorem State.dropDeferred_keepsCaps (s : State) (h : Fin 4) (i : Fin 64) : s.KeepsCaps (s.dropDeferred h i) :=
  .updBudget s h _

theorem State.withdrawSlot_keepsCaps (s : State) (i : Fin 64) : s.KeepsCaps (s.withdrawSlot i) := by
  unfold State.withdrawSlot
  split
  · exact .refl s
  next r _ =>
    split
    case h_3 => exact (s.dropDeferred_keepsCaps r.head i).before
    all_goals exact .of_eq

theorem State.withdrawWhere_keepsCaps (s : State) (p : Record → Bool) : s.KeepsCaps (s.withdrawWhere p) := by
  refine .forSlots (fun i v => ?_) s
  split
  · exact .ite (v.withdrawSlot_keepsCaps i) (.refl v)
  · exact .refl v

theorem State.withdrawAtLinkLoss_keepsCaps (s : State) : s.KeepsCaps s.withdrawAtLinkLoss := by
  refine .forSlots (fun i v => ?_) s
  split
  · exact .ite .of_eq (v.withdrawSlot_keepsCaps i)
  · exact .refl v

/-! ### The encode decision and deferral (R130 to R135) -/

theorem State.charge_keepsCaps (s : State) (h : Fin 4) (i : Fin 64) (d : Decision) : s.KeepsCaps (s.charge h i d) :=
  (State.KeepsCaps.updBudget s h (fun b => { b with credit := b.credit - d.frameSize })
    (credit := fun _ => Nat.sub_le _ _)).before (congrArg Budget.heads (s.charge_budget h i d))

theorem State.addDemand_keepsCaps (s : State) (h : Fin 4) (n : Nat) : s.KeepsCaps (s.addDemand h n) :=
  .updBudget s h _

theorem State.defer_keepsCaps (s : State) (h : Fin 4) (i : Fin 64) (f : CodedForms) : s.KeepsCaps (s.defer h i f) := by
  unfold State.defer
  extract_lets deferred
  have toDeferred : s.KeepsCaps deferred := .of_eq rfl
  have joined : deferred.KeepsCaps (deferred.updBudget h fun b => { b with deferred := b.deferred ++ [i] }) :=
    .updBudget deferred h _
  exact toDeferred.trans (joined.trans (State.addDemand_keepsCaps _ h _))

theorem State.encodeDecision_keepsCaps (s : State) (i : Fin 64) (r : Record) (f : CodedForms) :
    s.KeepsCaps (s.encodeDecision i r f) := by
  unfold State.encodeDecision
  refine .ite (s.defer_keepsCaps r.head i f) ?_
  split
  · exact (s.addDemand_keepsCaps r.head _).trans (State.charge_keepsCaps _ r.head i _)
  · exact s.defer_keepsCaps r.head i f

theorem State.finishEncoding_keepsCaps (s : State) (i : Fin 64) : s.KeepsCaps (s.finishEncoding i) := by
  unfold State.finishEncoding
  split
  · exact .ite .of_eq (.after (State.encodeDecision_keepsCaps _ i _ _))
  · exact .refl s

theorem State.abandonDeferral_keepsCaps (s : State) (i : Fin 64) (r : Record) : s.KeepsCaps (s.abandonDeferral i r) :=
  (s.dropDeferred_keepsCaps r.head i).before (by simp [State.abandonDeferral])

theorem State.freeDeferredRefines_keepsCaps (s : State) (h : Fin 4) : s.KeepsCaps (s.freeDeferredRefines h) := by
  refine .foldl (fun v i => ?_) _ s
  split
  next r _ => exact .ite ((v.dropDeferred_keepsCaps r.head i).before rfl) (.refl v)
  next => exact .refl v

theorem State.tryDeferred_keepsCaps (s : State) (h : Fin 4) (l : List (Fin 64)) : s.KeepsCaps (s.tryDeferred h l) := by
  induction l generalizing s with
  | nil => exact .refl s
  | cons i l ih =>
    rw [State.tryDeferred]
    repeat' split
    next d _ => exact ((s.dropDeferred_keepsCaps h i).trans (State.charge_keepsCaps _ h i d)).trans (ih _)
    all_goals exact .refl s

theorem State.ageDeferred_keepsCaps (s : State) (i : Fin 64) : s.KeepsCaps (s.ageDeferred i) := by
  unfold State.ageDeferred
  split
  · exact .ite (s.abandonDeferral_keepsCaps i _) .of_eq
  · exact .refl s

theorem State.reevaluate_keepsCaps (s : State) (h : Fin 4) : s.KeepsCaps (s.reevaluate h) := by
  unfold State.reevaluate
  exact ((State.KeepsCaps.ite (s.freeDeferredRefines_keepsCaps h) (.refl s)).trans
    (State.tryDeferred_keepsCaps _ h _)).trans (.foldl (fun v i => v.ageDeferred_keepsCaps i) _ _)

/-! ### Shares, refill and the tick (R117, R123, R124, R128) -/

theorem State.formDemands_keepsCaps (s : State) : s.KeepsCaps s.formDemands := fun h capped => by
  rw [State.formDemands, Table.look_tab]
  exact capped.spend rfl rfl (Nat.le_refl _)

theorem State.recomputeShares_keepsCaps (s : State) : s.KeepsCaps s.recomputeShares := fun h _ => by
  rw [State.recomputeShares, Table.look_tab]
  exact HeadBudget.capped_withShare _ _

theorem State.refill_keepsCaps (s : State) : s.KeepsCaps s.refill := fun h capped => by
  rw [State.refill, Table.look_tab]
  exact capped.refilled (s.isOn h)

theorem State.tickBudget_keepsCaps (s : State) : s.KeepsCaps s.tickBudget := by
  unfold State.tickBudget
  extract_lets applied afterApply ends formed divided _ cleared
  have toApplied : s.KeepsCaps afterApply := .ite .of_eq (.refl s)
  have toFormed : afterApply.KeepsCaps formed := .ite afterApply.formDemands_keepsCaps (.refl afterApply)
  have toDivided : formed.KeepsCaps divided := .ite formed.recomputeShares_keepsCaps (.refl formed)
  have toCleared : divided.KeepsCaps cleared := .of_eq rfl
  exact (toApplied.trans toFormed).trans ((toDivided.trans toCleared).trans cleared.refill_keepsCaps)

theorem State.takeTick_keepsCaps (s : State) : s.KeepsCaps s.takeTick := by
  unfold State.takeTick
  extract_lets reached _ ticked divided evaluated
  have toReached : s.KeepsCaps reached := .of_eq (by simp only [reached, State.reachTime_frame])
  have toTicked : s.KeepsCaps ticked := toReached.before rfl
  have toEvaluated : divided.KeepsCaps evaluated := .forHeads (fun h v => v.reevaluate_keepsCaps h) divided
  exact ((toTicked.trans ticked.tickBudget_keepsCaps).trans toEvaluated).before (by simp)

/-! ### The Channel Follower -/

theorem State.testFollowing_keepsCaps (s : State) : s.KeepsCaps s.testFollowing := by
  unfold State.testFollowing State.enterFollowing State.blindMarking
  have marked : s.KeepsCaps (State.markEverySurface { s with channel := { s.channel with following := .following } }) :=
    .of_eq rfl
  exact .ite ((marked.trans (State.withdrawWhere_keepsCaps _ _)).trans (State.raise_keepsCaps _ _)) (.refl s)

theorem State.takeBlind_keepsCaps {s : State} (a : Anomaly) {effect : State → State} (y : Beyond) (counted : Bool)
    (he : s.KeepsCaps (effect s)) : s.KeepsCaps (s.takeBlind a effect y counted) := by
  have flagged : s.KeepsCaps (State.flagged a y counted (effect s)) := by
    rw [State.flagged_eq]
    exact he.before rfl
  rw [State.takeBlind_eq]
  exact .ite flagged (flagged.trans (State.testFollowing_keepsCaps _))

/-- A command taken by the follower keeps the caps when its effect does. -/
theorem State.takeCommand_keepsCaps {s : State} (a : Anomaly) {effect : State → State} (y : Beyond)
    (he : s.KeepsCaps (effect s)) : s.KeepsCaps (s.takeCommand a effect y) := by
  unfold State.takeCommand
  split
  · exact .ite he.before he
  · exact State.takeBlind_keepsCaps a y _ he
  · exact State.takeBlind_keepsCaps a y _ he

theorem State.assertMemoryReset_keepsCaps (s : State) : s.KeepsCaps s.assertMemoryReset := by
  rw [State.assertMemoryReset_eq]
  exact .of_eq

/-! ### Descriptors (R38 to R45) -/

theorem State.redeclare_keepsCaps (s : State) (id : Fin 16) (old f : Surface) : s.KeepsCaps (s.redeclare id old f) := by
  unfold State.redeclare
  extract_lets withdrawn declared
  have toWithdrawn : s.KeepsCaps withdrawn := s.withdrawWhere_keepsCaps _
  have toDeclared : s.KeepsCaps declared := toWithdrawn.before (by simp only [declared, State.declare])
  split
  next => exact toDeclared
  next h _ =>
    extract_lets shown lost
    have hidden : declared.KeepsCaps (declared.loseShown h) := by
      rw [State.loseShown_eq]
      have hidden : declared.KeepsCaps (declared.hideShown h) := .of_eq (by simp only [State.hideShown])
      exact hidden.trans (State.offerHead_keepsCaps _ h)
    have toLost : s.KeepsCaps lost := .ite (toDeclared.trans hidden) toDeclared
    have regrown : lost.KeepsCaps (lost.regrow h f.geometry shown) := by
      rw [State.regrow_eq]
      have reshaped : lost.KeepsCaps (lost.reshapeHead h f.geometry) := .of_eq (by simp only [State.reshapeHead])
      exact .ite reshaped (reshaped.trans (State.offerHead_keepsCaps _ h))
    exact .ite (toLost.trans regrown) toLost

/-- The budget of a head that comes or goes (R122 to R124, R129). -/
theorem State.rebudget_keepsCaps (s : State) (h : Fin 4) (fresh : Bool) : s.KeepsCaps (s.rebudget h fresh) := by
  have cleared : s.KeepsCaps (s.updBudget h HeadBudget.cleared) := .updBudget s h _ (credit := fun _ => Nat.zero_le _)
  exact (State.KeepsCaps.ite (cleared.trans (State.recomputeShares_keepsCaps _)) (.refl s)).before rfl

theorem State.disown_keepsCaps (s : State) (ids : List (Fin 16)) : s.KeepsCaps (s.disown ids) :=
  (s.withdrawWhere_keepsCaps fun r => ids.contains r.surface).before (by
    simp only [State.disown, State.setOwners_frame, State.withdrawFlipSet])

theorem State.applyDescriptor_keepsCaps (s : State) (d : DescriptorSlot) : s.KeepsCaps (s.applyDescriptor d) := by
  unfold State.applyDescriptor
  split
  · unfold State.takeSurface
    split
    · exact .refl s
    · split
      · exact .of_eq rfl
      · exact s.redeclare_keepsCaps _ _ _
  · unfold State.takeHead
    split
    · exact .refl s
    next h ids _ =>
      rw [State.defineHead_eq]
      have enlisted : s.KeepsCaps ((s.disown (s.heads.look h).flipSet).enlist h ids) :=
        (s.disown_keepsCaps (s.heads.look h).flipSet).before
      exact (enlisted.trans (State.offerHead_keepsCaps _ h)).trans (State.rebudget_keepsCaps _ h _)
  · unfold State.takeWithdrawSurface
    split
    · exact .refl s
    · exact .of_eq
  · unfold State.takeWithdrawHead
    split
    · exact .refl s
    next h _ =>
      rw [State.removeHead_eq]
      have vacated : s.KeepsCaps ((s.disown (s.heads.look h).flipSet).vacate h) := (s.disown_keepsCaps _).before rfl
      exact .ite ((vacated.trans (State.offerHead_keepsCaps _ h)).trans (State.rebudget_keepsCaps _ h _)) (.refl s)
  · exact .refl s

theorem State.writeSlot_keepsCaps (s : State) (i : Fin 16) (off : Nat) (bytes : List (Nat × Byte)) :
    s.KeepsCaps (s.writeSlot i off bytes) := by
  unfold State.writeSlot State.conclude
  extract_lets d written o applied stored noticed
  have toWritten : s.KeepsCaps written := .of_eq rfl
  have toApplied : s.KeepsCaps applied := .ite (toWritten.trans (written.applyDescriptor_keepsCaps d)) toWritten
  have toNoticed : s.KeepsCaps noticed := toApplied.before rfl
  exact .ite ((State.KeepsCaps.ite toNoticed (toNoticed.trans (State.raise_keepsCaps _ _))).trans
    (State.sendDecision_keepsCaps _)) toWritten

/-! ### Observed writes and reads -/

/-- The command goes on, and keeps the caps. -/
def State.capsKeptBy (s : State) (o : Host.Outcome State Fault Refusal) : Prop := ∃ t, o = .next t ∧ s.KeepsCaps t

theorem State.KeepsCaps.into {s t : State} (h : s.KeepsCaps t) : s.capsKeptBy (.next t) := ⟨t, rfl, h⟩

theorem State.capsKeptBy_self (s : State) : s.capsKeptBy (.next s) := (State.KeepsCaps.refl s).into

/-- A command that leaves the heads' budgets alone. -/
theorem State.capsKeptBy_of_eq {s t : State} (h : t.budget.heads = s.budget.heads := by simp) :
    s.capsKeptBy (.next t) := (State.KeepsCaps.of_eq h).into

theorem execObservedWrite_keepsCaps (o : WriteCompletion) (s : State) : s.capsKeptBy (execObservedWrite o s) := by
  unfold execObservedWrite
  split
  next => exact s.capsKeptBy_self
  next b _ =>
    extract_lets _ taken bytes
    have toTaken : s.KeepsCaps taken := .of_eq rfl
    split
    · have tracked : taken.KeepsCaps (taken.trackWrite b.address bytes) := by
        unfold State.trackWrite
        split
        · exact .of_eq
        · exact .refl taken
      exact (toTaken.trans (.ite (taken.writeSlot_keepsCaps _ _ bytes) tracked)).into
    · exact toTaken.into

/-- A frame start withdraws the records of the surface no longer shown; the rest leaves the budget (R72, R73). -/
theorem State.frameStart_keepsCaps (s : State) (h : Fin 4) (id : Fin 16) (xb : Nat) (data : List Byte) :
    s.KeepsCaps (s.frameStart h id xb data) := by
  rw [State.frameStart_eq]
  have abandoned : s.KeepsCaps (s.abandonWhere fun r => r.head == h) := .of_eq
  have cleared : s.KeepsCaps (s.clearFrame h id) := abandoned.trans (State.withdrawWhere_keepsCaps _ _)
  have entered : (s.clearFrame h id).KeepsCaps ((s.clearFrame h id).enterFrame h id (s.frameAnnounces h)
      ((s.scans.look h).measured s.budget.now) s.budget.now) := by
    unfold State.enterFrame
    extract_lets shows
    have toShows : (s.clearFrame h id).KeepsCaps shows := .of_eq (by simp [shows])
    have toAnnounced : (s.clearFrame h id).KeepsCaps (if s.frameAnnounces h then shows.offerHead h else shows) :=
      .ite (toShows.trans (shows.offerHead_keepsCaps h)) toShows
    exact toAnnounced.before
  exact (cleared.trans entered).before

theorem State.takeRead_keepsCaps (s : State) (g : Nat) (data : List Byte) : s.KeepsCaps (s.takeRead g data) := by
  unfold State.takeRead
  repeat' split
  · exact .refl s
  · exact .refl s
  · exact .refl s
  · dsimp only
    split
    · exact (s.frameStart_keepsCaps _ _ _ _).trans (State.sendDecision_keepsCaps _)
    · exact .of_eq
    · exact .of_eq

theorem execObservedRead_keepsCaps (o : ReadCompletion) (s : State) : s.capsKeptBy (execObservedRead o s) := by
  unfold execObservedRead
  split
  next => exact s.capsKeptBy_self
  next b _ =>
    extract_lets _ taken
    have toTaken : s.KeepsCaps taken := .of_eq rfl
    split
    · exact (toTaken.trans (taken.takeRead_keepsCaps b.address _)).into
    · exact toTaken.into

/-! ### The commands -/

theorem execEncodeCompletion_keepsCaps (s : State) : s.capsKeptBy (execEncodeCompletion s) := by
  unfold execEncodeCompletion
  split
  next i _ =>
    have idle : s.KeepsCaps (s.finishEncoding i).idleEncoder := (s.finishEncoding_keepsCaps i).before rfl
    exact (idle.before (u := (s.finishEncoding i).idleEncoder.startEncoder)).into
  next => exact s.capsKeptBy_self

theorem execEpochEnd_keepsCaps (s : State) : s.capsKeptBy (execEpochEnd s) := by
  unfold execEpochEnd
  extract_lets formed
  have shares : s.KeepsCaps formed := s.formDemands_keepsCaps.trans s.formDemands.recomputeShares_keepsCaps
  exact State.KeepsCaps.into (shares.before rfl)

theorem execDeferralAbandoned_keepsCaps (i : Fin 64) (s : State) : s.capsKeptBy (execDeferralAbandoned i s) := by
  unfold execDeferralAbandoned
  split
  next r _ =>
    split
    · exact (s.abandonDeferral_keepsCaps i r).into
    · exact s.capsKeptBy_self
  next => exact s.capsKeptBy_self

theorem execLaneAlignmentLost_keepsCaps (lane : Fin 2) (s : State) : s.capsKeptBy (execLaneAlignmentLost lane s) := by
  unfold execLaneAlignmentLost
  split
  · extract_lets _ lost
    have toLost : s.KeepsCaps lost := .of_eq rfl
    have left : lost.KeepsCaps lost.leaveUp := lost.withdrawAtLinkLoss_keepsCaps.before (by simp [State.leaveUp])
    split
    · exact toLost.into
    · exact State.KeepsCaps.into (toLost.before rfl)
    · exact (toLost.trans left).into
  · exact s.capsKeptBy_self

/-- A rank command, taken or not. -/
theorem exec_rank_keepsCaps {c : Instr} {n : Nat} (hc : c.rank? = some n) (s : State) : s.capsKeptBy (exec c s) := by
  by_cases cal : c = .calibrate n
  · subst cal
    exact s.capsKeptBy_self
  cases line : s.memoryResetLine with
  | true =>
    rw [exec_held line (.inl (hc ▸ Option.some_ne_none n))]
    exact s.capsKeptBy_self
  | false =>
    by_cases present : n < s.straps.rankCount
    · have two : n < 2 := Nat.lt_of_lt_of_le present (rankCount_le_two s.straps)
      have taken : c.takenBy ⟨n, two⟩ s := ⟨hc, cal, present, line⟩
      rw [exec_of_takenBy taken]
      exact (State.takeCommand_keepsCaps _ _ (.of_eq rfl)).into
    · obtain ⟨missing, -, -⟩ := commandsWithoutEffect
      rw [missing c n s hc (Nat.not_lt.1 present)]
      exact s.capsKeptBy_self

theorem execModeSet_keepsCaps (n : Fin 4) (v : BitVec 16) (s : State) : s.capsKeptBy (exec (.modeSet n v) s) := by
  cases line : s.memoryResetLine with
  | true =>
    rw [exec_held line (.inr (.inr ⟨n, v, rfl⟩))]
    exact s.capsKeptBy_self
  | false =>
    rw [exec_modeSet line]
    exact (State.takeCommand_keepsCaps _ _ (.of_eq rfl)).into

/-- After part reset every credit is 0 and every cap that of share 0 (R122, R127). -/
theorem execPartReset_keepsCaps (p : Straps) (line ready : Bool) (s : State) :
    s.capsKeptBy (execPartReset p line ready s) := by
  unfold execPartReset
  extract_lets _ fresh held
  have inFresh : s.KeepsCaps fresh := fun h _ => by
    change ((Table.const HeadBudget.reset).look h).capped
    rw [Table.look_const]
    exact HeadBudget.capped_reset
  have toHeld : fresh.KeepsCaps held := .ite fresh.assertMemoryReset_keepsCaps (.refl fresh)
  exact State.KeepsCaps.into ((inFresh.trans toHeld).before rfl)

/-! The commands that leave the heads' budgets alone. -/

theorem execStallTimerExpiry_keepsCaps (h : Fin 4) (s : State) : s.capsKeptBy (execStallTimerExpiry h s) := by
  unfold execStallTimerExpiry
  split
  · exact s.capsKeptBy_self
  · dsimp only
    split
    · exact State.capsKeptBy_of_eq
    · rw [State.stallHead_eq]
      exact State.capsKeptBy_of_eq (by simp [State.haltHead])
    · exact State.capsKeptBy_of_eq

theorem execOverrideHoldExpiry_keepsCaps (s : State) : s.capsKeptBy (execOverrideHoldExpiry s) := by
  unfold execOverrideHoldExpiry
  split
  · exact s.capsKeptBy_self
  · exact State.capsKeptBy_of_eq

theorem execLanesAligned_keepsCaps (s : State) : s.capsKeptBy (execLanesAligned s) := by
  unfold execLanesAligned
  split
  · exact State.capsKeptBy_of_eq
  · exact s.capsKeptBy_self

theorem execHelloRepeatTimerExpiry_keepsCaps (s : State) : s.capsKeptBy (execHelloRepeatTimerExpiry s) := by
  unfold execHelloRepeatTimerExpiry
  split
  · exact State.capsKeptBy_of_eq
  · exact s.capsKeptBy_self

theorem execAligningTimerExpiry_keepsCaps (s : State) : s.capsKeptBy (execAligningTimerExpiry s) := by
  unfold execAligningTimerExpiry
  split
  · exact State.capsKeptBy_of_eq (by simp [State.leaveAligning])
  · exact s.capsKeptBy_self

theorem State.enterUp_keepsCaps (s : State) : s.KeepsCaps s.enterUp := by
  unfold State.enterUp
  extract_lets _ up _ cleared marked heads status _ tested lamp notice
  have toCleared : s.KeepsCaps cleared := .of_eq rfl
  have toMarked : s.KeepsCaps marked := toCleared.before (by simp only [marked, State.linkUpMarking_frame])
  have toHeads : marked.KeepsCaps heads := .forHeads (fun h v => v.offerHead_keepsCaps h) marked
  have toStatus : heads.KeepsCaps status := .ite .of_eq (.refl heads)
  have toTested : s.KeepsCaps tested := ((toMarked.trans toHeads).trans toStatus).before rfl
  have toNotice : tested.KeepsCaps notice :=
    .of_eq (by simp only [notice, lamp, State.offerNotice_frame, State.offerLamp_frame])
  exact (toTested.trans toNotice).trans notice.sendDecision_keepsCaps

theorem execHello_keepsCaps (version : Byte) (s : State) : s.capsKeptBy (execHello version s) := by
  unfold execHello
  split
  · exact s.capsKeptBy_self
  · split
    · exact s.enterUp_keepsCaps.into
    · exact State.capsKeptBy_of_eq
  · exact s.capsKeptBy_self

theorem execFrameEnd_keepsCaps (s : State) : s.capsKeptBy (execFrameEnd s) := by
  unfold execFrameEnd
  split
  · exact s.capsKeptBy_self
  · exact State.capsKeptBy_of_eq

theorem execSet_keepsCaps (setting head : Byte) (value : BitVec 64) (s : State) :
    s.capsKeptBy (execSet setting head value s) := by
  unfold execSet
  split
  · split
    · exact State.capsKeptBy_of_eq
    · exact State.capsKeptBy_of_eq
  · exact s.capsKeptBy_self

theorem execApply_keepsCaps (s : State) : s.capsKeptBy (execApply s) := by
  unfold execApply
  split
  · exact State.capsKeptBy_of_eq
  · exact s.capsKeptBy_self

theorem State.clearItem_keepsCaps (s : State) (item head : Byte) : s.KeepsCaps (s.clearItem item head) := by
  unfold State.clearItem
  repeat' split
  all_goals exact .of_eq rfl

theorem execReadRequest_keepsCaps (id : BitVec 16) (item head flags : Byte) (s : State) :
    s.capsKeptBy (execReadRequest id item head flags s) := by
  unfold execReadRequest
  split
  · extract_lets v cleared
    have toCleared : s.KeepsCaps cleared := .ite (s.clearItem_keepsCaps item head) (.refl s)
    have toAnswered : cleared.KeepsCaps (cleared.offerAnswer id v.isSome (BitVec.ofNat 64 (v.getD 0))) := .of_eq
    exact ((toCleared.trans toAnswered).trans (State.sendDecision_keepsCaps _)).into
  · exact s.capsKeptBy_self

theorem execClear_keepsCaps (events : BitVec 16) (s : State) : s.capsKeptBy (execClear events s) := by
  unfold execClear
  split
  · exact State.capsKeptBy_of_eq
  · exact s.capsKeptBy_self

theorem execResync_keepsCaps (head : Byte) (s : State) : s.capsKeptBy (execResync head s) := by
  unfold execResync
  split
  · split
    · exact State.capsKeptBy_of_eq
    · exact s.capsKeptBy_self
  · exact s.capsKeptBy_self

theorem State.interact_keepsCaps (s : State) (k : Interaction) : s.KeepsCaps (s.interact k) := .of_eq

theorem execKeys_keepsCaps (modifiers : Byte) (codes : Table 6 Byte) (s : State) :
    s.capsKeptBy (execKeys modifiers codes s) := by
  unfold execKeys
  split
  · extract_lets keys changed acted replaced
    have toActed : s.KeepsCaps acted := .ite (s.interact_keepsCaps _) (.refl s)
    exact (toActed.before (u := replaced.offerKeyboard modifiers keys) (by simp [replaced])).into
  · exact s.capsKeptBy_self

theorem execPointer_keepsCaps (x y : BitVec 16) (buttons wheel : Byte) (s : State) :
    s.capsKeptBy (execPointer x y buttons wheel s) := by
  unfold execPointer
  split
  · extract_lets px py b moved pressed afterMotion afterButtons positioned
    have toMotion : s.KeepsCaps afterMotion := .ite (s.interact_keepsCaps _) (.refl s)
    have toButtons : afterMotion.KeepsCaps afterButtons := .ite (afterMotion.interact_keepsCaps _) (.refl _)
    exact ((toMotion.trans toButtons).before (u := positioned.offerPointer px py b (pointerWheel wheel))
      (by simp [positioned])).into
  · exact s.capsKeptBy_self

theorem execInputFrameEnd_keepsCaps (s : State) : s.capsKeptBy (execInputFrameEnd s) := by
  unfold execInputFrameEnd
  split
  · exact s.capsKeptBy_self
  · exact State.capsKeptBy_of_eq

theorem execLamp_keepsCaps (set : Byte) (s : State) : s.capsKeptBy (execLamp set s) := by
  unfold execLamp
  extract_lets overrun received
  have toOverrun : s.KeepsCaps overrun := .ite (s.raise_keepsCaps _) (.refl s)
  have toReceived : s.KeepsCaps received := toOverrun.before (by simp [received])
  split
  · exact (toReceived.before (u := (received.offerLamp set).sendDecision)).into
  · exact toReceived.into

/-! ### A step -/

/-- Each command goes on and keeps the caps. -/
theorem exec_keepsCaps (c : Instr) (s : State) : s.capsKeptBy (exec c s) := by
  cases c with
  | partReset p line ready => exact execPartReset_keepsCaps p line ready s
  | activate | precharge | prechargeAll | write | writeAutoPrecharge | read | readAutoPrecharge | refresh | calibrate
  | powerDownEntry | powerDownExit | selfRefreshEntry | selfRefreshExit => exact exec_rank_keepsCaps rfl s
  | modeSet n v => exact execModeSet_keepsCaps n v s
  | memoryReset => exact s.assertMemoryReset_keepsCaps.into
  | observedWrite o => exact execObservedWrite_keepsCaps o s
  | observedRead o => exact execObservedRead_keepsCaps o s
  | encodeCompletion => exact execEncodeCompletion_keepsCaps s
  | tick => exact s.takeTick_keepsCaps.into
  | epochEnd => exact execEpochEnd_keepsCaps s
  | deferralAbandoned i => exact execDeferralAbandoned_keepsCaps i s
  | laneAlignmentLost lane => exact execLaneAlignmentLost_keepsCaps lane s
  | stallTimerExpiry h => exact execStallTimerExpiry_keepsCaps h s
  | overrideHoldExpiry => exact execOverrideHoldExpiry_keepsCaps s
  | lanesAligned => exact execLanesAligned_keepsCaps s
  | helloRepeatTimerExpiry => exact execHelloRepeatTimerExpiry_keepsCaps s
  | aligningTimerExpiry => exact execAligningTimerExpiry_keepsCaps s
  | frameEnd => exact execFrameEnd_keepsCaps s
  | hello version => exact execHello_keepsCaps version s
  | keys modifiers codes => exact execKeys_keepsCaps modifiers codes s
  | pointer x y buttons wheel => exact execPointer_keepsCaps x y buttons wheel s
  | set setting head value => exact execSet_keepsCaps setting head value s
  | apply => exact execApply_keepsCaps s
  | readRequest id item head flags => exact execReadRequest_keepsCaps id item head flags s
  | clear events => exact execClear_keepsCaps events s
  | resync head => exact execResync_keepsCaps head s
  | inputFrameEnd => exact execInputFrameEnd_keepsCaps s
  | lamp set => exact execLamp_keepsCaps set s
  | noOp => exact s.capsKeptBy_self
  | memoryResetRelease | readyLevelRise | readyLevelFall | badUpstreamFrame | inputLineBadFrame =>
    exact State.capsKeptBy_of_eq

/-- A step keeps the caps. -/
theorem step_keepsCaps {s t : State} (h : step s = .next t) : s.KeepsCaps t := by
  unfold step at h
  split at h
  · obtain rfl := Host.Outcome.next.inj h
    exact .of_eq rfl
  next c rest _ =>
    obtain ⟨u, hu, kept⟩ := exec_keepsCaps c { s with pending := rest }
    obtain rfl := Host.Outcome.next.inj (h.symm.trans hu)
    exact kept.after rfl

/-- Settles O56: a step is a chain of operations of which each keeps every head's credit within its cap. -/
theorem creditsStayWithinCaps : Obligations.CreditsStayWithinCaps := fun _ _ within h q => step_keepsCaps h q (within q)

end Sys2Proof.Machine
end

section
/-! SUPPORT. The empty queue (R116, log 1): the expiry commands of a microsecond, one for each timer that is due. -/

namespace Sys2Proof.Machine

/-- The expiry command of a timer, when the time base has reached its expiry. -/
def expiryOf (now : Time) (timer : Option Time) (c : Instr) : List Instr :=
  match timer with
  | some e => if timeReached now e then [c] else []
  | none => []

theorem State.dueCommands_eq (s : State) : s.dueCommands =
    expiryOf s.budget.now (some s.budget.tickAt) .tick
      ++ allHeads.flatMap (fun h => expiryOf s.budget.now (s.scans.look h).stall (.stallTimerExpiry h))
      ++ expiryOf s.budget.now s.budget.hold .overrideHoldExpiry
      ++ expiryOf s.budget.now s.link.helloAt .helloRepeatTimerExpiry
      ++ expiryOf s.budget.now s.link.aligningAt .aligningTimerExpiry := rfl

theorem mem_expiryOf {now : Time} {timer : Option Time} {c d : Instr} :
    d ∈ expiryOf now timer c ↔ ∃ e, d = c ∧ timer = some e ∧ timeReached now e := by
  cases timer with
  | none => simp [expiryOf]
  | some e =>
    by_cases reached : timeReached now e = true <;> simp [expiryOf, reached]

/-- A timer queues its own command, at most once. -/
theorem expiryOf_sublist (now : Time) (timer : Option Time) (c : Instr) : (expiryOf now timer c).Sublist [c] := by
  unfold expiryOf
  repeat' split
  · exact .refl _
  · exact List.nil_sublist _
  · exact List.nil_sublist _

/-- The expiry commands of all the timers, in their order (log 1). -/
def everyExpiry : List Instr :=
  [.tick] ++ allHeads.flatMap (fun h => [.stallTimerExpiry h])
    ++ [.overrideHoldExpiry] ++ [.helloRepeatTimerExpiry] ++ [.aligningTimerExpiry]

theorem State.dueCommands_sublist (s : State) : s.dueCommands.Sublist everyExpiry := by
  rw [State.dueCommands_eq]
  have stalls : (allHeads.flatMap fun h =>
      expiryOf s.budget.now (s.scans.look h).stall (.stallTimerExpiry h)).Sublist
        (allHeads.flatMap fun h => [.stallTimerExpiry h]) :=
    List.Sublist.flatMap_right _ fun h _ => expiryOf_sublist ..
  exact ((((expiryOf_sublist ..).append stalls).append (expiryOf_sublist ..)).append (expiryOf_sublist ..)).append
    (expiryOf_sublist ..)

/-- Settles O2: the expiries of the due timers, each its own command, in a fixed order without repeats. -/
theorem emptyQueuePassesAMicrosecond : Obligations.EmptyQueuePassesAMicrosecond := by
  intro s empty
  have stepped : step s = .next s.passMicrosecond := by
    unfold step
    rw [empty]
  have due : s.passMicrosecond.pending =
      State.dueCommands { s with budget := { s.budget with now := s.budget.now + 1 } } := by
    simp only [State.passMicrosecond, empty, List.nil_append]
  refine ⟨s.passMicrosecond, stepped, rfl, ?_, fun c => ?_⟩
  · rw [due]
    have distinct : everyExpiry.Nodup := by decide
    exact distinct.sublist (State.dueCommands_sublist _)
  · rw [due, State.dueCommands_eq]
    simp [mem_expiryOf, mem_allHeads]

end Sys2Proof.Machine
end

section
/-! SUPPORT. The encode decision (R130, R131): the states that a charge and a deferral leave. -/

namespace Sys2Proof.Machine

/-- A record charged at the encode decision: the credit and the accumulator take the frame size, and the record joins
the tail of the send FIFO (R122, R128, R130, R144). -/
def State.charged (s : State) (h : Fin 4) (i : Fin 64) (d : Decision) : State := { s with
  slots := s.slots.upd i (Option.map fun r => { r with state := .queued, decision := some d })
  budget := { s.budget with heads := s.budget.heads.put h { s.budget.heads.look h with
    credit := (s.budget.heads.look h).credit - d.frameSize
    accumulator := (s.budget.heads.look h).accumulator + d.frameSize } }
  link := { s.link with send := s.link.send.put h (s.link.send.look h ++ [i]) } }

/-- A record deferred at the encode decision: it joins the tail of the deferral list with age 0, and the accumulator
takes its exact frame size (R122, R130, R132). -/
def State.deferredTo (s : State) (h : Fin 4) (i : Fin 64) (exactCost : Nat) : State := { s with
  slots := s.slots.upd i (Option.map fun r => { r with state := .deferred, age := 0 })
  budget := { s.budget with heads := s.budget.heads.put h { s.budget.heads.look h with
    deferred := (s.budget.heads.look h).deferred ++ [i]
    accumulator := (s.budget.heads.look h).accumulator + exactCost } } }

/-- Two changes of one head's budget, the second after the first. -/
theorem State.updBudget_updBudget (s : State) (h : Fin 4) (f g : HeadBudget → HeadBudget) :
    (s.updBudget h f).updBudget h g = s.updBudget h fun b => g (f b) := by
  simp only [State.updBudget, Table.upd, Table.look_put_self, Table.put_put]

/-- A charge takes a send decision once the record has joined (R145). -/
theorem State.charge_eq (s : State) (h : Fin 4) (i : Fin 64) (d : Decision) :
    (s.addDemand h d.frameSize).charge h i d = (s.charged h i d).sendDecision := by
  simp only [State.charge, State.addDemand, State.updBudget_updBudget]
  rfl

theorem State.defer_eq (s : State) (h : Fin 4) (i : Fin 64) (f : CodedForms) :
    s.defer h i f = s.deferredTo h i (f.exact.length + 12) := by
  simp only [State.defer, State.addDemand, State.updBudget_updBudget]
  rfl

/-- Settles O30: the first case of R130 that applies decides between a charge and a deferral. -/
theorem encodeDecision : Obligations.EncodeDecision := by
  intro s i r f h b e q reducedFits queued deferred
  have charges {d : Decision} (none : b.deferred = []) (fits : affordable r.kind (s.exactOnly h) b.credit f = some d) :
      s.encodeDecision i r f = (queued d).sendDecision :=
    (State.encodeDecision_of_charged none fits).trans (s.charge_eq h i d)
  have defers (not : b.deferred ≠ [] ∨ affordable r.kind (s.exactOnly h) b.credit f = none) :
      s.encodeDecision i r f = deferred :=
    (State.encodeDecision_of_deferred not).trans (s.defer_eq h i f)
  exact ⟨fun behind => defers (.inl behind), fun none exact => charges none (affordable_of_exact exact),
    fun none exact reduced => charges none (affordable_of_reduced exact reduced),
    fun _ exact reduced => defers (.inr (affordable_of_none exact reduced))⟩

end Sys2Proof.Machine
end

section
/-! SUPPORT. The interaction override (R136), and the pointer on the screens (R164). -/

namespace Sys2Proof.Machine

/-! ### The override -/

/-- An interaction event whose enable is on (R136). -/
theorem State.interact_of_enabled {s : State} {k : Interaction} (on : s.link.current.enables k = true) :
    s.interact k = { s with budget := { s.budget with
      overrideActive := true
      hold := some (s.budget.now + BitVec.ofNat 32 (s.link.current.holdMs * 1000)) } } := by
  rw [State.interact, if_pos on]
  rfl

/-- An interaction event whose enable is off (R136). -/
theorem State.interact_of_disabled {s : State} {k : Interaction} (off : s.link.current.enables k = false) :
    s.interact k = s := by
  rw [State.interact, if_neg (by rw [off]; exact Bool.false_ne_true)]

/-- The time base at a timer's expiry (log 2). -/
theorem State.reachTime_eq (s : State) (e : Time) : s.reachTime e = { s with budget := { s.budget with
    now := if timeReached s.budget.now e then s.budget.now else e } } := by
  unfold State.reachTime
  split <;> rfl

/-! ### The pointer -/

/-- Head `h` is SHOWING with geometry `g`, and its rectangle in force `d` contains the position, bounds included. -/
def State.pointerHits (s : State) (x y : Nat) (h : Fin 4) (g : Geometry) (d : Desktop) : Prop :=
  (s.heads.look h).state = .showing ∧ (s.heads.look h).geometry = some g ∧
    (s.link.current.heads.look h).desktop = some d ∧ d.x0 ≤ x ∧ x ≤ d.x1 ∧ d.y0 ≤ y ∧ y ≤ d.y1

theorem Desktop.contains_iff (d : Desktop) (x y : Nat) :
    d.contains x y = true ↔ d.x0 ≤ x ∧ x ≤ d.x1 ∧ d.y0 ≤ y ∧ y ≤ d.y1 := by
  simp only [Desktop.contains, Bool.and_eq_true, decide_eq_true_eq, and_assoc]

section
variable {s : State} {x y : Nat} {h : Fin 4}

theorem State.pointerOn_of_hits {g : Geometry} {d : Desktop} (hits : s.pointerHits x y h g d) :
    s.pointerOn h x y = some (h, pointerTileIn g d x y) := by
  obtain ⟨showing, geometry, desktop, inside⟩ := hits
  simp only [State.pointerOn, showing, geometry, desktop, (d.contains_iff x y).2 inside, if_true]

theorem State.pointerOn_of_misses (misses : ∀ g d, ¬ s.pointerHits x y h g d) : s.pointerOn h x y = none := by
  unfold State.pointerOn
  split
  next g d showing geometry desktop =>
    exact if_neg fun inside => misses g d ⟨showing, geometry, desktop, (d.contains_iff x y).1 inside⟩
  next => rfl

end

/-- The heads before `h` in order are those with lower numbers. -/
theorem allHeads_split (h : Fin 4) : ∃ before after, allHeads = before ++ h :: after ∧ ∀ q ∈ before, q < h := by
  refine ⟨allHeads.take h.1, allHeads.drop (h.1 + 1), ?_, ?_⟩ <;> revert h <;> decide

section
variable {s : State} {x y : BitVec 15} (position : s.relay.position = some (x, y))

include position

/-- The pointer is on the lowest-numbered head that it hits (R164). -/
theorem State.pointerTile_of_hits {h : Fin 4} {g : Geometry} {d : Desktop}
    (hits : s.pointerHits x.toNat y.toNat h g d)
    (lowest : ∀ q g' d', s.pointerHits x.toNat y.toNat q g' d' → h ≤ q) :
    s.pointerTile = some (h, pointerTileIn g d x.toNat y.toNat) := by
  obtain ⟨before, after, order, lower⟩ := allHeads_split h
  simp only [State.pointerTile, position]
  refine List.findSome?_eq_some_iff.2 ⟨before, h, after, order, State.pointerOn_of_hits hits, fun q member => ?_⟩
  exact State.pointerOn_of_misses fun g' d' hit => absurd (lower q member) (not_lt.2 (lowest q g' d' hit))

/-- The pointer is on no head when it hits none (R164). -/
theorem State.pointerTile_of_misses (misses : ∀ h g d, ¬ s.pointerHits x.toNat y.toNat h g d) :
    s.pointerTile = none := by
  simp only [State.pointerTile, position]
  exact List.findSome?_eq_none_iff.2 fun h _ => State.pointerOn_of_misses (misses h)

end

/-- Settles O40: the override by its enable and its timer, and the pointer's head by the first hit. -/
theorem overrideAndPointer : Obligations.OverrideAndPointer := by
  refine ⟨fun s => ⟨fun k => ⟨State.interact_of_enabled, State.interact_of_disabled⟩, fun stopped => ?_,
    fun e running => ?_⟩, fun s => ?_⟩
  · simp only [exec, execOverrideHoldExpiry, stopped]
  · simp only [exec, execOverrideHoldExpiry, running, State.reachTime_eq]
  · intro hit
    refine ⟨fun none => by simp only [State.pointerTile, none], fun x y position => ?_⟩
    exact ⟨State.pointerTile_of_misses position, fun h g d hits lowest =>
      State.pointerTile_of_hits position hits lowest⟩

end Sys2Proof.Machine
end

section
/-! SUPPORT. Reports of the desk (R158 to R162): the key set of a KEYS frame, the override that a report makes active,
and the steps in which an entry is offered to the input queue. -/

namespace Sys2Proof.Machine

/-! ### The key set (R158, R169) -/

theorem mem_insertKey {k j : Byte} {l : List Byte} : j ∈ insertKey k l ↔ j = k ∨ j ∈ l := by
  induction l with
  | nil => simp [insertKey]
  | cons x l ih =>
    unfold insertKey
    split
    · rw [List.mem_cons]
    · split
      next same => simp [same]
      next => simp only [List.mem_cons, ih, or_left_comm]

/-- A key set stays in ascending order. -/
theorem pairwise_insertKey (k : Byte) {l : List Byte} (sorted : l.Pairwise (· < ·)) :
    (insertKey k l).Pairwise (· < ·) := by
  induction l with
  | nil => exact List.pairwise_singleton _ k
  | cons x l ih =>
    obtain ⟨below, rest⟩ := List.pairwise_cons.1 sorted
    unfold insertKey
    split
    next less =>
      refine List.pairwise_cons.2 ⟨fun y member => ?_, sorted⟩
      rcases List.mem_cons.1 member with rfl | member
      · exact less
      · exact BitVec.lt_trans less (below y member)
    next notLess =>
      split
      · exact sorted
      next other =>
        refine List.pairwise_cons.2 ⟨fun y member => ?_, ih rest⟩
        rcases mem_insertKey.1 member with rfl | member
        · exact BitVec.lt_of_le_ne (BitVec.not_lt.1 notLess) (Ne.symm other)
        · exact below y member

/-- A list of codes taken into a key set (R158). -/
theorem keysFolded (codes : List Byte) {l : List Byte} (sorted : l.Pairwise (· < ·)) :
    (codes.foldl (fun l k => if k = 0 then l else insertKey k l) l).Pairwise (· < ·) ∧
      ∀ k, k ∈ codes.foldl (fun l k => if k = 0 then l else insertKey k l) l ↔ k ∈ l ∨ (k ≠ 0 ∧ k ∈ codes) := by
  induction codes generalizing l with
  | nil => simpa using sorted
  | cons c codes ih =>
    rw [List.foldl_cons]
    by_cases none : c = 0
    · obtain ⟨order, members⟩ := ih sorted
      rw [if_pos none]
      refine ⟨order, fun k => (members k).trans ?_⟩
      simp only [List.mem_cons, none]
      tauto
    · obtain ⟨order, members⟩ := ih (pairwise_insertKey c sorted)
      rw [if_neg none]
      refine ⟨order, fun k => (members k).trans ?_⟩
      rw [mem_insertKey, List.mem_cons]
      by_cases own : k = c
      · have nonzero : k ≠ 0 := own ▸ none
        exact ⟨fun _ => .inr ⟨nonzero, .inl own⟩, fun _ => .inl (.inl own)⟩
      · simp only [own, false_or]

theorem pairwise_keySet (codes : Table 6 Byte) : (keySet codes).Pairwise (· < ·) :=
  (keysFolded _ List.Pairwise.nil).1

theorem mem_keySet {codes : Table 6 Byte} {k : Byte} : k ∈ keySet codes ↔ k ≠ 0 ∧ ∃ j, codes.look j = k := by
  refine ((keysFolded _ List.Pairwise.nil).2 k).trans ?_
  simp only [List.not_mem_nil, false_or, List.mem_map, List.mem_finRange, true_and]

/-! ### The override of a report (R136) -/

/-- The budget when a report's interaction events make the override active, `acts` saying whether one of them has its
enable on (R136). -/
def State.acted (s : State) (acts : Prop) [Decidable acts] : State := { s with
  budget := if acts then { s.budget with
      overrideActive := true
      hold := some (s.budget.now + BitVec.ofNat 32 (s.link.current.holdMs * 1000)) }
    else s.budget }

@[simp] theorem State.acted_link (s : State) (acts : Prop) [Decidable acts] : (s.acted acts).link = s.link := rfl

/-- An interaction event that happens or not. -/
theorem State.interact_if (s : State) (k : Interaction) (happens : Prop) [Decidable happens] :
    (if happens then s.interact k else s) = s.acted (s.link.current.enables k = true ∧ happens) := by
  by_cases happened : happens
  · cases enabled : s.link.current.enables k with
    | false => simp [State.acted, State.interact_of_disabled enabled]
    | true => simp [State.acted, happened, State.interact_of_enabled enabled]
  · simp [State.acted, happened]

/-- Two events act when one of them does. -/
theorem State.acted_acted (s : State) (p q : Prop) [Decidable p] [Decidable q] :
    (s.acted p).acted q = s.acted (p ∨ q) := by
  by_cases first : p <;> by_cases second : q <;> simp [State.acted, first, second]

/-! ### Entries offered to the queue (R156, R159, R160) -/

/-- A report that replaces an entry or sheds one, or is dropped, counts (R159, R160). -/
theorem State.updRelay_inputOverflow (s : State) (f : Relay → Relay) :
    (s.updRelay f).inputOverflow = s.overflowed (f s.relay) := rfl

theorem Relay.full_eq_false {r : Relay} (room : r.queue.length < 32) : r.full = false :=
  decide_eq_false (Nat.not_le.2 room)

theorem Relay.full_eq_true {r : Relay} (none : 32 ≤ r.queue.length) : r.full = true := decide_eq_true none

/-- The oldest entry of a kind leaves the queue (R160, R162). -/
theorem eraseP_append_cons {p : InputEntry → Bool} {a b : List InputEntry} {x : InputEntry} (hx : p x = true)
    (before : ∀ y ∈ a, p y = false) : (a ++ x :: b).eraseP p = a ++ b := by
  rw [List.eraseP_append_right _ fun y member => by simp [before y member], List.eraseP_cons_of_pos hx]

theorem any_append_cons {p : InputEntry → Bool} {a b : List InputEntry} {x : InputEntry} (hx : p x = true) :
    (a ++ x :: b).any p = true := List.any_eq_true.2 ⟨x, by simp, hx⟩

theorem any_eq_false_of_forall {p : InputEntry → Bool} {l : List InputEntry} (none : ∀ y ∈ l, p y = false) :
    l.any p = false := by simpa using none

/-- An entry is of one kind. -/
theorem InputEntry.kinds_of_isNotice {e : InputEntry} (notice : e.isNotice = true) :
    e.isKeyboard = false ∧ e.isPointer = false := by
  cases e <;> simp_all [InputEntry.isNotice, InputEntry.isKeyboard, InputEntry.isPointer]

section
variable {s : State} {m : Byte} {keys : List Byte} (full : 32 ≤ s.relay.queue.length)

/-- With room a keyboard report joins the tail (R160 step 1). -/
theorem State.offerKeyboard_of_room (room : s.relay.queue.length < 32) :
    s.offerKeyboard m keys = { s with relay := s.relay.joined (.keyboard m keys) } := by
  simp only [State.offerKeyboard, Relay.full_eq_false room, Bool.not_false, if_true, State.updRelay,
    Relay.join_eq_joined]

include full

/-- At a full queue it replaces the newest KEYBOARD entry (R160 step 2). -/
theorem State.offerKeyboard_of_keyboard {a b : List InputEntry} {x : InputEntry} (queue : s.relay.queue = a ++ x :: b)
    (keyboard : x.isKeyboard = true) (newest : ∀ y ∈ b, y.isKeyboard = false) :
    s.offerKeyboard m keys = s.overflowed { s.relay with queue := a ++ .keyboard m keys :: b } := by
  have any : s.relay.queue.any InputEntry.isKeyboard = true := queue ▸ any_append_cons keyboard
  simp only [State.offerKeyboard, Relay.full_eq_true full, any, Bool.not_true, Bool.false_eq_true, if_false, if_true,
    State.updRelay_inputOverflow]
  rw [queue, replaceNewest_append _ _ _ _ _ keyboard newest]

/-- Else it sheds the oldest POINTER entry and joins (R160 step 3). -/
theorem State.offerKeyboard_of_pointer {a b : List InputEntry} {x : InputEntry} (queue : s.relay.queue = a ++ x :: b)
    (none : ∀ y ∈ s.relay.queue, y.isKeyboard = false) (pointer : x.isPointer = true)
    (oldest : ∀ y ∈ a, y.isPointer = false) : s.offerKeyboard m keys =
      s.overflowed (({ s.relay with queue := a ++ b } : Relay).joined (.keyboard m keys)) := by
  have any : s.relay.queue.any InputEntry.isPointer = true := queue ▸ any_append_cons pointer
  simp only [State.offerKeyboard, Relay.full_eq_true full, any_eq_false_of_forall none, any, Bool.not_true,
    Bool.false_eq_true, if_false, if_true, State.updRelay_inputOverflow, Relay.join_eq_joined]
  rw [queue, eraseP_append_cons pointer oldest]

/-- Else it sheds the oldest NOTICE and joins, with the lost-notice flag set (R160 step 4). -/
theorem State.offerKeyboard_of_notice {b : List InputEntry} {x : InputEntry} (queue : s.relay.queue = x :: b)
    (notices : ∀ y ∈ s.relay.queue, y.isNotice = true) : s.offerKeyboard m keys =
      s.overflowed (({ s.relay with queue := b, lost := true } : Relay).joined (.keyboard m keys)) := by
  have noKeyboard := any_eq_false_of_forall fun y member => (InputEntry.kinds_of_isNotice (notices y member)).1
  have noPointer := any_eq_false_of_forall fun y member => (InputEntry.kinds_of_isNotice (notices y member)).2
  simp only [State.offerKeyboard, Relay.full_eq_true full, noKeyboard, noPointer, Bool.not_true,
    Bool.false_eq_true, if_false, State.updRelay_inputOverflow, Relay.join_eq_joined]
  rw [queue, List.eraseP_cons_of_pos (notices x (queue ▸ List.mem_cons_self))]

end

/-- Settles O52: the key set by its insertions, the report as its override and its offer, and the offer step by step. -/
theorem keyboardReport : Obligations.KeyboardReport := by
  refine ⟨fun s m codes up => ⟨pairwise_keySet codes, fun k => mem_keySet, ?_⟩, fun s m keys => ?_⟩
  · simp only [exec, execKeys, up, State.interact_if, decide_eq_true_eq]
    rfl
  · intro e q
    exact ⟨State.offerKeyboard_of_room, fun a x b full queue => State.offerKeyboard_of_keyboard full queue,
      fun a x b full none queue => State.offerKeyboard_of_pointer full queue none,
      fun x b full notices queue => State.offerKeyboard_of_notice full queue notices⟩

end Sys2Proof.Machine
end

section
/-! SUPPORT. POINTER reports and the pointer release (R159, R162, R169): the merge with the newest entry, the steps that
both take, and what the release sheds. -/

namespace Sys2Proof.Machine

/-- The wheel byte: -128 is taken as -127 (R169). -/
theorem pointerWheel_eq (w : Byte) : pointerWheel w = if w = 0x80 then -127 else w.toInt := by
  split
  next least => rw [least]; decide
  next other =>
    have above : -128 < w.toInt := by
      refine lt_of_le_of_ne (BitVec.le_toInt w) fun same => other (BitVec.toInt_inj.1 ?_)
      exact same.symm
    exact max_eq_left (by omega)

/-! ### The merge (R159 step 1) -/

/-- The queue ends with a POINTER entry of these buttons. -/
def mergeable (b : BitVec 5) (q : List InputEntry) : Prop := ∃ l x0 y0 v, q = l ++ [.pointer x0 y0 b v]

section
variable (x y : BitVec 15) (b : BitVec 5) (wheel : Int)

/-- The merge looks at the newest entry alone. -/
theorem mergePointer_cons (e : InputEntry) {l : List InputEntry} (ne : l ≠ []) :
    mergePointer x y b wheel (e :: l) = (mergePointer x y b wheel l).map (e :: ·) := by
  cases l with
  | nil => exact absurd rfl ne
  | cons f l => cases e <;> rfl

theorem mergePointer_append (l : List InputEntry) (x0 y0 : BitVec 15) (v : Int) :
    mergePointer x y b wheel (l ++ [.pointer x0 y0 b v]) = some (l ++ [.pointer x y b (limitWheel (v + wheel))]) := by
  induction l with
  | nil => simp [mergePointer]
  | cons e l ih => rw [List.cons_append, mergePointer_cons _ _ _ _ _ (by simp), ih]; rfl

theorem mergePointer_none {b : BitVec 5} {q : List InputEntry} (not : ¬ mergeable b q) :
    mergePointer x y b wheel q = none := by
  induction q with
  | nil => rfl
  | cons e q ih =>
    by_cases alone : q = []
    · subst alone
      cases e with
      | pointer x0 y0 c v => exact if_neg fun same : c = b => not ⟨[], x0, y0, v, by rw [same]; rfl⟩
      | _ => rfl
    · rw [mergePointer_cons _ _ _ _ _ alone, ih ?_, Option.map_none]
      rintro ⟨l, x0, y0, v, rfl⟩
      exact not ⟨e :: l, x0, y0, v, rfl⟩

end

/-- A queue without POINTER entries has none to merge with. -/
theorem not_mergeable {b : BitVec 5} {q : List InputEntry} (none : ∀ z ∈ q, z.isPointer = false) : ¬ mergeable b q := by
  rintro ⟨l, x0, y0, v, rfl⟩
  exact Bool.false_ne_true (none (.pointer x0 y0 b v) (by simp)).symm

/-! ### The steps (R159) -/

section
variable {s : State} {x y : BitVec 15} {b : BitVec 5} {wheel : Int} {drop : State → State}

theorem State.pointerSteps_of_merge {l : List InputEntry} {x0 y0 : BitVec 15} {v : Int}
    (queue : s.relay.queue = l ++ [.pointer x0 y0 b v]) : s.pointerSteps x y b wheel drop = { s with
      relay := { s.relay with queue := l ++ [.pointer x y b (limitWheel (v + wheel))] } } := by
  unfold State.pointerSteps
  rw [queue, mergePointer_append]
  rfl

theorem State.pointerSteps_of_room (not : ¬ mergeable b s.relay.queue) (room : s.relay.queue.length < 32) :
    s.pointerSteps x y b wheel drop = { s with relay := s.relay.joined (.pointer x y b wheel) } := by
  simp only [State.pointerSteps, mergePointer_none _ _ _ not, Relay.full_eq_false room, Bool.not_false, if_true,
    State.updRelay, Relay.join_eq_joined]

theorem State.pointerSteps_of_pointer {l r : List InputEntry} {p : InputEntry} (not : ¬ mergeable b s.relay.queue)
    (full : 32 ≤ s.relay.queue.length) (queue : s.relay.queue = l ++ p :: r) (pointer : p.isPointer = true)
    (newest : ∀ z ∈ r, z.isPointer = false) : s.pointerSteps x y b wheel drop =
      s.overflowed { s.relay with queue := l ++ .pointer x y b wheel :: r } := by
  have any : s.relay.queue.any InputEntry.isPointer = true := queue ▸ any_append_cons pointer
  simp only [State.pointerSteps, mergePointer_none _ _ _ not, Relay.full_eq_true full, any, Bool.not_true,
    Bool.false_eq_true, if_false, if_true, State.updRelay_inputOverflow]
  rw [queue, replaceNewest_append _ _ _ _ _ pointer newest]

theorem State.pointerSteps_of_drop (full : 32 ≤ s.relay.queue.length)
    (none : ∀ z ∈ s.relay.queue, z.isPointer = false) : s.pointerSteps x y b wheel drop = drop s := by
  simp only [State.pointerSteps, mergePointer_none _ _ _ (not_mergeable none), Relay.full_eq_true full,
    any_eq_false_of_forall none, Bool.not_true, Bool.false_eq_true, if_false]

end

/-! ### What the release sheds (R162) -/

theorem Relay.shedForRelease_of_keyboards {r : Relay} {l m : List InputEntry} {k : InputEntry}
    (queue : r.queue = l ++ k :: m) (keyboard : k.isKeyboard = true) (oldest : ∀ z ∈ l, z.isKeyboard = false)
    (another : ∃ z ∈ m, z.isKeyboard = true) : r.shedForRelease = { r with queue := l ++ m } := by
  have two : 2 ≤ r.queue.countP InputEntry.isKeyboard := by
    rw [queue, List.countP_append, List.countP_cons_of_pos keyboard]
    have rest := List.countP_pos_iff.2 another
    omega
  rw [Relay.shedForRelease, if_pos two, queue, eraseP_append_cons keyboard oldest]

theorem Relay.shedForRelease_of_notice {r : Relay} {l m : List InputEntry} {n : InputEntry}
    (queue : r.queue = l ++ n :: m) (notice : n.isNotice = true) (oldest : ∀ z ∈ l, z.isNotice = false)
    (one : r.queue.countP InputEntry.isKeyboard ≤ 1) :
    r.shedForRelease = { r with queue := l ++ m, lost := true } := by
  rw [Relay.shedForRelease, if_neg (by omega), queue, eraseP_append_cons notice oldest]

/-- What stands in place of a report's drop at the release: an entry is shed and the release joins (R162). -/
def State.pointerLast (x y : BitVec 15) (release : Bool) (s : State) : State :=
  if release then (s.updRelay fun r => r.shedForRelease.join (.pointer x y 0 0)).inputOverflow else s.inputOverflow

/-- A POINTER report and the release take the same steps but the last (R159, R162). -/
theorem State.offered_eq (s : State) (x y : BitVec 15) (b : BitVec 5) (wheel : Int) (release : Bool)
    (clear : release = true → b = 0 ∧ wheel = 0) :
    (if release then s.offerPointerRelease x y else s.offerPointer x y b wheel) =
      s.pointerSteps x y b wheel (State.pointerLast x y release) := by
  cases release with
  | false => rfl
  | true =>
    obtain ⟨rfl, rfl⟩ := clear rfl
    rfl

/-- Two interaction events, one after another. -/
theorem State.interact_twice (s : State) (k j : Interaction) (p q : Prop) [Decidable p] [Decidable q] :
    (if q then (s.acted (s.link.current.enables k = true ∧ p)).interact j
      else s.acted (s.link.current.enables k = true ∧ p)) =
      s.acted ((s.link.current.enables k = true ∧ p) ∨ (s.link.current.enables j = true ∧ q)) :=
  (State.interact_if _ j q).trans (State.acted_acted s _ _)

/-- Settles O53: a report as its override and its offer, and the steps that an offer and the release take. -/
theorem pointerReport : Obligations.PointerReport := by
  refine ⟨fun s x y bs w up => ?_, fun s t x y b wheel release ht clear => ?_⟩
  · intro px py b wheel
    have value : pointerWheel w = wheel := pointerWheel_eq w
    simp only [exec, execPointer, up, decide_eq_true_eq, State.interact_if s, State.interact_twice, value]
    rfl
  · intro e q merges
    rw [State.offered_eq s x y b wheel release clear] at ht
    subst ht
    refine ⟨fun l x0 y0 v queue => State.pointerSteps_of_merge queue, State.pointerSteps_of_room,
      fun l p r not full queue => State.pointerSteps_of_pointer not full queue, fun report full none => ?_,
      fun l k r released full none queue keyboard oldest another => ?_,
      fun l n r released full none queue notice oldest one => ?_⟩
    · subst report
      exact State.pointerSteps_of_drop full none
    · subst released
      obtain ⟨rfl, rfl⟩ := clear rfl
      rw [State.pointerSteps_of_drop full none, State.pointerLast, if_pos rfl, State.updRelay_inputOverflow,
        Relay.join_eq_joined, Relay.shedForRelease_of_keyboards queue keyboard oldest another]
    · subst released
      obtain ⟨rfl, rfl⟩ := clear rfl
      rw [State.pointerSteps_of_drop full none, State.pointerLast, if_pos rfl, State.updRelay_inputOverflow,
        Relay.join_eq_joined, Relay.shedForRelease_of_notice queue notice oldest one]

end Sys2Proof.Machine
end

section
/-! SUPPORT. Recomputation and end of an epoch (R117, R123, R124, R126 to R128): a head's budget after each. -/

namespace Sys2Proof.Machine

theorem State.recomputeShares_look (s : State) (h : Fin 4) :
    s.recomputeShares.budget.heads.look h = (s.budget.heads.look h).withShare (s.newShare h) := Table.look_tab _ h

theorem State.formDemands_look (s : State) (h : Fin 4) :
    s.formDemands.budget.heads.look h = { s.budget.heads.look h with
      demand := if s.isOn h then ((s.budget.heads.look h).accumulator + 15) / 16 else 0, accumulator := 0 } :=
  Table.look_tab _ h

/-- The floor of the dynamic mode (R126). -/
theorem dynamicShare_floor (budget : Nat) (cs : List Claim) (c : Claim) : budget / 64 ≤ dynamicShare budget cs c :=
  (Nat.le_add_right _ _).trans (Nat.le_add_right _ _)

theorem State.newShare_floor {s : State} {h : Fin 4} (dynamic : s.link.current.mode = .dynamic)
    (on : s.isOn h = true) : s.link.current.budget / 64 ≤ s.newShare h := by
  rw [s.newShare_eq, if_pos on, dynamic]
  exact dynamicShare_floor _ _ _

/-- Settles O35: what a recomputation and the end of an epoch give each head. -/
theorem recomputationAndEpochEnd : Obligations.RecomputationAndEpochEnd := by
  refine ⟨fun s => ⟨s.recomputeShares_spends, fun h dynamic on => ?_, fun h => ?_, rfl⟩,
    fun s => ⟨_, rfl, rfl, s.formDemands.recomputeShares_spends, fun h => ?_⟩⟩
  · rw [State.recomputeShares_share]
    exact State.newShare_floor dynamic on
  · rw [State.recomputeShares_look]
    rfl
  · have after : s.formDemands.recomputeShares.budget.heads.look h = _ :=
      (State.recomputeShares_look _ h).trans (congrArg (HeadBudget.withShare · _) (s.formDemands_look h))
    simp only [after, HeadBudget.withShare, and_self]

end Sys2Proof.Machine
end

section
/-! SUPPORT. The shares by mode (R121, R124 to R126): the one head that a remainder goes to, and what each class of the
second stage of the dynamic mode receives. -/

namespace Sys2Proof.Machine

/-! ### The remainder's head (R121) -/

/-- The order of R121: by class, and within a class by number. -/
def Claim.precedes (c d : Claim) : Prop :=
  c.cls.place < d.cls.place ∨ (c.cls.place = d.cls.place ∧ c.head ≤ d.head)

theorem Claim.precedes_refl (c : Claim) : c.precedes c := .inr ⟨rfl, le_refl _⟩

/-- The ranked list of claims, whose first is the remainder's. -/
theorem ranked_pairwise {cs : List Claim} (sorted : (cs.map Claim.head).Pairwise (· ≤ ·)) :
    (cs.filter (fun c => c.cls = .critical) ++ cs.filter (fun c => c.cls = .high) ++
      cs.filter (fun c => c.cls = .normal)).Pairwise Claim.precedes := by
  have within (k : HeadClass) : (cs.filter (fun c => c.cls = k)).Pairwise Claim.precedes := by
    refine ((List.pairwise_map.1 sorted).filter _).imp_of_mem fun hc hd le => .inr ⟨?_, le⟩
    rw [of_decide_eq_true (List.mem_filter.1 hc).2, of_decide_eq_true (List.mem_filter.1 hd).2]
  have across {j k : HeadClass} (lt : j.place < k.place) : ∀ c ∈ cs.filter (fun c => c.cls = j),
      ∀ d ∈ cs.filter (fun c => c.cls = k), c.precedes d := by
    intro c hc d hd
    left
    rwa [of_decide_eq_true (List.mem_filter.1 hc).2, of_decide_eq_true (List.mem_filter.1 hd).2]
  refine List.pairwise_append.2 ⟨List.pairwise_append.2 ⟨within _, within _, across (by decide)⟩, within _, ?_⟩
  intro c hc d hd
  rcases List.mem_append.1 hc with hc | hc
  · exact across (by decide) c hc d hd
  · exact across (by decide) c hc d hd

/-- The remainder's claim precedes every other. -/
theorem remainderHead_first {cs : List Claim} (sorted : (cs.map Claim.head).Pairwise (· ≤ ·)) (ne : cs ≠ []) :
    ∃ c ∈ cs, remainderHead cs = some c.head ∧ ∀ d ∈ cs, c.precedes d := by
  have ranked (d : Claim) : d ∈ cs.filter (fun c => c.cls = .critical) ++ cs.filter (fun c => c.cls = .high) ++
      cs.filter (fun c => c.cls = .normal) ↔ d ∈ cs := by
    simp only [List.mem_append, List.mem_filter, decide_eq_true_eq]
    cases d.cls <;> simp
  have order := ranked_pairwise sorted
  unfold remainderHead
  revert ranked order
  generalize cs.filter (fun c => c.cls = .critical) ++ cs.filter (fun c => c.cls = .high) ++
      cs.filter (fun c => c.cls = .normal) = l
  intro ranked order
  cases l with
  | nil =>
    obtain ⟨c, hc⟩ := List.exists_mem_of_ne_nil _ ne
    exact absurd ((ranked c).2 hc) List.not_mem_nil
  | cons c l =>
    refine ⟨c, (ranked c).1 List.mem_cons_self, rfl, fun d hd => ?_⟩
    rcases List.mem_cons.1 ((ranked d).2 hd) with rfl | later
    · exact d.precedes_refl
    · exact (List.pairwise_cons.1 order).1 d later

/-! ### The second stage of the dynamic mode (R126) -/

/-- The needs of a class. -/
def needsOf (floor : Nat) (cs : List Claim) (cls : HeadClass) : Nat :=
  sumOver (cs.filter fun c => c.cls = cls) (·.need floor)

/-- What a claim of a class receives when `left` is left. -/
def givenTo (floor : Nat) (cs : List Claim) (left : Nat) (cls : HeadClass) (c : Claim) : Nat :=
  if needsOf floor cs cls ≤ left then c.need floor else left * c.need floor / needsOf floor cs cls

/-- What a class receives when `left` is left. -/
def givenToAll (floor : Nat) (cs : List Claim) (left : Nat) (cls : HeadClass) : Nat :=
  sumOver (cs.filter fun c => c.cls = cls) (givenTo floor cs left cls)

theorem NeedStage.serve_of_open (floor : Nat) (cs : List Claim) {st : NeedStage} (cls : HeadClass)
    (opened : st.closed = false) : st.serve floor cs cls =
      { left := st.left - givenToAll floor cs st.left cls
        closed := decide (st.left < needsOf floor cs cls)
        got := (cs.filter fun c => c.cls = cls).foldl (fun t c => t.put c.head (givenTo floor cs st.left cls c))
          st.got } :=
  if_neg (by simp [opened])

/-- One class of the second stage, which is served or not. -/
theorem NeedStage.serve_eq (floor : Nat) {cs : List Claim} (hn : (cs.map Claim.head).Nodup) {st : NeedStage}
    (cls : HeadClass) {R : Nat} {served : Prop} [Decidable served] (left : st.left = R)
    (opened : st.closed = false ↔ served) :
    (st.serve floor cs cls).left = (if served then R - givenToAll floor cs R cls else R) ∧
      ((st.serve floor cs cls).closed = false ↔ served ∧ needsOf floor cs cls ≤ R) ∧
      (∀ c ∈ cs, c.cls = cls → (st.serve floor cs cls).got.look c.head =
        if served then givenTo floor cs R cls c else st.got.look c.head) ∧
      (∀ c ∈ cs, c.cls ≠ cls → (st.serve floor cs cls).got.look c.head = st.got.look c.head) := by
  subst left
  by_cases now : served
  · obtain ⟨given, kept⟩ := look_give (hn.sublist ((List.filter_sublist (p := fun c => c.cls = cls)).map Claim.head))
      (givenTo floor cs st.left cls) st.got
    rw [NeedStage.serve_of_open floor cs cls (opened.2 now)]
    simp only [now, if_true, true_and]
    refine ⟨decide_eq_false_iff_not.trans Nat.not_lt, fun c hc own => ?_, fun c hc other => ?_⟩
    · exact given c (List.mem_filter.2 ⟨hc, decide_eq_true own⟩)
    · refine kept c.head fun hm => other ?_
      obtain ⟨d, hd, same⟩ := List.mem_map.1 hm
      obtain ⟨hd, own⟩ := List.mem_filter.1 hd
      exact List.inj_on_of_nodup_map hn hd hc same ▸ of_decide_eq_true own
  · have shut : st.closed = true := Bool.eq_true_of_not_eq_false (now ∘ opened.1)
    simp [NeedStage.serve, shut, now]

/-- The three classes: what is left after them, and what each claim received. -/
theorem NeedStage.serve_all (floor : Nat) {cs : List Claim} (hn : (cs.map Claim.head).Nodup) {st : NeedStage}
    (opened : st.closed = false) (empty : ∀ h, st.got.look h = 0) :
    let R0 := st.left
    let R1 := R0 - givenToAll floor cs R0 .critical
    let highServed := needsOf floor cs .critical ≤ R0
    let R2 := if highServed then R1 - givenToAll floor cs R1 .high else R1
    let normalServed := highServed ∧ needsOf floor cs .high ≤ R1
    let st' := [HeadClass.critical, .high, .normal].foldl (NeedStage.serve floor cs) st
    st'.left = (if normalServed then R2 - givenToAll floor cs R2 .normal else R2) ∧
      ∀ c ∈ cs, st'.got.look c.head = match c.cls with
        | .critical => givenTo floor cs R0 .critical c
        | .high => if highServed then givenTo floor cs R1 .high c else 0
        | .normal => if normalServed then givenTo floor cs R2 .normal c else 0 := by
  intro R0 R1 highServed R2 normalServed st'
  obtain ⟨left1, open1, own1, kept1⟩ :=
    NeedStage.serve_eq floor hn .critical (served := True) (R := R0) rfl (iff_of_true opened trivial)
  rw [if_pos trivial] at left1
  rw [true_and] at open1
  obtain ⟨left2, open2, own2, kept2⟩ := NeedStage.serve_eq floor hn .high left1 open1
  obtain ⟨left3, -, own3, kept3⟩ := NeedStage.serve_eq floor hn .normal left2 open2
  refine ⟨left3, fun c hc => ?_⟩
  have other {j k : HeadClass} (is : c.cls = j) (ne : j ≠ k) : c.cls ≠ k := is.trans_ne ne
  cases is : c.cls with
  | critical => exact (kept3 c hc (other is nofun)).trans ((kept2 c hc (other is nofun)).trans (own1 c hc is))
  | high =>
    have before := (kept1 c hc (other is nofun)).trans (empty c.head)
    exact (kept3 c hc (other is nofun)).trans ((own2 c hc is).trans (if_congr Iff.rfl rfl before))
  | normal =>
    have before := (kept2 c hc (other is nofun)).trans ((kept1 c hc (other is nofun)).trans (empty c.head))
    exact (own3 c hc is).trans (if_congr Iff.rfl rfl before)

/-- The share of a claim in dynamic mode (R126). -/
theorem dynamicShare_eq {cs : List Claim} (hn : (cs.map Claim.head).Nodup) (budget : Nat) {c : Claim} (hc : c ∈ cs) :
    let f := budget / 64
    let R0 := budget - cs.length * f
    let R1 := R0 - givenToAll f cs R0 .critical
    let highServed := needsOf f cs .critical ≤ R0
    let R2 := if highServed then R1 - givenToAll f cs R1 .high else R1
    let normalServed := highServed ∧ needsOf f cs .high ≤ R1
    let R3 := if normalServed then R2 - givenToAll f cs R2 .normal else R2
    dynamicShare budget cs c = f + (match c.cls with
        | .critical => givenTo f cs R0 .critical c
        | .high => if highServed then givenTo f cs R1 .high c else 0
        | .normal => if normalServed then givenTo f cs R2 .normal c else 0) + byWeight R3 cs c := by
  intro f R0 R1 highServed R2 normalServed R3
  obtain ⟨left, got⟩ := NeedStage.serve_all f hn
    (st := { left := R0, closed := false, got := Table.const 0 }) rfl (Table.look_const _)
  unfold dynamicShare
  exact congr (congrArg _ (congrArg _ (got c hc))) (congrArg (byWeight · cs c) left)

/-! ### Claims of a state -/

theorem State.claims_sorted (s : State) : (s.claims.map Claim.head).Pairwise (· ≤ ·) := by
  rw [State.claims_heads]
  exact (show allHeads.Pairwise (· ≤ ·) by decide).filter _

theorem State.claims_nodup (s : State) : (s.claims.map Claim.head).Nodup := by
  rw [State.claims_heads]
  exact allHeads_nodup.filter _

theorem State.claimOf_mem {s : State} {h : Fin 4} (on : s.isOn h = true) : s.claimOf h ∈ s.claims :=
  List.mem_map_of_mem (List.mem_filter.2 ⟨mem_allHeads h, on⟩)

/-- A sum over the claims is a sum over the heads that are ON. -/
theorem State.sumOver_claims (s : State) (f : Claim → Nat) :
    sumOver s.claims f = ((allHeads.filter (s.isOn ·)).map fun h => f (s.claimOf h)).sum := by
  rw [State.claims_eq, sumOver, List.map_map]
  rfl

/-- A sum over the claims of a class is a sum over its heads that are ON. -/
theorem State.sumOver_claims_class (s : State) (cls : HeadClass) (f : Claim → Nat) :
    sumOver (s.claims.filter fun c => c.cls = cls) f = (((allHeads.filter (s.isOn ·)).filter fun h =>
      (s.link.current.heads.look h).cls = cls).map fun h => f (s.claimOf h)).sum := by
  rw [State.claims_eq, List.filter_map, sumOver, List.map_map]
  rfl

/-- The remainder's head of a state with a head ON (R121). -/
theorem State.remainderHead_claims {s : State} {h : Fin 4} (on : s.isOn h = true) :
    ∃ r, s.isOn r = true ∧ remainderHead s.claims = some r ∧
      ∀ q, s.isOn q = true → (s.claimOf r).precedes (s.claimOf q) := by
  obtain ⟨c, hc, first, before⟩ := remainderHead_first s.claims_sorted (List.ne_nil_of_mem (State.claimOf_mem on))
  obtain ⟨r, hr, rfl⟩ := List.mem_map.1 hc
  exact ⟨r, (List.mem_filter.1 hr).2, first, fun q hq => before _ (State.claimOf_mem hq)⟩

/-- A division by weight among a state's heads (R121, R125). -/
theorem State.byWeight_claims {s : State} {r : Fin 4} (first : remainderHead s.claims = some r) (amount : Nat)
    (h : Fin 4) :
    let on := allHeads.filter (s.isOn ·)
    let w := fun h : Fin 4 => (s.link.current.heads.look h).weight
    let total := (on.map w).sum
    byWeight amount s.claims (s.claimOf h) = amount * w h / total +
      if h = r then amount - (on.map fun h => amount * w h / total).sum else 0 := by
  simp only [byWeight, State.sumOver_claims, first, Option.some.injEq]
  exact congrArg _ (if_congr eq_comm rfl rfl)

/-- Settles O36: the shares in static and in dynamic mode, class by class. -/
theorem sharesByMode : Obligations.SharesByMode := by
  intro s ⟨h₀, on₀⟩ B w cls on total byWeightOf share
  obtain ⟨r, onR, first, before⟩ := State.remainderHead_claims on₀
  have shareOn (h : Fin 4) (hon : s.isOn h = true) : share h = shareOf s.link.current.mode B s.claims (s.claimOf h) :=
    (s.recomputeShares_share h).trans ((s.newShare_eq h).trans (if_pos hon))
  refine ⟨r, onR, before, fun static h hon => ?_, fun dynamic => ?_⟩
  · rw [shareOn h hon, static]
    exact State.byWeight_claims first B h
  · intro f need heads needs given spent R0 R1 highServed R2 normalServed R3 h hon second
    have hNeeds (c : HeadClass) : needsOf f s.claims c = needs c := s.sumOver_claims_class c _
    have hGiven (R : Nat) (c : HeadClass) (h : Fin 4) : givenTo f s.claims R c (s.claimOf h) = given R c h := by
      rw [givenTo, hNeeds]
      rfl
    have hSpent (R : Nat) (c : HeadClass) : givenToAll f s.claims R c = spent R c := by
      refine (s.sumOver_claims_class c _).trans (congrArg List.sum (List.map_congr_left fun h _ => hGiven R c h))
    have start : B - s.claims.length * f = R0 := by
      rw [State.claims_eq, List.length_map]
    have given := dynamicShare_eq s.claims_nodup B (State.claimOf_mem hon)
    simp only [f, start, hNeeds, hSpent, hGiven, State.byWeight_claims first] at given
    rw [shareOn h hon, dynamic]
    exact given.trans (Nat.add_assoc ..).symm

end Sys2Proof.Machine
end

section
/-! SUPPORT. A re-evaluation (R133 to R135), as steps that no longer read the records: what leaves a deferral list, and
the freeing of the deferred REFINE records while the override is active. -/

namespace Sys2Proof.Machine

/-! ### Payments and departures -/

/-- A head pays `n`, and its deferral list keeps the slots that `p` names. -/
def HeadBudget.settle (n : Nat) (p : Fin 64 → Bool) (b : HeadBudget) : HeadBudget :=
  { b with credit := b.credit - n, deferred := b.deferred.filter p }

/-- The budget after head `h` has paid `n` and kept the slots that `p` names. -/
def Budget.settle (h : Fin 4) (n : Nat) (p : Fin 64 → Bool) (b : Budget) : Budget :=
  { b with heads := b.heads.upd h (HeadBudget.settle n p) }

theorem Budget.settle_nothing (h : Fin 4) {p : Fin 64 → Bool} (all : ∀ i, p i = true) (b : Budget) :
    b.settle h 0 p = b := by
  have same : (b.heads.look h).settle 0 p = b.heads.look h := by
    simp [HeadBudget.settle, List.filter_eq_self.2 fun i _ => all i]
  rw [Budget.settle, Table.upd, same, Table.put_look]

theorem Budget.settle_settle (h : Fin 4) (m n : Nat) (p q : Fin 64 → Bool) (b : Budget) :
    (b.settle h m p).settle h n q = b.settle h (m + n) fun i => p i && q i := by
  simp only [Budget.settle, Table.upd, Table.look_put_self, Table.put_put, HeadBudget.settle, Nat.sub_sub,
    List.filter_filter, Bool.and_comm]

/-- A settlement reads what it keeps on the deferral list alone. -/
theorem Budget.settle_congr {h : Fin 4} {n : Nat} {p q : Fin 64 → Bool} {b : Budget}
    (same : ∀ i ∈ (b.heads.look h).deferred, p i = q i) : b.settle h n p = b.settle h n q := by
  simp only [Budget.settle, Table.upd, HeadBudget.settle, List.filter_congr same]

theorem Budget.settle_look (h : Fin 4) (n : Nat) (p : Fin 64 → Bool) (b : Budget) :
    (b.settle h n p).heads.look h = (b.heads.look h).settle n p := Table.look_upd_self ..

theorem State.dropDeferred_budget (s : State) (h : Fin 4) (i : Fin 64) :
    (s.dropDeferred h i).budget = s.budget.settle h 0 fun j => decide (j ≠ i) := rfl

/-! ### The freeing of REFINE records (R135) -/

/-- The slots of a list leave head `h`'s deferral list and are FREE. -/
def State.freeEach (h : Fin 4) (l : List (Fin 64)) (s : State) : State :=
  l.foldl (fun v i => (v.dropDeferred h i).freeSlot i) s

theorem State.freeEach_cons (h : Fin 4) (i : Fin 64) (l : List (Fin 64)) (s : State) :
    s.freeEach h (i :: l) = ((s.dropDeferred h i).freeSlot i).freeEach h l := rfl

theorem State.freeEach_look (h : Fin 4) (l : List (Fin 64)) (s : State) (j : Fin 64) :
    (s.freeEach h l).slots.look j = if j ∈ l then none else s.slots.look j := by
  induction l generalizing s with
  | nil => rfl
  | cons i l ih =>
    have step : ((s.dropDeferred h i).freeSlot i).slots.look j = if j = i then none else s.slots.look j :=
      Table.look_put ..
    rw [State.freeEach_cons, ih, step]
    by_cases own : j = i <;> simp [own]

theorem State.freeEach_budget (h : Fin 4) (l : List (Fin 64)) (s : State) :
    (s.freeEach h l).budget = s.budget.settle h 0 fun j => !(l.contains j) := by
  induction l generalizing s with
  | nil => exact (Budget.settle_nothing h (by simp) _).symm
  | cons i l ih =>
    rw [State.freeEach_cons, ih]
    refine (Budget.settle_settle h 0 0 _ _ s.budget).trans (Budget.settle_congr fun j _ => ?_)
    simp [Bool.not_or]

/-- Nothing but slots and budget. -/
theorem State.freeEach_rest (h : Fin 4) (l : List (Fin 64)) (s : State) :
    s.freeEach h l = { s with slots := (s.freeEach h l).slots, budget := (s.freeEach h l).budget } := by
  induction l generalizing s with
  | nil => rfl
  | cons i l ih => exact ih _

/-- Step 1 frees the REFINE records among distinct deferred records of a head (R133). -/
theorem State.freeRefines_eq {h : Fin 4} {p : Fin 64 → Bool} {l : List (Fin 64)} {s : State} (distinct : l.Nodup)
    (heads : ∀ i ∈ l, ∀ r, s.slots.look i = some r → r.head = h)
    (refines : ∀ i ∈ l, p i = s.holds .deferred (fun r => r.kind == .refine) i) :
    l.foldl (fun s i =>
      match s.slots.look i with
      | some r => if r.state = .deferred && r.kind = .refine then s.freeRefine i r else s
      | none => s) s = s.freeEach h (l.filter p) := by
  induction l generalizing s with
  | nil => rfl
  | cons i l ih =>
    obtain ⟨once, distinct⟩ := List.nodup_cons.1 distinct
    have other : ∀ j ∈ l, j ≠ i := fun j mem same => once (same ▸ mem)
    have named := refines i List.mem_cons_self
    have later := ih (s := s) distinct (fun j mem => heads j (List.mem_cons_of_mem i mem))
      fun j mem => refines j (List.mem_cons_of_mem i mem)
    rw [List.foldl_cons]
    cases hr : s.slots.look i with
    | none =>
      rw [State.holds, hr] at named
      rw [List.filter_cons_of_neg (by simp [named])]
      exact later
    | some r =>
      obtain rfl := heads i List.mem_cons_self r hr
      rw [State.holds, hr] at named
      cases refine : p i with
      | false =>
        rw [refine] at named
        dsimp only at named ⊢
        rw [List.filter_cons_of_neg (by simp [refine]), if_neg (by simpa using named.symm)]
        exact later
      | true =>
        rw [refine] at named
        dsimp only at named ⊢
        rw [List.filter_cons_of_pos refine, if_pos (by simpa using named.symm)]
        have kept : ∀ j ∈ l, (s.freeRefine i r).slots.look j = s.slots.look j := fun j mem =>
          Table.look_put_ne _ (other j mem) _
        refine ih distinct (fun j mem => ?_) fun j mem => ?_
        · rw [kept j mem]
          exact heads j (List.mem_cons_of_mem i mem)
        · rw [State.holds, kept j mem]
          exact refines j (List.mem_cons_of_mem i mem)

end Sys2Proof.Machine
end

section
/-! SUPPORT. The trials of a re-evaluation (R133 step 3): which records are charged, and what the charges make of the
slots, of the budget and of the Desk Link. -/

namespace Sys2Proof.Machine

/-! ### What the send arbiter takes (R145) -/

/-- A tile frame that begins takes the head of a send FIFO. -/
theorem State.sendTile_send (s : State) (l : List HeadClass) : (s.sendTile l).link.send = s.link.send ∨
    ∃ h i rest, s.link.send.look h = i :: rest ∧ (s.sendTile l).link.send = s.link.send.put h rest := by
  induction l with
  | nil => exact .inl rfl
  | cons c l ih =>
    rw [State.sendTile]
    split
    next h _ =>
      split
      next i rest fifo => exact .inr ⟨h, i, rest, fifo, rfl⟩
      next => exact .inl rfl
    next => exact ih

/-- Slot `i` waits in no send FIFO. -/
def State.unsent (i : Fin 64) (s : State) : Prop := ∀ h, i ∉ s.link.send.look h

theorem State.unsent_of_eq {s t : State} {i : Fin 64} (send : t.link.send = s.link.send) (out : s.unsent i) :
    t.unsent i := fun h => by
  rw [send]
  exact out h

theorem State.sendDecision_unsent {s : State} {i : Fin 64} (out : s.unsent i) : s.sendDecision.unsent i := by
  unfold State.sendDecision
  split
  · exact out
  · split
    · exact State.unsent_of_eq (by simp) out
    · split
      · obtain same | ⟨h, j, rest, fifo, taken⟩ := s.sendTile_send [.critical, .high, .normal]
        · exact State.unsent_of_eq same out
        · intro q mem
          rw [taken, Table.look_put] at mem
          split at mem
          · exact out h (fifo ▸ List.mem_cons_of_mem j mem)
          · exact out q mem
      · exact out
  · exact out

/-- The cyclic order of R145 names every head. -/
theorem mem_cyclicOrder : ∀ l h : Fin 4, h ∈ [l + 1, l + 2, l + 3, l] := by decide

/-- The head whose FIFO alone is not empty is the one chosen in its class, and no head in another (R145). -/
theorem State.nextHead_of_alone {s : State} {h : Fin 4} (waits : s.link.send.look h ≠ [])
    (alone : ∀ q, q ≠ h → s.link.send.look q = []) (c : HeadClass) :
    s.nextHead c = if (s.link.current.heads.look h).cls = c then some h else none := by
  have chosen (q : Fin 4) : (decide ((s.link.current.heads.look q).cls = c) && !(s.link.send.look q).isEmpty) = true ↔
      q = h ∧ (s.link.current.heads.look h).cls = c := by
    by_cases own : q = h
    · subst own
      simp [waits]
    · simp [alone q own, own]
  unfold State.nextHead
  extract_lets l
  split
  next own =>
    cases found : [l + 1, l + 2, l + 3, l].find? fun q =>
        decide ((s.link.current.heads.look q).cls = c) && !(s.link.send.look q).isEmpty with
    | none => exact absurd ((chosen h).2 ⟨rfl, own⟩) (List.find?_eq_none.1 found h (mem_cyclicOrder l h))
    | some q =>
      have names := List.find?_some (p := fun q =>
        decide ((s.link.current.heads.look q).cls = c) && !(s.link.send.look q).isEmpty) found
      rw [((chosen q).1 names).1]
  next other => exact List.find?_eq_none.2 fun q _ names => other ((chosen q).1 names).2

/-- The one record that waits in the send FIFOs is the next tile frame (R145). -/
theorem State.sendTile_of_alone {s : State} {h : Fin 4} {i : Fin 64} (waits : s.link.send.look h = [i])
    (alone : ∀ q, q ≠ h → s.link.send.look q = []) : s.sendTile [.critical, .high, .normal] =
      s.beginTile (s.link.current.heads.look h).cls h i [] := by
  have next := State.nextHead_of_alone (waits ▸ List.cons_ne_nil i [] : s.link.send.look h ≠ []) alone
  have own : s.nextHead (s.link.current.heads.look h).cls = some h := (next _).trans (if_pos rfl)
  have other {c : HeadClass} (ne : (s.link.current.heads.look h).cls ≠ c) : s.nextHead c = none :=
    (next c).trans (if_neg ne)
  revert own other
  cases (s.link.current.heads.look h).cls with
  | critical =>
    intro own other
    simp only [State.sendTile, own, waits]
  | high =>
    intro own other
    simp only [State.sendTile, own, waits, other (c := .critical) nofun]
  | normal =>
    intro own other
    simp only [State.sendTile, own, waits, other (c := .critical) nofun, other (c := .high) nofun]

/-! ### One charge -/

/-- A slot leaves head `h`'s deferral list and is charged. -/
def State.chargeDeferred (h : Fin 4) (i : Fin 64) (d : Decision) (s : State) : State :=
  (s.dropDeferred h i).charge h i d

/-- The state between such a charge and its send decision. -/
def State.chargeQueued (h : Fin 4) (i : Fin 64) (d : Decision) (s : State) : State := { s with
  slots := s.slots.upd i (Option.map fun r => { r with state := .queued, decision := some d })
  budget := s.budget.settle h d.frameSize fun j => decide (j ≠ i)
  link := { s.link with send := s.link.send.put h (s.link.send.look h ++ [i]) } }

section
variable (s : State) (h : Fin 4) (i : Fin 64) (d : Decision)

theorem State.chargeDeferred_eq : s.chargeDeferred h i d = (s.chargeQueued h i d).sendDecision := by
  have budget : ((s.dropDeferred h i).updBudget h fun b => { b with credit := b.credit - d.frameSize }).budget =
      s.budget.settle h d.frameSize fun j => decide (j ≠ i) := by
    simp [State.updBudget, State.dropDeferred, Budget.settle, Table.upd, Table.put_put, HeadBudget.settle]
  rw [State.chargeQueued, ← budget]
  rfl

theorem State.chargeDeferred_budget :
    (s.chargeDeferred h i d).budget = s.budget.settle h d.frameSize fun j => decide (j ≠ i) := by
  rw [State.chargeDeferred_eq]
  simp [State.chargeQueued]

/-- With a frame on the wire the record waits (R145). -/
theorem State.chargeDeferred_of_busy (busy : s.link.wire ≠ .idle) : s.chargeDeferred h i d = s.chargeQueued h i d :=
  (s.chargeDeferred_eq h i d).trans (State.sendDecision_of_busy busy)

/-- On an idle wire, with no other frame to send, the record's frame begins (R145). -/
theorem State.chargeDeferred_of_idle (idle : s.link.wire = .idle) (up : s.link.state = .up)
    (control : s.link.control = []) (empty : ∀ q, s.link.send.look q = []) :
    ∃ c, s.chargeDeferred h i d = (s.chargeQueued h i d).beginTile c h i [] := by
  have waits : (s.chargeQueued h i d).link.send.look h = [i] :=
    (Table.look_put_self ..).trans (by rw [empty h, List.nil_append])
  have alone : ∀ q, q ≠ h → (s.chargeQueued h i d).link.send.look q = [] := fun q other =>
    (Table.look_put_ne _ other _).trans (empty q)
  refine ⟨_, (s.chargeDeferred_eq h i d).trans (Eq.trans ?_ (State.sendTile_of_alone waits alone))⟩
  have idle : (s.chargeQueued h i d).link.wire = .idle := idle
  have up : (s.chargeQueued h i d).link.state = .up := up
  have control : (s.chargeQueued h i d).link.control = [] := control
  simp only [State.sendDecision, idle, up, control, if_true]

end

section
variable {s : State} (h : Fin 4) {i j : Fin 64} (d : Decision)

/-- A charge leaves another slot that waits in no send FIFO. -/
theorem State.chargeDeferred_look (other : j ≠ i) (out : s.unsent j) :
    (s.chargeDeferred h i d).slots.look j = s.slots.look j :=
  State.charge_look_of_notQueued (s := s.dropDeferred h i) other out h d

theorem State.chargeDeferred_unsent (other : j ≠ i) (out : s.unsent j) : (s.chargeDeferred h i d).unsent j := by
  rw [State.chargeDeferred_eq]
  refine State.sendDecision_unsent fun q mem => ?_
  have fifo : j ∈ (s.link.send.put h (s.link.send.look h ++ [i])).look q := mem
  rw [Table.look_put] at fifo
  split at fifo
  next => exact (List.mem_append.1 fifo).elim (out h) fun mem => other (List.mem_singleton.1 mem)
  next => exact out q fifo

/-- A FREE slot stays FREE at a charge. -/
theorem State.chargeDeferred_look_none (free : s.slots.look j = none) :
    (s.chargeDeferred h i d).slots.look j = none := by
  rw [State.chargeDeferred_eq]
  refine State.sendDecision_look_none ((Table.look_upd ..).trans ?_)
  split
  next own => rw [← own, free, Option.map_none]
  next => exact free

/-- Slot `i` holds the record `r`, charged with `d`: QUEUED or SENDING (R130, R145). -/
def State.holdsCharged (i : Fin 64) (r : Record) (d : Decision) (s : State) : Prop :=
  ∃ st, (st = .queued ∨ st = .sending) ∧ s.slots.look i = some { r with state := st, decision := some d }

theorem State.chargeDeferred_holdsCharged {r : Record} (hr : s.slots.look i = some r) :
    (s.chargeDeferred h i d).holdsCharged i r d := State.charge_look (s := s.dropDeferred h i) hr h d

/-- A charged record stays so at a charge of another. -/
theorem State.holdsCharged.chargeDeferred {r : Record} {e : Decision} (charged : s.holdsCharged j r e) (other : j ≠ i) :
    (s.chargeDeferred h i d).holdsCharged j r e := by
  obtain ⟨st, state, look⟩ := charged
  have kept : (s.chargeQueued h i d).slots.look j = s.slots.look j := Table.look_upd_ne _ other _
  rw [State.chargeDeferred_eq]
  obtain same | begun := (s.chargeQueued h i d).sendDecision_look j
  · exact ⟨st, state, same.trans (kept.trans look)⟩
  · exact ⟨.sending, .inr rfl, by rw [begun, kept, look, Option.map_some]⟩

end

/-! ### Charges one after another -/

/-- The frame sizes that charges take together. -/
def spentOn (l : List (Fin 64 × Decision)) : Nat := (l.map fun x => x.2.frameSize).sum

/-- The slots of a list are charged in turn. -/
def State.chargeEach (h : Fin 4) (l : List (Fin 64 × Decision)) (s : State) : State :=
  l.foldl (fun v x => v.chargeDeferred h x.1 x.2) s

theorem State.chargeEach_cons (s : State) (h : Fin 4) (x : Fin 64 × Decision) (l : List (Fin 64 × Decision)) :
    s.chargeEach h (x :: l) = (s.chargeDeferred h x.1 x.2).chargeEach h l := rfl

section
variable {s : State} (h : Fin 4) {l : List (Fin 64 × Decision)} {j : Fin 64}

theorem State.chargeEach_budget (s : State) (l : List (Fin 64 × Decision)) : (s.chargeEach h l).budget =
    s.budget.settle h (spentOn l) fun j => !((l.map (·.1)).contains j) := by
  induction l generalizing s with
  | nil => exact (Budget.settle_nothing h (by simp) _).symm
  | cons x l ih =>
    rw [State.chargeEach_cons, ih, State.chargeDeferred_budget, Budget.settle_settle]
    refine Budget.settle_congr fun j _ => ?_
    by_cases own : j = x.1 <;> simp [own]

/-- Charges leave the marks and the counts. -/
theorem State.chargeEach_rest (s : State) (l : List (Fin 64 × Decision)) :
    (s.chargeEach h l).surfaces = s.surfaces ∧ (s.chargeEach h l).counters = s.counters := by
  induction l generalizing s with
  | nil => exact ⟨rfl, rfl⟩
  | cons x l ih =>
    obtain ⟨surfaces, counters⟩ := ih (s.chargeDeferred h x.1 x.2)
    exact ⟨surfaces.trans (by simp [State.chargeDeferred, State.dropDeferred]),
      counters.trans (by simp [State.chargeDeferred, State.dropDeferred])⟩

theorem State.chargeEach_look (other : j ∉ l.map (·.1)) (out : s.unsent j) :
    (s.chargeEach h l).slots.look j = s.slots.look j := by
  induction l generalizing s with
  | nil => rfl
  | cons x l ih =>
    rw [List.map_cons, List.mem_cons, not_or] at other
    obtain ⟨notFirst, other⟩ := other
    exact (ih other (State.chargeDeferred_unsent h x.2 notFirst out)).trans
      (State.chargeDeferred_look h x.2 notFirst out)

theorem State.chargeEach_look_none (free : s.slots.look j = none) : (s.chargeEach h l).slots.look j = none := by
  induction l generalizing s with
  | nil => exact free
  | cons x l ih => exact ih (State.chargeDeferred_look_none h x.2 free)

theorem State.holdsCharged.chargeEach {r : Record} {d : Decision} (charged : s.holdsCharged j r d)
    (other : j ∉ l.map (·.1)) : (s.chargeEach h l).holdsCharged j r d := by
  induction l generalizing s with
  | nil => exact charged
  | cons x l ih =>
    rw [List.map_cons, List.mem_cons, not_or] at other
    exact ih (charged.chargeDeferred h x.2 other.1) other.2

/-- Every slot of the list holds its record charged. -/
theorem State.chargeEach_holdsCharged (distinct : (l.map (·.1)).Nodup) {x : Fin 64 × Decision} (mem : x ∈ l)
    (out : s.unsent x.1) {r : Record} (hr : s.slots.look x.1 = some r) :
    (s.chargeEach h l).holdsCharged x.1 r x.2 := by
  induction l generalizing s with
  | nil => exact absurd mem List.not_mem_nil
  | cons y l ih =>
    rw [List.map_cons, List.nodup_cons] at distinct
    obtain ⟨once, distinct⟩ := distinct
    obtain rfl | mem := List.mem_cons.1 mem
    · exact (State.chargeDeferred_holdsCharged h x.2 hr).chargeEach h once
    · have other : x.1 ≠ y.1 := fun same => once (same ▸ List.mem_map_of_mem mem)
      exact ih distinct mem (State.chargeDeferred_unsent h y.2 other out)
        ((State.chargeDeferred_look h y.2 other out).trans hr)

/-! ### Charges behind a frame on the wire (R144, R145) -/

section
variable (busy : s.link.wire ≠ .idle)

include busy

theorem State.chargeEach_link_of_busy :
    (s.chargeEach h l).link = { s.link with send := s.link.send.put h (s.link.send.look h ++ l.map (·.1)) } := by
  induction l generalizing s with
  | nil => simp [State.chargeEach, Table.put_look]
  | cons x l ih =>
    rw [State.chargeEach_cons, State.chargeDeferred_of_busy s h x.1 x.2 busy, ih (s := s.chargeQueued h x.1 x.2) busy]
    simp [State.chargeQueued, Table.put_put]

theorem State.chargeEach_look_of_busy (other : j ∉ l.map (·.1)) :
    (s.chargeEach h l).slots.look j = s.slots.look j := by
  induction l generalizing s with
  | nil => rfl
  | cons x l ih =>
    rw [List.map_cons, List.mem_cons, not_or] at other
    rw [State.chargeEach_cons, State.chargeDeferred_of_busy s h x.1 x.2 busy]
    exact (ih (s := s.chargeQueued h x.1 x.2) busy other.2).trans (Table.look_upd_ne _ other.1 _)

theorem State.chargeEach_queued_of_busy (distinct : (l.map (·.1)).Nodup) {x : Fin 64 × Decision} (mem : x ∈ l)
    {r : Record} (hr : s.slots.look x.1 = some r) :
    (s.chargeEach h l).slots.look x.1 = some { r with state := .queued, decision := some x.2 } := by
  induction l generalizing s with
  | nil => exact absurd mem List.not_mem_nil
  | cons y l ih =>
    rw [List.map_cons, List.nodup_cons] at distinct
    obtain ⟨once, distinct⟩ := distinct
    rw [State.chargeEach_cons, State.chargeDeferred_of_busy s h y.1 y.2 busy]
    obtain rfl | mem := List.mem_cons.1 mem
    · rw [State.chargeEach_look_of_busy h (s := s.chargeQueued h x.1 x.2) busy once]
      simp [State.chargeQueued, hr]
    · have other : x.1 ≠ y.1 := fun same => once (same ▸ List.mem_map_of_mem mem)
      exact ih (s := s.chargeQueued h y.1 y.2) busy distinct mem ((Table.look_upd_ne _ other _).trans hr)

end

/-- On an idle wire with nothing else to send the first record charged is sent, the others wait (R145). -/
theorem State.chargeEach_of_idle (idle : s.link.wire = .idle) (up : s.link.state = .up)
    (control : s.link.control = []) (empty : ∀ q, s.link.send.look q = []) {x : Fin 64 × Decision}
    (distinct : ((x :: l).map (·.1)).Nodup) {r : Record} (hr : s.slots.look x.1 = some r) :
    (s.chargeEach h (x :: l)).link.wire = .tile x.1 ∧ (s.chargeEach h (x :: l)).link.send.look h = l.map (·.1) ∧
      (s.chargeEach h (x :: l)).slots.look x.1 = some { r with state := .sending, decision := some x.2 } := by
  rw [List.map_cons, List.nodup_cons] at distinct
  obtain ⟨c, begun⟩ := s.chargeDeferred_of_idle h x.1 x.2 idle up control empty
  have busy : (s.chargeDeferred h x.1 x.2).link.wire ≠ .idle := begun ▸ nofun
  rw [State.chargeEach_cons, State.chargeEach_link_of_busy h busy, State.chargeEach_look_of_busy h busy distinct.1,
    begun]
  refine ⟨rfl, ?_, ?_⟩
  · simp [State.beginTile, State.updRecord]
  · simp [State.beginTile, State.updRecord, State.chargeQueued, hr]

end

/-! ### The trials -/

/-- The test of R130 as the model takes it. -/
theorem Record.test_eq {r : Record} {f : CodedForms} (coded : r.coded = some f) (exactOnly : Bool) (credit : Nat) :
    r.test exactOnly credit = affordable r.kind exactOnly credit f := by
  rw [Record.test, coded]
  dsimp only
  split
  next fits => exact (affordable_of_exact fits).symm
  next not =>
    split
    next fits => exact (affordable_of_reduced not fits).symm
    next unfit => exact (affordable_of_none not unfit).symm

theorem Record.test_of_not_coded {r : Record} (coded : r.coded = none) (exactOnly : Bool) (credit : Nat) :
    r.test exactOnly credit = none := by rw [Record.test, coded]

/-- The trials of an order charge the one list and stop before the other: each record is tested against what the ones
before it have left (R133 step 3). -/
structure State.Trials (h : Fin 4) (order : List (Fin 64)) (charged : List (Fin 64 × Decision)) (kept : List (Fin 64))
    (s : State) : Prop where
  split : order = charged.map (·.1) ++ kept
  passes : ∀ k x, charged[k]? = some x → ∃ r, s.slots.look x.1 = some r ∧
    r.test (s.exactOnly h) ((s.budget.heads.look h).credit - spentOn (charged.take k)) = some x.2
  stops : ∀ i r, kept.head? = some i → s.slots.look i = some r →
    r.test (s.exactOnly h) ((s.budget.heads.look h).credit - spentOn charged) = none
  made : s.tryDeferred h order = s.chargeEach h charged

section
variable {s : State} {h : Fin 4} {i : Fin 64} {rest : List (Fin 64)}

/-- A record that does not pass ends the trials. -/
theorem State.trials_of_stop (none : ∀ r, s.slots.look i = some r →
    r.test (s.exactOnly h) (s.budget.heads.look h).credit = none) : s.Trials h (i :: rest) [] (i :: rest) where
  split := rfl
  passes := by simp
  stops j r first hr := by
    obtain rfl := Option.some.inj first
    exact none r hr
  made := by
    rw [State.tryDeferred]
    cases hr : s.slots.look i with
    | none => rfl
    | some r =>
      cases coded : r.coded with
      | none => simp only [coded]; rfl
      | some f =>
        have unfit := (Record.test_eq coded ..).symm.trans (none r hr)
        simp only [coded, unfit]
        rfl

/-- A record that passes is charged, and the trials go on. -/
theorem State.trials_of_pass {r : Record} {d : Decision} {charged : List (Fin 64 × Decision)} {kept : List (Fin 64)}
    (hr : s.slots.look i = some r) (passed : r.test (s.exactOnly h) (s.budget.heads.look h).credit = some d)
    (looks : ∀ j ∈ rest, (s.chargeDeferred h i d).slots.look j = s.slots.look j)
    (later : (s.chargeDeferred h i d).Trials h rest charged kept) :
    s.Trials h (i :: rest) ((i, d) :: charged) kept := by
  have exactOnly : (s.chargeDeferred h i d).exactOnly h = s.exactOnly h := by
    simp [State.exactOnly, State.chargeDeferred_eq, State.chargeQueued]
  have credit (n : Nat) : ((s.chargeDeferred h i d).budget.heads.look h).credit - n =
      (s.budget.heads.look h).credit - (d.frameSize + n) := by
    rw [State.chargeDeferred_budget, Budget.settle_look, HeadBudget.settle, Nat.sub_sub]
  obtain ⟨split, passes, stops, made⟩ := later
  simp only [exactOnly, credit] at passes stops
  refine ⟨by rw [split]; rfl, fun k x hx => ?_, fun j q first hq => ?_, ?_⟩
  · cases k with
    | zero =>
      obtain rfl := Option.some.inj hx
      exact ⟨r, hr, passed⟩
    | succ k =>
      obtain ⟨q, hq, test⟩ := passes k x hx
      have mem : x.1 ∈ rest := split ▸ List.mem_append_left _ (List.mem_map_of_mem (List.mem_of_getElem? hx))
      exact ⟨q, (looks _ mem).symm.trans hq, test⟩
  · have mem : j ∈ rest := split ▸ List.mem_append_right _ (List.mem_of_mem_head? first)
    exact stops j q first ((looks j mem).trans hq)
  · rw [State.chargeEach_cons, ← made, State.tryDeferred, hr]
    cases coded : r.coded with
    | none => exact absurd ((Record.test_of_not_coded coded ..).symm.trans passed) nofun
    | some f =>
      have fits := (Record.test_eq coded ..).symm.trans passed
      simp only [coded, fits]
      rfl

end

theorem State.exists_trials {h : Fin 4} {order : List (Fin 64)} {s : State} (distinct : order.Nodup)
    (out : ∀ i ∈ order, s.unsent i) : ∃ charged kept, s.Trials h order charged kept := by
  induction order generalizing s with
  | nil => exact ⟨[], [], rfl, by simp, by simp, rfl⟩
  | cons i rest ih =>
    obtain ⟨once, distinct⟩ := List.nodup_cons.1 distinct
    have other : ∀ j ∈ rest, j ≠ i := fun j mem same => once (same ▸ mem)
    have outs : ∀ j ∈ rest, s.unsent j := fun j mem => out j (List.mem_cons_of_mem i mem)
    by_cases passes : ∃ r d, s.slots.look i = some r ∧
        r.test (s.exactOnly h) (s.budget.heads.look h).credit = some d
    · obtain ⟨r, d, hr, passed⟩ := passes
      obtain ⟨charged, kept, later⟩ := ih (s := s.chargeDeferred h i d) distinct fun j mem =>
        State.chargeDeferred_unsent h d (other j mem) (outs j mem)
      exact ⟨(i, d) :: charged, kept, State.trials_of_pass hr passed
        (fun j mem => State.chargeDeferred_look h d (other j mem) (outs j mem)) later⟩
    · refine ⟨[], i :: rest, State.trials_of_stop fun r hr => Option.eq_none_iff_forall_ne_some.2 fun d passed => ?_⟩
      exact passes ⟨r, d, hr, passed⟩

end Sys2Proof.Machine
end

section
/-! SUPPORT. The ageing of a re-evaluation (R133 step 4, R134), as steps that read the records once: what it makes of
the slots, the budget, the marks, the count and the event. -/

namespace Sys2Proof.Machine

/-- One more tick of waiting for slot `i`, its record read from a table. -/
def State.ageFrom (records : Table 64 (Option Record)) (i : Fin 64) (s : State) : State :=
  match records.look i with
  | some r => if 31 ≤ r.age then s.abandonDeferral i r
      else { s with slots := s.slots.put i (some { r with age := r.age + 1 }) }
  | none => s

/-- Whether the record of a slot reaches age 32 at this tick, read from a table. -/
def agesOut (records : Table 64 (Option Record)) (i : Fin 64) : Bool :=
  match records.look i with
  | some r => decide (31 ≤ r.age)
  | none => false

section
variable {records : Table 64 (Option Record)} {s : State} {i j : Fin 64} {r : Record}

theorem agesOut_of_look (hr : records.look i = some r) : agesOut records i = decide (31 ≤ r.age) := by
  simp only [agesOut, hr]

theorem exists_of_agesOut (out : agesOut records i = true) : ∃ r, records.look i = some r ∧ 31 ≤ r.age := by
  unfold agesOut at out
  split at out
  next r hr => exact ⟨r, hr, of_decide_eq_true out⟩
  next => exact absurd out Bool.false_ne_true

theorem State.ageFrom_of_agesOut (hr : records.look i = some r) (out : agesOut records i = true) :
    s.ageFrom records i = s.abandonDeferral i r := by
  rw [agesOut_of_look hr, decide_eq_true_eq] at out
  simp only [State.ageFrom, hr, if_pos out]

theorem State.ageFrom_of_not_agesOut (out : agesOut records i = false) : s.ageFrom records i =
    { s with slots := (s.ageFrom records i).slots } := by
  unfold agesOut at out
  unfold State.ageFrom
  split at out
  next r hr => simp only [if_neg (of_decide_eq_false out)]
  next => rfl

theorem State.ageDeferred_eq_ageFrom (same : s.slots.look i = records.look i) :
    s.ageDeferred i = s.ageFrom records i := by
  unfold State.ageFrom
  rw [← same]
  cases hr : s.slots.look i with
  | none => simp only [State.ageDeferred, hr]
  | some r => exact State.ageDeferred_of_look hr

theorem State.ageFrom_look_ne (other : j ≠ i) : (s.ageFrom records i).slots.look j = s.slots.look j := by
  unfold State.ageFrom
  split
  · split
    · simp [State.abandonDeferral, State.release, State.freeSlot, Table.look_put_ne _ other]
    · exact Table.look_put_ne _ other _
  · rfl

theorem State.ageFrom_look_self (hr : records.look i = some r) : (s.ageFrom records i).slots.look i =
    if agesOut records i then none else some { r with age := r.age + 1 } := by
  simp only [State.ageFrom, hr, agesOut_of_look hr, decide_eq_true_eq]
  split
  · simp [State.abandonDeferral, State.release, State.freeSlot]
  · exact Table.look_put_self ..

theorem State.ageFrom_budget {h : Fin 4} (heads : ∀ r, records.look i = some r → r.head = h) :
    (s.ageFrom records i).budget = s.budget.settle h 0 fun j => !(j == i && agesOut records i) := by
  cases out : agesOut records i with
  | false =>
    rw [State.ageFrom_of_not_agesOut out]
    exact (Budget.settle_nothing h (by simp) _).symm
  | true =>
    obtain ⟨r, hr, -⟩ := exists_of_agesOut out
    obtain rfl := heads r hr
    rw [State.ageFrom_of_agesOut hr out]
    refine Eq.trans (b := (s.dropDeferred r.head i).budget) (by simp [State.abandonDeferral]) ?_
    rw [State.dropDeferred_budget]
    refine Budget.settle_congr fun j _ => ?_
    by_cases own : j = i <;> simp [own]

theorem State.onlyMarks_ageFrom (records : Table 64 (Option Record)) (s : State) (i : Fin 64) :
    s.onlyMarks (s.ageFrom records i) := by
  cases out : agesOut records i with
  | false =>
    rw [State.ageFrom_of_not_agesOut out]
    exact State.onlyMarks_of_eq rfl
  | true =>
    obtain ⟨r, hr, -⟩ := exists_of_agesOut out
    rw [State.ageFrom_of_agesOut hr out]
    exact s.onlyMarks_markStale r.surface r.column r.row

/-- An abandonment marks the record's tile (R134). -/
theorem State.ageFrom_isStale {id : Fin 16} {c w : Nat} (tile : s.hasTileAt id c w) :
    (s.ageFrom records i).isStale id c w = true ↔ s.isStale id c w = true ∨ (agesOut records i = true ∧
      ∃ r, records.look i = some r ∧ r.surface = id ∧ r.column = c ∧ r.row = w) := by
  cases out : agesOut records i with
  | false =>
    rw [State.ageFrom_of_not_agesOut out]
    simp [State.isStale]
  | true =>
    obtain ⟨r, hr, -⟩ := exists_of_agesOut out
    rw [State.ageFrom_of_agesOut hr out]
    have marked : (s.abandonDeferral i r).isStale id c w = (s.markStale r.surface r.column r.row).isStale id c w := rfl
    rw [marked, State.isStale_markStale tile]
    simp [hr]

theorem State.ageFrom_abandoned : (s.ageFrom records i).counters.deferralsAbandoned =
    saturatingAdd s.counters.deferralsAbandoned (if agesOut records i then 1 else 0) := by
  cases out : agesOut records i with
  | false =>
    rw [State.ageFrom_of_not_agesOut out]
    exact (saturatingAdd_zero _).symm
  | true =>
    obtain ⟨r, hr, -⟩ := exists_of_agesOut out
    rw [State.ageFrom_of_agesOut hr out]
    rfl

/-- An abandonment raises its event (R134). -/
theorem State.ageFrom_latched (latched : agesOut records i = true ∨ s.latched .deferralAbandoned = true) :
    (s.ageFrom records i).latched .deferralAbandoned = true := by
  cases out : agesOut records i with
  | false =>
    rw [State.ageFrom_of_not_agesOut out]
    exact latched.resolve_left (by simp [out])
  | true =>
    obtain ⟨r, hr, -⟩ := exists_of_agesOut out
    rw [State.ageFrom_of_agesOut hr out]
    exact State.raise_latched ..

/-- Ageing leaves what waits for the wire, and the wire. -/
theorem State.ageFrom_link : (s.ageFrom records i).link.control = s.link.control ∧
    (s.ageFrom records i).link.send = s.link.send ∧ (s.ageFrom records i).link.wire = s.link.wire := by
  unfold State.ageFrom
  split
  · split
    · simp
    · exact ⟨rfl, rfl, rfl⟩
  · exact ⟨rfl, rfl, rfl⟩

end

/-! ### The ageing of a list -/

/-- The slots of a list age in turn, their records read from a table. -/
def State.ageEachFrom (records : Table 64 (Option Record)) (l : List (Fin 64)) (s : State) : State :=
  l.foldl (fun v i => v.ageFrom records i) s

section
variable {records : Table 64 (Option Record)} {s : State} {l : List (Fin 64)}

theorem State.ageEachFrom_cons (i : Fin 64) :
    s.ageEachFrom records (i :: l) = (s.ageFrom records i).ageEachFrom records l := rfl

/-- Distinct slots age by the records that they hold before the ageing. -/
theorem State.ageEach_eq (distinct : l.Nodup) (same : ∀ i ∈ l, s.slots.look i = records.look i) :
    l.foldl (fun v i => v.ageDeferred i) s = s.ageEachFrom records l := by
  induction l generalizing s with
  | nil => rfl
  | cons i l ih =>
    obtain ⟨once, distinct⟩ := List.nodup_cons.1 distinct
    rw [List.foldl_cons, State.ageDeferred_eq_ageFrom (same i List.mem_cons_self)]
    refine ih distinct fun j mem => ?_
    have other : j ≠ i := fun own => once (own ▸ mem)
    exact (State.ageFrom_look_ne other).trans (same j (List.mem_cons_of_mem i mem))

theorem State.ageEachFrom_look_of_notMem {j : Fin 64} (other : j ∉ l) :
    (s.ageEachFrom records l).slots.look j = s.slots.look j := by
  induction l generalizing s with
  | nil => rfl
  | cons i l ih =>
    rw [List.mem_cons, not_or] at other
    exact (ih other.2).trans (State.ageFrom_look_ne other.1)

theorem State.ageEachFrom_look_of_mem (distinct : l.Nodup) {j : Fin 64} (mem : j ∈ l) {r : Record}
    (hr : records.look j = some r) : (s.ageEachFrom records l).slots.look j =
      if agesOut records j then none else some { r with age := r.age + 1 } := by
  induction l generalizing s with
  | nil => exact absurd mem List.not_mem_nil
  | cons i l ih =>
    obtain ⟨once, distinct⟩ := List.nodup_cons.1 distinct
    rw [State.ageEachFrom_cons]
    obtain rfl | mem := List.mem_cons.1 mem
    · rw [State.ageEachFrom_look_of_notMem once, State.ageFrom_look_self hr]
    · exact ih distinct mem

theorem State.ageEachFrom_budget {h : Fin 4} (heads : ∀ i ∈ l, ∀ r, records.look i = some r → r.head = h) :
    (s.ageEachFrom records l).budget = s.budget.settle h 0 fun j => !(l.contains j && agesOut records j) := by
  induction l generalizing s with
  | nil => exact (Budget.settle_nothing h (by simp) _).symm
  | cons i l ih =>
    rw [State.ageEachFrom_cons, ih fun j mem => heads j (List.mem_cons_of_mem i mem),
      State.ageFrom_budget (heads i List.mem_cons_self), Budget.settle_settle]
    refine Budget.settle_congr fun j _ => ?_
    by_cases own : j = i
    · subst own
      by_cases mem : j ∈ l <;> simp [mem]
    · simp [own]

theorem State.ageEachFrom_isStale {id : Fin 16} {c w : Nat} (tile : s.hasTileAt id c w) :
    (s.ageEachFrom records l).isStale id c w = true ↔ s.isStale id c w = true ∨ ∃ i ∈ l, agesOut records i = true ∧
      ∃ r, records.look i = some r ∧ r.surface = id ∧ r.column = c ∧ r.row = w :=
  foldl_isStale (f := fun v i => State.ageFrom records i v) (P := fun _ => True) (fun _ _ _ => trivial)
    (State.onlyMarks_ageFrom records) (fun _ _ _ tile => State.ageFrom_isStale tile) l s trivial tile

theorem State.ageEachFrom_abandoned : (s.ageEachFrom records l).counters.deferralsAbandoned =
    saturatingAdd s.counters.deferralsAbandoned (l.countP (agesOut records ·)) := by
  induction l generalizing s with
  | nil => exact (saturatingAdd_zero _).symm
  | cons i l ih =>
    rw [State.ageEachFrom_cons, ih, State.ageFrom_abandoned, saturatingAdd_add, List.countP_cons, Nat.add_comm]

theorem State.ageEachFrom_latched (latched : (∃ i ∈ l, agesOut records i = true) ∨
    s.latched .deferralAbandoned = true) : (s.ageEachFrom records l).latched .deferralAbandoned = true := by
  induction l generalizing s with
  | nil => exact latched.resolve_left (by simp)
  | cons i l ih =>
    rw [State.ageEachFrom_cons]
    simp only [List.mem_cons, exists_eq_or_imp, or_assoc] at latched
    refine ih ?_
    rcases latched with first | later | before
    · exact .inr (State.ageFrom_latched (.inl first))
    · exact .inl later
    · exact .inr (State.ageFrom_latched (.inr before))

theorem State.ageEachFrom_link : (s.ageEachFrom records l).link.control = s.link.control ∧
    (s.ageEachFrom records l).link.send = s.link.send ∧ (s.ageEachFrom records l).link.wire = s.link.wire := by
  induction l generalizing s with
  | nil => exact ⟨rfl, rfl, rfl⟩
  | cons i l ih =>
    obtain ⟨control, send, wire⟩ := s.ageFrom_link (records := records) (i := i)
    rw [State.ageEachFrom_cons, ← control, ← send, ← wire]
    exact ih

end

end Sys2Proof.Machine
end

section
/-! SUPPORT. A re-evaluation as a whole (R133 to R135, R145): the freeing, the trials in their order and the ageing. -/

namespace Sys2Proof.Machine

/-! ### Where deferred records stand -/

section
variable {s : State} (hs : s.slotsInPlace) {i : Fin 64} {h : Fin 4}

include hs

/-- A deferral list names DEFERRED records of its own head. -/
theorem State.slotsInPlace.deferred (mem : i ∈ (s.budget.heads.look h).deferred) :
    ∃ r, s.slots.look i = some r ∧ r.state = .deferred ∧ h = r.head := by
  obtain ⟨r, hr, spot⟩ := Option.bind_eq_some_iff.1 (((State.slotsInPlace_iff.1 hs).stands i (.deferred h)).1 mem)
  exact ⟨r, hr, Record.spot_eq_some.1 spot⟩

theorem State.slotsInPlace.deferred_nodup (h : Fin 4) : (s.budget.heads.look h).deferred.Nodup :=
  (State.slotsInPlace_iff.1 hs).once (.deferred h)

/-- A record that is not QUEUED waits in no send FIFO. -/
theorem State.slotsInPlace.unsent {r : Record} (hr : s.slots.look i = some r) (notQueued : r.state ≠ .queued) :
    s.unsent i := fun h mem => by
  have stands := ((State.slotsInPlace_iff.1 hs).stands i (.send h)).1 mem
  rw [hr, Option.bind_some, Record.spot_eq_some] at stands
  exact notQueued stands.1

theorem State.slotsInPlace.unsent_of_deferred (mem : i ∈ (s.budget.heads.look h).deferred) : s.unsent i := by
  obtain ⟨r, hr, deferred, -⟩ := hs.deferred mem
  exact hs.unsent hr (by simp [deferred])

end

/-! ### Step 1 -/

/-- Whether step 1 frees the record of a slot in a deferral list (R135). -/
def State.freesRefine (i : Fin 64) (s : State) : Bool :=
  s.budget.overrideActive && s.holds .deferred (fun r => r.kind == .refine) i

/-- The slots that step 1 frees, and those that it leaves. -/
def State.refines (h : Fin 4) (s : State) : List (Fin 64) :=
  (s.budget.heads.look h).deferred.filter fun i => s.freesRefine i

def State.remaining (h : Fin 4) (s : State) : List (Fin 64) :=
  (s.budget.heads.look h).deferred.filter fun i => !(s.freesRefine i)

/-- The state after step 1. -/
def State.freed (h : Fin 4) (s : State) : State := s.freeEach h (s.refines h)

section
variable {s : State} {h : Fin 4} {i : Fin 64}

theorem State.mem_refines : i ∈ s.refines h ↔ i ∈ (s.budget.heads.look h).deferred ∧ s.freesRefine i = true :=
  List.mem_filter

theorem State.mem_remaining :
    i ∈ s.remaining h ↔ i ∈ (s.budget.heads.look h).deferred ∧ s.freesRefine i = false := by
  rw [State.remaining, List.mem_filter, Bool.not_eq_true']

theorem State.step1_eq (hs : s.slotsInPlace) :
    (if s.budget.overrideActive then s.freeDeferredRefines h else s) = s.freed h := by
  cases override : s.budget.overrideActive with
  | false =>
    have none : s.refines h = [] := List.filter_eq_nil_iff.2 fun i _ => by simp [State.freesRefine, override]
    rw [State.freed, none]
    rfl
  | true =>
    refine State.freeRefines_eq (hs.deferred_nodup h) (fun i mem r hr => ?_) fun i _ => ?_
    · obtain ⟨q, hq, -, rfl⟩ := hs.deferred mem
      obtain rfl := Option.some.inj (hq.symm.trans hr)
      rfl
    · rw [State.freesRefine, override, Bool.true_and]

theorem State.freed_look (i : Fin 64) :
    (s.freed h).slots.look i = if i ∈ s.refines h then none else s.slots.look i := State.freeEach_look ..

theorem State.freed_look_of_remaining (mem : i ∈ s.remaining h) : (s.freed h).slots.look i = s.slots.look i := by
  rw [State.freed_look, if_neg]
  intro freed
  have kept := (State.mem_remaining.1 mem).2
  rw [(State.mem_refines.1 freed).2] at kept
  exact absurd kept.symm Bool.false_ne_true

theorem State.freed_budget (s : State) (h : Fin 4) :
    (s.freed h).budget = s.budget.settle h 0 fun i => !(s.freesRefine i) := by
  refine (State.freeEach_budget ..).trans (Budget.settle_congr fun i mem => ?_)
  have same : (s.refines h).contains i = s.freesRefine i := by
    rw [Bool.eq_iff_iff, List.contains_iff_mem, State.mem_refines]
    exact and_iff_right mem
  rw [same]

theorem State.freed_rest (s : State) (h : Fin 4) :
    s.freed h = { s with slots := (s.freed h).slots, budget := (s.freed h).budget } := State.freeEach_rest ..

theorem State.freed_deferred (s : State) (h : Fin 4) : ((s.freed h).budget.heads.look h).deferred = s.remaining h := by
  rw [State.freed_budget, Budget.settle_look]
  rfl

theorem State.freed_credit (s : State) (h : Fin 4) :
    ((s.freed h).budget.heads.look h).credit = (s.budget.heads.look h).credit := by
  rw [State.freed_budget, Budget.settle_look]
  rfl

theorem State.freed_link (s : State) (h : Fin 4) : (s.freed h).link = s.link := by rw [State.freed_rest]

theorem State.freed_unsent (out : s.unsent i) : (s.freed h).unsent i :=
  State.unsent_of_eq (by rw [State.freed_link]) out

/-! ### The order of the trials -/

/-- Whether a slot's record is tried before the others (R133 step 2). -/
def State.triedFirst (h : Fin 4) (i : Fin 64) (s : State) : Bool :=
  match s.pointerTile, s.slots.look i with
  | some (q, pc, pr), some r => s.budget.overrideActive && q == h &&
      decide (pc ≤ r.column + 1 ∧ r.column ≤ pc + 1 ∧ pr ≤ r.row + 1 ∧ r.row ≤ pr + 1)
  | _, _ => false

/-- The slots of a list, those tried first before the others. -/
def State.ordered (h : Fin 4) (l : List (Fin 64)) (s : State) : List (Fin 64) :=
  l.filter (fun i => s.triedFirst h i) ++ l.filter fun i => !(s.triedFirst h i)

theorem State.ordered_perm (s : State) (h : Fin 4) (l : List (Fin 64)) : (s.ordered h l).Perm l :=
  List.filter_append_perm (fun i => s.triedFirst h i) l

theorem State.tryOrder_eq (s : State) (h : Fin 4) :
    s.tryOrder h = s.ordered h (s.budget.heads.look h).deferred := by
  have nobody (none : ∀ i, s.triedFirst h i = false) (l : List (Fin 64)) : l = s.ordered h l := by
    simp [State.ordered, none]
  unfold State.tryOrder
  extract_lets l
  split
  next ph pc pr override pointer =>
    split
    next own =>
      have near (i : Fin 64) : s.slotNear pc pr i = s.triedFirst h i := by
        simp only [State.slotNear, State.triedFirst, pointer, override, own]
        cases s.slots.look i with
        | none => rfl
        | some r => simp [nearTile, Bool.and_assoc, Bool.decide_and]
      simp only [near]
      rfl
    next other =>
      refine nobody (fun i => ?_) l
      simp only [State.triedFirst, pointer]
      split
      next same _ =>
        obtain ⟨rfl, -⟩ := Prod.mk.inj (Option.some.inj same)
        simp [other]
      next => rfl
  next none =>
    refine nobody (fun i => ?_) l
    unfold State.triedFirst
    split
    next q pc pr r pointer _ =>
      cases override : s.budget.overrideActive with
      | false => simp
      | true => exact absurd pointer (none q pc pr override)
    next => rfl

/-- Step 1 leaves the order of the slots that it leaves. -/
theorem State.freed_tryOrder (s : State) (h : Fin 4) : (s.freed h).tryOrder h = s.ordered h (s.remaining h) := by
  have pointer : (s.freed h).pointerTile = s.pointerTile := by
    rw [State.freed_rest]
    rfl
  have override : (s.freed h).budget.overrideActive = s.budget.overrideActive := by
    rw [State.freed_budget]
    rfl
  have same : ∀ i ∈ s.remaining h, (s.freed h).triedFirst h i = s.triedFirst h i := fun i mem => by
    simp only [State.triedFirst, pointer, override, State.freed_look_of_remaining mem]
  rw [State.tryOrder_eq, State.freed_deferred, State.ordered, State.ordered, List.filter_congr same,
    List.filter_congr fun i mem => congrArg (!·) (same i mem)]

end

/-! ### The three steps together -/

theorem not_contains_iff {l : List (Fin 64)} {i : Fin 64} : (!(l.contains i)) = true ↔ i ∉ l := by
  rw [Bool.not_eq_true', ← Bool.not_eq_true, List.contains_iff_mem]

/-- The slots that still wait after the trials. -/
def State.waiting (h : Fin 4) (charged : List (Fin 64 × Decision)) (s : State) : List (Fin 64) :=
  (s.remaining h).filter fun i => !((charged.map (·.1)).contains i)

/-- The state after the trials. -/
def State.tried (h : Fin 4) (charged : List (Fin 64 × Decision)) (s : State) : State :=
  (s.freed h).chargeEach h charged

section
variable {s : State} {h : Fin 4} {charged : List (Fin 64 × Decision)} {kept : List (Fin 64)} {i : Fin 64}

theorem State.tried_budget (s : State) (h : Fin 4) (charged : List (Fin 64 × Decision)) :
    (s.tried h charged).budget = s.budget.settle h (spentOn charged) fun i =>
      !(s.freesRefine i) && !((charged.map (·.1)).contains i) := by
  rw [State.tried, State.chargeEach_budget, State.freed_budget, Budget.settle_settle, Nat.zero_add]

theorem State.tried_deferred (s : State) (h : Fin 4) (charged : List (Fin 64 × Decision)) :
    ((s.tried h charged).budget.heads.look h).deferred = s.waiting h charged := by
  rw [State.tried, State.chargeEach_budget, Budget.settle_look, HeadBudget.settle, State.freed_deferred]
  rfl

theorem State.mem_waiting : i ∈ s.waiting h charged ↔ i ∈ s.remaining h ∧ i ∉ charged.map (·.1) := by
  rw [State.waiting, List.mem_filter, not_contains_iff]

variable (hs : s.slotsInPlace) (split : s.ordered h (s.remaining h) = charged.map (·.1) ++ kept)

include hs

theorem State.slotsInPlace.remaining_nodup (h : Fin 4) : (s.remaining h).Nodup := (hs.deferred_nodup h).filter _

/-- A slot that waits holds its record as it was. -/
theorem State.tried_look_of_waiting (mem : i ∈ s.waiting h charged) :
    (s.tried h charged).slots.look i = s.slots.look i := by
  obtain ⟨remains, notCharged⟩ := State.mem_waiting.1 mem
  have out := State.freed_unsent (h := h) (hs.unsent_of_deferred (State.mem_remaining.1 remains).1)
  exact (State.chargeEach_look h notCharged out).trans (State.freed_look_of_remaining remains)

include split

theorem State.split_nodup : (charged.map (·.1) ++ kept).Nodup := by
  rw [← split, (s.ordered_perm h _).nodup_iff]
  exact hs.remaining_nodup h

theorem State.waiting_perm : (s.waiting h charged).Perm kept := by
  have nodup := State.split_nodup hs split
  rw [List.nodup_append'] at nodup
  obtain ⟨-, -, apart⟩ := nodup
  have all := (s.ordered_perm h (s.remaining h)).filter fun i => !((charged.map (·.1)).contains i)
  have gone : (charged.map (·.1)).filter (fun i => !((charged.map (·.1)).contains i)) = [] :=
    List.filter_eq_nil_iff.2 fun i mem notCharged => not_contains_iff.1 notCharged mem
  have stay : kept.filter (fun i => !((charged.map (·.1)).contains i)) = kept :=
    List.filter_eq_self.2 fun i mem => not_contains_iff.2 fun paid => apart paid mem
  rw [split, List.filter_append, gone, stay, List.nil_append] at all
  exact all.symm

end

end Sys2Proof.Machine
end

section
/-! SUPPORT. What a re-evaluation makes of the budget, of each slot, of the marks and of the Desk Link (R133 to R135,
R145). -/

namespace Sys2Proof.Machine

/-- A re-evaluation as its trials leave it: step 1, the charges, the ageing. -/
def State.settled (h : Fin 4) (charged : List (Fin 64 × Decision)) (s : State) : State :=
  (s.tried h charged).ageEachFrom s.slots (s.waiting h charged)

section
variable {s : State} {h : Fin 4} {charged : List (Fin 64 × Decision)} {kept : List (Fin 64)}

theorem State.reevaluate_eq (hs : s.slotsInPlace)
    (trials : (s.freed h).Trials h (s.ordered h (s.remaining h)) charged kept) :
    s.reevaluate h = s.settled h charged := by
  have made : (s.freed h).tryDeferred h ((s.freed h).tryOrder h) = s.tried h charged := by
    rw [State.freed_tryOrder]
    exact trials.made
  unfold State.reevaluate
  dsimp only
  rw [State.step1_eq hs, made, State.tried_deferred]
  exact State.ageEach_eq ((hs.remaining_nodup h).filter _) fun i mem => State.tried_look_of_waiting hs mem

variable (hs : s.slotsInPlace) (split : s.ordered h (s.remaining h) = charged.map (·.1) ++ kept) {i : Fin 64}

include hs split

theorem State.mem_waiting_iff_kept : i ∈ s.waiting h charged ↔ i ∈ kept := (State.waiting_perm hs split).mem_iff

omit hs in
theorem State.mem_remaining_of_charged (mem : i ∈ charged.map (·.1)) : i ∈ s.remaining h :=
  (s.ordered_perm h _).mem_iff.1 (split ▸ List.mem_append_left kept mem)

theorem State.unsent_of_charged (mem : i ∈ charged.map (·.1)) : (s.freed h).unsent i :=
  State.freed_unsent (hs.unsent_of_deferred (State.mem_remaining.1 (State.mem_remaining_of_charged split mem)).1)

theorem State.charged_nodup : (charged.map (·.1)).Nodup := (List.nodup_append.1 (State.split_nodup hs split)).1

/-- A slot that does not wait is as the trials leave it. -/
theorem State.settled_look (notKept : i ∉ kept) :
    (s.settled h charged).slots.look i = (s.tried h charged).slots.look i :=
  State.ageEachFrom_look_of_notMem fun mem => notKept ((State.mem_waiting_iff_kept hs split).1 mem)

theorem State.charged_notMem_kept (mem : i ∈ charged.map (·.1)) : i ∉ kept := fun waits =>
  (List.nodup_append'.1 (State.split_nodup hs split)).2.2 mem waits

omit hs in
theorem State.mem_remaining_of_kept (mem : i ∈ kept) : i ∈ s.remaining h :=
  (s.ordered_perm h _).mem_iff.1 (split ▸ List.mem_append_right _ mem)

/-! ### The budget -/

theorem State.settled_budget : (s.settled h charged).budget = s.budget.settle h (spentOn charged) fun i =>
    kept.contains i && !(agesOut s.slots i) := by
  have heads : ∀ i ∈ s.waiting h charged, ∀ r, s.slots.look i = some r → r.head = h := fun i mem r hr => by
    obtain ⟨q, hq, -, rfl⟩ := hs.deferred (State.mem_remaining.1 (State.mem_waiting.1 mem).1).1
    obtain rfl := Option.some.inj (hq.symm.trans hr)
    rfl
  rw [State.settled, State.ageEachFrom_budget heads, State.tried_budget, Budget.settle_settle, Nat.add_zero]
  refine Budget.settle_congr fun i mem => ?_
  have waits : (s.waiting h charged).contains i = kept.contains i := by
    rw [Bool.eq_iff_iff, List.contains_iff_mem, List.contains_iff_mem, State.mem_waiting_iff_kept hs split]
  have stays : (!(s.freesRefine i) && !((charged.map (·.1)).contains i)) = kept.contains i := by
    rw [Bool.eq_iff_iff, List.contains_iff_mem, ← State.mem_waiting_iff_kept hs split, State.mem_waiting,
      Bool.and_eq_true, not_contains_iff, State.mem_remaining, Bool.not_eq_true', and_iff_right mem]
  rw [waits, stays]
  cases kept.contains i <;> simp

/-! ### The slots -/

/-- Step 1 frees its slots for good. -/
theorem State.settled_look_of_freed (freed : i ∈ s.refines h) : (s.settled h charged).slots.look i = none := by
  have notRemaining : i ∉ s.remaining h := fun mem => by
    have stays := (State.mem_remaining.1 mem).2
    rw [(State.mem_refines.1 freed).2] at stays
    exact absurd stays.symm Bool.false_ne_true
  rw [State.settled_look hs split (notRemaining ∘ State.mem_remaining_of_kept split)]
  exact State.chargeEach_look_none h ((State.freed_look i).trans (if_pos freed))

/-- A charged record is QUEUED or SENDING. -/
theorem State.settled_holdsCharged {x : Fin 64 × Decision} (mem : x ∈ charged) {r : Record}
    (hr : s.slots.look x.1 = some r) : (s.settled h charged).holdsCharged x.1 r x.2 := by
  have slot := List.mem_map_of_mem (f := (·.1)) mem
  rw [State.holdsCharged, State.settled_look hs split (State.charged_notMem_kept hs split slot)]
  exact State.chargeEach_holdsCharged h (State.charged_nodup hs split) mem (State.unsent_of_charged hs split slot)
    ((State.freed_look_of_remaining (State.mem_remaining_of_charged split slot)).trans hr)

/-- A record that is still deferred ages. -/
theorem State.settled_look_of_kept (mem : i ∈ kept) {r : Record} (hr : s.slots.look i = some r) :
    (s.settled h charged).slots.look i = if agesOut s.slots i then none else some { r with age := r.age + 1 } :=
  State.ageEachFrom_look_of_mem ((hs.remaining_nodup h).filter _) ((State.mem_waiting_iff_kept hs split).2 mem) hr

/-- A slot outside the deferral list keeps its record, unless that is QUEUED. -/
theorem State.settled_look_of_not_deferred (other : i ∉ (s.budget.heads.look h).deferred) (out : s.unsent i) :
    (s.settled h charged).slots.look i = s.slots.look i := by
  have notRemaining : i ∉ s.remaining h := other ∘ And.left ∘ State.mem_remaining.1
  have notCharged : i ∉ charged.map (·.1) := notRemaining ∘ State.mem_remaining_of_charged split
  rw [State.settled_look hs split (notRemaining ∘ State.mem_remaining_of_kept split)]
  refine (State.chargeEach_look h notCharged (State.freed_unsent out)).trans ((State.freed_look i).trans (if_neg ?_))
  exact other ∘ And.left ∘ State.mem_refines.1

theorem State.settled_look_none (free : s.slots.look i = none) : (s.settled h charged).slots.look i = none := by
  have notRemaining : i ∉ s.remaining h := fun mem => by
    obtain ⟨r, hr, -⟩ := hs.deferred (State.mem_remaining.1 mem).1
    exact absurd (hr.symm.trans free) nofun
  rw [State.settled_look hs split (notRemaining ∘ State.mem_remaining_of_kept split)]
  refine State.chargeEach_look_none h ((State.freed_look i).trans ?_)
  rw [free, ite_self]

/-! ### The marks, the count and the event -/

omit hs split in
theorem State.tried_rest (s : State) (h : Fin 4) (charged : List (Fin 64 × Decision)) :
    (s.tried h charged).surfaces = s.surfaces ∧ (s.tried h charged).counters = s.counters := by
  obtain ⟨surfaces, counters⟩ := State.chargeEach_rest h (s.freed h) charged
  rw [State.freed_rest] at surfaces counters
  exact ⟨by rw [State.tried, State.freed_rest, surfaces], by rw [State.tried, State.freed_rest, counters]⟩

theorem State.settled_isStale {id : Fin 16} {c w : Nat} (tile : s.hasTileAt id c w) :
    (s.settled h charged).isStale id c w = true ↔ s.isStale id c w = true ∨ ∃ i ∈ kept, agesOut s.slots i = true ∧
      ∃ r, s.slots.look i = some r ∧ r.surface = id ∧ r.column = c ∧ r.row = w := by
  obtain ⟨surfaces, -⟩ := s.tried_rest h charged
  have triedTile := State.hasTileAt_of_onlyMarks (State.onlyMarks_of_eq surfaces) tile
  rw [State.settled, State.ageEachFrom_isStale triedTile, State.isStale_of_surfaces surfaces]
  simp only [State.mem_waiting_iff_kept hs split]

theorem State.settled_abandoned : (s.settled h charged).counters.deferralsAbandoned =
    saturatingAdd s.counters.deferralsAbandoned (kept.countP fun i => agesOut s.slots i) := by
  obtain ⟨-, counters⟩ := s.tried_rest h charged
  rw [State.settled, State.ageEachFrom_abandoned, counters, (State.waiting_perm hs split).countP_eq]

theorem State.settled_latched (out : ∃ i ∈ kept, agesOut s.slots i = true) :
    (s.settled h charged).latched .deferralAbandoned = true := by
  obtain ⟨i, mem, out⟩ := out
  exact State.ageEachFrom_latched (.inl ⟨i, (State.mem_waiting_iff_kept hs split).2 mem, out⟩)

/-! ### The Desk Link -/

/-- Behind a frame on the wire the charged records wait, in the order tried (R144, R145). -/
theorem State.settled_of_busy (busy : s.link.wire ≠ .idle) :
    (s.settled h charged).link.wire = s.link.wire ∧ (s.settled h charged).link.control = s.link.control ∧
      (s.settled h charged).link.send = s.link.send.put h (s.link.send.look h ++ charged.map (·.1)) ∧
      ∀ x ∈ charged, ∃ r, (s.settled h charged).slots.look x.1 = some r ∧ r.state = .queued := by
  obtain ⟨control, send, wire⟩ :=
    (s.tried h charged).ageEachFrom_link (records := s.slots) (l := s.waiting h charged)
  have freedBusy : (s.freed h).link.wire ≠ .idle := by rwa [State.freed_link]
  have link := State.chargeEach_link_of_busy h (l := charged) freedBusy
  rw [State.freed_link] at link
  refine ⟨wire.trans (congrArg Link.wire link :), control.trans (congrArg Link.control link :),
    send.trans (congrArg Link.send link :), fun x mem => ?_⟩
  have slot := List.mem_map_of_mem (f := (·.1)) mem
  have remains := State.mem_remaining_of_charged split slot
  obtain ⟨r, hr, -⟩ := hs.deferred (State.mem_remaining.1 remains).1
  rw [State.settled_look hs split (State.charged_notMem_kept hs split slot)]
  exact ⟨_, State.chargeEach_queued_of_busy h freedBusy (State.charged_nodup hs split) mem
    ((State.freed_look_of_remaining remains).trans hr), rfl⟩

/-- On an idle wire with nothing else to send the first of them is sent (R145). -/
theorem State.settled_of_idle (idle : s.link.wire = .idle) (up : s.link.state = .up) (empty : s.link.control = [])
    (none : ∀ q, s.link.send.look q = []) {x : Fin 64 × Decision} {more : List (Fin 64 × Decision)}
    (first : charged = x :: more) :
    (s.settled h charged).link.wire = .tile x.1 ∧ (s.settled h charged).link.send.look h = more.map (·.1) ∧
      ∃ r, (s.settled h charged).slots.look x.1 = some r ∧ r.state = .sending := by
  obtain ⟨-, send, wire⟩ :=
    (s.tried h charged).ageEachFrom_link (records := s.slots) (l := s.waiting h charged)
  have slot : x.1 ∈ charged.map (·.1) := by simp [first]
  have remains := State.mem_remaining_of_charged split slot
  obtain ⟨r, hr, -⟩ := hs.deferred (State.mem_remaining.1 remains).1
  have distinct := State.charged_nodup hs split
  have look := (State.freed_look_of_remaining remains).trans hr
  rw [State.settled_look hs split (State.charged_notMem_kept hs split slot), State.settled, send, wire, State.tried]
  rw [first] at distinct ⊢
  rw [← State.freed_link s h] at idle up empty none
  obtain ⟨onWire, queued, sending⟩ := State.chargeEach_of_idle h idle up empty none distinct look
  exact ⟨onWire, queued, _, sending, rfl⟩

end

/-- Settles O38: the three steps of a re-evaluation, the records charged being those that the trials charge. -/
theorem reevaluation : Obligations.Reevaluation := by
  intro s h hs t b record freed left near order spent aged
  have out : ∀ i ∈ s.ordered h (s.remaining h), (s.freed h).unsent i := fun i mem => State.freed_unsent
    (hs.unsent_of_deferred (State.mem_remaining.1 ((s.ordered_perm h _).mem_iff.1 mem)).1)
  have distinct := ((s.ordered_perm h _).nodup_iff).2 (hs.remaining_nodup h)
  obtain ⟨charged, kept, trials⟩ := State.exists_trials (s := s.freed h) (h := h) distinct out
  have whole : t = s.settled h charged := State.reevaluate_eq hs trials
  obtain ⟨split, passes, stops, -⟩ := trials
  have exactOnly : (s.freed h).exactOnly h = s.exactOnly h := by rw [State.exactOnly, State.freed_link, State.exactOnly]
  rw [exactOnly, State.freed_credit] at passes stops
  rw [whole]
  refine ⟨charged, kept, split, fun k x hx => ?_, fun i r first hr => ?_, State.settled_budget hs split,
    fun i r hr => ⟨fun frees mem => State.settled_look_of_freed hs split (State.mem_refines.2 ⟨mem, frees⟩),
      fun d mem => State.settled_holdsCharged hs split mem hr, fun mem => State.settled_look_of_kept hs split mem hr,
      fun other notQueued => ?_⟩,
    fun i free => State.settled_look_none hs split free, fun id f hf marks c w tile => ?_,
    State.settled_abandoned hs split, State.settled_latched hs split, State.settled_of_busy hs split,
    fun x more idle up control none first => State.settled_of_idle hs split idle up control none first⟩
  · obtain ⟨r, hr, test⟩ := passes k x hx
    have slot := List.mem_map_of_mem (f := (·.1)) (List.mem_of_getElem? hx)
    rw [State.freed_look_of_remaining (State.mem_remaining_of_charged split slot)] at hr
    exact ⟨r, hr, test⟩
  · have remains := State.mem_remaining_of_kept split (List.mem_of_mem_head? first)
    exact stops i r first ((State.freed_look_of_remaining remains).trans hr)
  · exact (State.settled_look_of_not_deferred hs split other (hs.unsent hr notQueued)).trans hr
  · rw [State.settled_isStale hs split ⟨f, hf, marks, tile⟩]
    refine or_congr_right (exists_congr fun i => ?_)
    exact ⟨fun ⟨mem, out, r, rest⟩ => ⟨r, mem, out, rest⟩, fun ⟨r, mem, out, rest⟩ => ⟨mem, out, r, rest⟩⟩

end Sys2Proof.Machine
end

end

section
-- One after another, as the theorems of the sections before this one, for the same limit.
set_option Elab.async false

section
/-! SUPPORT. The control FIFO (R143): the kinds of frame, the newest ANSWER, and the offer of a frame of which one is
queued at most. -/

namespace Sys2Proof.Machine

/-! ### Kinds of frame -/

/-- A frame less its contents: two frames are of one kind when these agree, HEAD frames when they are for one head. -/
def ControlFrame.kind (f : ControlFrame) : ControlFrame :=
  match f with
  | .hello _ => .hello 0
  | .head d => .head { head := d.head, state := .off, flipSet := [], geometry := none, period := 0 }
  | .lamp _ => .lamp 0
  | .status => .status
  | .answer _ _ _ => .answer 0 false 0

theorem ControlFrame.kind_head_inj {d e : HeadFrame} :
    (ControlFrame.head d).kind = (ControlFrame.head e).kind ↔ d.head = e.head := by simp [ControlFrame.kind]

theorem ControlFrame.isHead_eq (d : HeadFrame) (g : ControlFrame) :
    g.isHead d.head = decide (g.kind = (ControlFrame.head d).kind) := by
  cases g with
  | head e => rw [ControlFrame.isHead, beq_eq_decide, decide_eq_decide, ControlFrame.kind_head_inj]
  | _ => rfl

theorem ControlFrame.isLamp_eq (w : Byte) (g : ControlFrame) :
    g.isLamp = decide (g.kind = (ControlFrame.lamp w).kind) := by
  cases g <;> rfl

theorem ControlFrame.beq_status (g : ControlFrame) : (g == .status) = decide (g.kind = ControlFrame.status.kind) := by
  cases g <;> rfl

theorem ControlFrame.isHello_eq (n : Nat) (g : ControlFrame) :
    g.isHello = decide (g.kind = (ControlFrame.hello n).kind) := by
  cases g <;> rfl

theorem ControlFrame.isAnswer_iff {g : ControlFrame} : g.isAnswer = true ↔ ∃ id v x, g = .answer id v x := by
  cases g <;> simp [ControlFrame.isAnswer]

/-! ### The newest ANSWER -/

/-- A FIFO with an ANSWER has a newest one. -/
theorem exists_newestAnswer {l : List ControlFrame} (some : ∃ g ∈ l, g.isAnswer = true) :
    ∃ a id v x b, l = a ++ .answer id v x :: b ∧ ∀ g ∈ b, g.isAnswer = false := by
  induction l with
  | nil => simp at some
  | cons f l ih =>
    by_cases later : ∃ g ∈ l, g.isAnswer = true
    · obtain ⟨a, id, v, x, b, rfl, newest⟩ := ih later
      exact ⟨f :: a, id, v, x, b, rfl, newest⟩
    · have none : ∀ g ∈ l, g.isAnswer = false := by simpa using later
      obtain ⟨id, v, x, rfl⟩ := ControlFrame.isAnswer_iff.1 ((List.exists_mem_cons_iff ..).1 some |>.resolve_right later)
      exact ⟨[], id, v, x, l, rfl, none⟩

/-! ### A frame joins the tail -/

section
variable {s : State} {f : ControlFrame}

theorem State.pushControl_of_room (room : s.link.control.length < 16) :
    s.pushControl f = { s with link := { s.link with control := s.link.control ++ [f] } } := if_pos room

/-- At 16 frames the newest ANSWER is removed and counted. -/
theorem State.pushControl_of_full {a b : List ControlFrame} {id : BitVec 16} {v : Bool} {x : BitVec 64}
    (full : 16 ≤ s.link.control.length) (control : s.link.control = a ++ .answer id v x :: b)
    (newest : ∀ g ∈ b, g.isAnswer = false) :
    s.pushControl f = { s with
      link := { s.link with control := a ++ b ++ [f] }
      counters := s.counters.store .answersDropped (saturatingAdd s.counters.answersDropped 1) } := by
  unfold State.pushControl
  rw [if_neg (Nat.not_lt.2 full), control, dropNewestAnswer_append a id v x b newest]
  rfl

end

/-! ### An offered HEAD, LAMP or STATUS frame -/

/-- The FIFO with a frame in the place of each frame of its kind. -/
def replaceKind (f : ControlFrame) (l : List ControlFrame) : List ControlFrame :=
  l.map fun g => if g.kind = f.kind then f else g

/-- A HEAD, LAMP or STATUS frame is offered (R143): while UP it takes the place of a queued frame of its kind, or joins
the tail. -/
def State.offerSingle (f : ControlFrame) (s : State) : State :=
  if s.link.state = .up then
    if ∃ g ∈ s.link.control, g.kind = f.kind then
      { s with link := { s.link with control := replaceKind f s.link.control } }
    else s.pushControl f
  else s

section
variable {s : State} {f : ControlFrame}

theorem State.offerSingle_of_not_up (down : s.link.state ≠ .up) : s.offerSingle f = s := if_neg down

theorem State.offerSingle_of_queued (up : s.link.state = .up) (queued : ∃ g ∈ s.link.control, g.kind = f.kind) :
    s.offerSingle f = { s with link := { s.link with control := replaceKind f s.link.control } } := by
  rw [State.offerSingle, if_pos up, if_pos queued]

theorem State.offerSingle_of_none (up : s.link.state = .up) (none : ∀ g ∈ s.link.control, g.kind ≠ f.kind) :
    s.offerSingle f = s.pushControl f := by
  rw [State.offerSingle, if_pos up, if_neg (by simpa using none)]

end

theorem State.headFrame_head (h : Fin 4) (s : State) : (s.headFrame h).head = h := by
  simp only [State.headFrame]
  split <;> rfl

/-- The three offers are one operation. -/
theorem State.offerHead_eq (h : Fin 4) (s : State) : s.offerHead h = s.offerSingle (.head (s.headFrame h)) := by
  have own : ∀ g, ControlFrame.isHead h g = decide (g.kind = (ControlFrame.head (s.headFrame h)).kind) := fun g => by
    rw [← ControlFrame.isHead_eq, State.headFrame_head]
  simp only [State.offerHead, State.offerSingle, replaceKind, own, List.any_eq_true, decide_eq_true_eq]
  cases s.link.state <;> rfl

theorem State.offerLamp_eq (w : Byte) (s : State) : s.offerLamp w = s.offerSingle (.lamp w) := by
  simp only [State.offerLamp, State.offerSingle, replaceKind, ControlFrame.isLamp_eq w, List.any_eq_true,
    decide_eq_true_eq]
  cases s.link.state <;> rfl

/-- A STATUS frame has no contents while it is queued: the one offered is the one that waits. -/
theorem replaceKind_status (l : List ControlFrame) : replaceKind .status l = l := by
  refine List.map_id'' (fun g => ?_) l
  split
  next same => exact (eq_of_beq ((ControlFrame.beq_status g).trans (decide_eq_true same))).symm
  next => rfl

theorem State.offerStatus_eq (s : State) : s.offerStatus = s.offerSingle .status := by
  have queued : s.link.control.contains .status = true ↔ ∃ g ∈ s.link.control, g.kind = ControlFrame.status.kind := by
    rw [← List.any_beq', List.any_eq_true]
    simp only [ControlFrame.beq_status, decide_eq_true_eq]
  have same : { s with link := { s.link with control := replaceKind .status s.link.control } } = s := by
    rw [replaceKind_status]
  simp only [State.offerStatus, State.offerSingle, same, queued]
  cases s.link.state <;> rfl

/-! ### The send decision -/

/-- A send decision takes a frame from the head of the FIFO or none (R145). -/
theorem State.sendDecision_control (s : State) : s.sendDecision.link.control.Sublist s.link.control := by
  unfold State.sendDecision
  split
  · exact .refl _
  · split
    next f rest control =>
      simp [control]
    next =>
      split
      · simp
      · exact .refl _
  · exact .refl _

end Sys2Proof.Machine
end

section
/-! SUPPORT. The bounds of the control FIFO (R143): a frame that is offered, a frame that begins and an emptied FIFO keep
them. -/

namespace Sys2Proof.Machine

/-- How many frames of a kind are queued at most while UP. -/
def ControlFrame.most (k : ControlFrame) : Nat :=
  match k with
  | .hello _ => 0
  | .answer _ _ _ => 16
  | _ => 1

/-- The bounds while UP: at most 16 frames, and of each kind as many as R143 gives. -/
def upFifoBounded (l : List ControlFrame) : Prop :=
  l.length ≤ 16 ∧ ∀ k : ControlFrame, (l.map ControlFrame.kind).count k ≤ k.most

theorem count_kind (l : List ControlFrame) (f : ControlFrame) :
    (l.map ControlFrame.kind).count f.kind = l.countP fun g => decide (g.kind = f.kind) := by
  rw [List.count, List.countP_map]
  exact List.countP_congr fun g _ => by simp

/-- The bounds kind by kind, as the invariant says them. -/
theorem upFifoBounded_iff (l : List ControlFrame) : upFifoBounded l ↔
    l.length ≤ 16 ∧ l.countP ControlFrame.isHello = 0 ∧ (∀ h : Fin 4, l.countP (ControlFrame.isHead h) ≤ 1) ∧
      l.countP ControlFrame.isLamp ≤ 1 ∧ l.count .status ≤ 1 := by
  have hello : l.countP ControlFrame.isHello = (l.map ControlFrame.kind).count (ControlFrame.hello 0).kind := by
    rw [count_kind, funext (ControlFrame.isHello_eq 0)]
  have head : ∀ h, l.countP (ControlFrame.isHead h) = (l.map ControlFrame.kind).count
      (ControlFrame.head { head := h, state := .off, flipSet := [], geometry := none, period := 0 }).kind := fun h => by
    rw [count_kind, ← funext (ControlFrame.isHead_eq _)]
  have lamp : l.countP ControlFrame.isLamp = (l.map ControlFrame.kind).count (ControlFrame.lamp 0).kind := by
    rw [count_kind, funext (ControlFrame.isLamp_eq 0)]
  have status : l.count .status = (l.map ControlFrame.kind).count ControlFrame.status.kind := by
    rw [count_kind, List.count, funext ControlFrame.beq_status]
  rw [hello, lamp, status]
  simp only [head]
  refine and_congr_right fun room => ⟨fun most => ?_, fun ⟨noHello, heads, lamps, statuses⟩ k => ?_⟩
  · exact ⟨Nat.le_zero.1 (most (.hello 0)), fun h => most _, most (.lamp 0), most .status⟩
  · by_cases present : k ∈ l.map ControlFrame.kind
    · obtain ⟨f, -, rfl⟩ := List.mem_map.1 present
      cases f with
      | hello => exact noHello.le
      | head d => exact heads d.head
      | lamp => exact lamps
      | status => exact statuses
      | answer => exact List.count_le_length.trans ((List.length_map _).trans_le room)
    · rw [List.count_eq_zero.2 present]
      exact Nat.zero_le _

theorem upFifoBounded_nil : upFifoBounded [] := ⟨Nat.zero_le _, fun _ => Nat.zero_le _⟩

/-- A FIFO that loses frames. -/
theorem upFifoBounded.sublist {l l' : List ControlFrame} (hl : upFifoBounded l) (sub : l'.Sublist l) :
    upFifoBounded l' := by
  obtain ⟨room, most⟩ := hl
  exact ⟨sub.length_le.trans room, fun k => ((sub.map _).count_le k).trans (most k)⟩

/-- A frame takes the place of one of its kind. -/
theorem upFifoBounded.replaceKind {l : List ControlFrame} (hl : upFifoBounded l) (f : ControlFrame) :
    upFifoBounded (replaceKind f l) := by
  have kinds : (Machine.replaceKind f l).map ControlFrame.kind = l.map ControlFrame.kind := by
    rw [Machine.replaceKind, List.map_map]
    refine List.map_congr_left fun g _ => ?_
    rw [Function.comp_apply]
    split
    next same => exact same.symm
    next => rfl
  obtain ⟨room, most⟩ := hl
  exact ⟨(List.length_map _).trans_le room, kinds ▸ most⟩

/-- A frame of a kind with room joins the tail. -/
theorem upFifoBounded.append {l : List ControlFrame} (hl : upFifoBounded l) {f : ControlFrame} (room : l.length < 16)
    (more : (l.map ControlFrame.kind).count f.kind < f.kind.most) : upFifoBounded (l ++ [f]) := by
  obtain ⟨-, most⟩ := hl
  refine ⟨by simpa using room, fun k => ?_⟩
  rw [List.map_append, List.count_append, List.map_singleton, List.count_singleton]
  split
  next own => exact eq_of_beq own ▸ more
  next => exact most k

/-- The kinds of which at most one frame is queued. -/
def singleKinds : List ControlFrame :=
  [.lamp 0, .status] ++ (List.finRange 4).map fun h =>
    .head { head := h, state := .off, flipSet := [], geometry := none, period := 0 }

/-- A full FIFO holds an ANSWER, as the other kinds are six frames at most. -/
theorem upFifoBounded.exists_answer {l : List ControlFrame} (hl : upFifoBounded l) (full : 16 ≤ l.length) :
    ∃ g ∈ l, g.isAnswer = true := by
  by_contra none
  obtain ⟨-, most⟩ := hl
  have single : ∀ k ∈ l.map ControlFrame.kind, k ∈ singleKinds ∧ k.most ≤ 1 := by
    intro k present
    have some := List.count_pos_iff.2 present
    obtain ⟨f, member, rfl⟩ := List.mem_map.1 present
    cases f with
    | hello => exact absurd (most (.hello 0)) (Nat.not_le.2 some)
    | head d => exact ⟨by simp [singleKinds, ControlFrame.kind], Nat.le_refl 1⟩
    | lamp => exact ⟨by simp [singleKinds, ControlFrame.kind], Nat.le_refl 1⟩
    | status => exact ⟨by simp [singleKinds, ControlFrame.kind], Nat.le_refl 1⟩
    | answer id v x => exact absurd ⟨_, member, rfl⟩ none
  have distinct : (l.map ControlFrame.kind).Nodup := List.nodup_iff_count_le_one.2 fun k => by
    by_cases present : k ∈ l.map ControlFrame.kind
    · exact (most k).trans (single k present).2
    · exact (List.count_eq_zero.2 present).trans_le (Nat.zero_le 1)
  have six := (distinct.subperm fun k present => (single k present).1).length_le
  rw [List.length_map] at six
  exact absurd (full.trans six) (by decide)

end Sys2Proof.Machine
end

section
/-! SUPPORT. The bounds of the input queue (R157): an entry that joins, replaces another one, or merges with the newest
keeps them. -/

namespace Sys2Proof.Machine

/-- A POINTER entry's wheel value lies within its limits. -/
def InputEntry.inLimits (e : InputEntry) : Prop := ∀ w ∈ e.wheel?, -127 ≤ w ∧ w ≤ 127

/-- At most 32 entries, each within its limits. -/
def inputBounded (q : List InputEntry) : Prop := q.length ≤ 32 ∧ ∀ e ∈ q, e.inLimits

theorem InputEntry.inLimits_keyboard (m : Byte) (keys : List Byte) : (InputEntry.keyboard m keys).inLimits := nofun

theorem InputEntry.inLimits_notice (n : Notice) : (InputEntry.notice n).inLimits := nofun

theorem InputEntry.inLimits_pointer {x y : BitVec 15} {b : BitVec 5} {w : Int} (low : -127 ≤ w) (high : w ≤ 127) :
    (InputEntry.pointer x y b w).inLimits := by
  rintro _ ⟨⟩
  exact ⟨low, high⟩

theorem pointerWheel_limits (b : Byte) : -127 ≤ pointerWheel b ∧ pointerWheel b ≤ 127 := by
  have := BitVec.toInt_lt (x := b)
  unfold pointerWheel
  omega

theorem limitWheel_limits (w : Int) : -127 ≤ limitWheel w ∧ limitWheel w ≤ 127 := by
  unfold limitWheel
  omega

/-! ### Lists of entries -/

theorem inputBounded.sublist {q q' : List InputEntry} (hq : inputBounded q) (sub : q'.Sublist q) : inputBounded q' := by
  obtain ⟨room, limits⟩ := hq
  exact ⟨sub.length_le.trans room, fun e member => limits e (sub.subset member)⟩

theorem inputBounded.append {q : List InputEntry} {e : InputEntry} (hq : inputBounded q) (room : q.length < 32)
    (he : e.inLimits) : inputBounded (q ++ [e]) := by
  obtain ⟨-, limits⟩ := hq
  refine ⟨by simpa using room, fun x member => ?_⟩
  obtain old | new := List.mem_append.1 member
  · exact limits x old
  · exact List.mem_singleton.1 new ▸ he

/-- The newest entry of a kind replaced. -/
theorem inputBounded.replaceNewest {q : List InputEntry} {e : InputEntry} (hq : inputBounded q)
    (p : InputEntry → Bool) (he : e.inLimits) : inputBounded (replaceNewest p e q) := by
  have replaced : (Machine.replaceNewest p e q).length = q.length ∧
      ∀ x ∈ Machine.replaceNewest p e q, x = e ∨ x ∈ q := by
    clear hq
    induction q with
    | nil => exact ⟨rfl, nofun⟩
    | cons f q ih =>
      obtain ⟨length, members⟩ := ih
      unfold Machine.replaceNewest
      split
      · refine ⟨by simp [length], fun x member => ?_⟩
        obtain rfl | later := List.mem_cons.1 member
        · exact .inr List.mem_cons_self
        · exact (members x later).imp_right (List.mem_cons_of_mem f)
      · split
        · exact ⟨rfl, fun x member => (List.mem_cons.1 member).imp_right (List.mem_cons_of_mem f)⟩
        · exact ⟨rfl, fun x member => .inr member⟩
  obtain ⟨room, limits⟩ := hq
  obtain ⟨length, members⟩ := replaced
  refine ⟨length.trans_le room, fun x member => ?_⟩
  obtain rfl | old := members x member
  · exact he
  · exact limits x old

/-- A report merged with the newest entry (R159 step 1). -/
theorem inputBounded.merged {q l : List InputEntry} {x y : BitVec 15} {b : BitVec 5} {w : Int} (hq : inputBounded q)
    (merged : mergePointer x y b w q = some l) : inputBounded l := by
  by_cases able : mergeable b q
  · obtain ⟨older, x0, y0, v, rfl⟩ := able
    rw [mergePointer_append] at merged
    obtain rfl := Option.some.inj merged
    obtain ⟨room, limits⟩ := hq
    refine ⟨by simpa using room, fun e member => ?_⟩
    obtain old | new := List.mem_append.1 member
    · exact limits e (List.mem_append_left _ old)
    · exact List.mem_singleton.1 new ▸ InputEntry.inLimits_pointer (limitWheel_limits _).1 (limitWheel_limits _).2
  · rw [mergePointer_none (x := x) (y := y) (wheel := w) able] at merged
    exact absurd merged nofun

/-! ### The transmitter -/

/-- The transmitter takes the entry at the head of the queue or none (R156). -/
theorem Relay.tryBegin_queue (r : Relay) : r.tryBegin.queue.Sublist r.queue := by
  unfold Relay.tryBegin
  split
  · unfold Relay.beginFrame
    split
    next => exact .refl _
    next queue => exact queue ▸ List.sublist_cons_self _ _
    next queue => exact queue ▸ List.sublist_cons_self _ _
  · exact .refl _

/-- An entry joins a queue with room (R157). -/
theorem Relay.join_bounded {r : Relay} {e : InputEntry} (hr : inputBounded r.queue) (room : r.queue.length < 32)
    (he : e.inLimits) : inputBounded (r.join e).queue :=
  (hr.append room he).sublist (Relay.tryBegin_queue _)

theorem Relay.not_full_iff {r : Relay} : (!r.full) = true ↔ r.queue.length < 32 := by
  simp [Relay.full]

/-- An entry leaves a full queue, and another one joins. -/
theorem Relay.shed_join_bounded {r : Relay} {p : InputEntry → Bool} {e : InputEntry} (lost : Bool)
    (hr : inputBounded r.queue) (some : r.queue.any p = true) (he : e.inLimits) :
    inputBounded (({ r with queue := r.queue.eraseP p, lost := lost } : Relay).join e).queue := by
  obtain ⟨x, member, hx⟩ := List.any_eq_true.1 some
  have shorter : (r.queue.eraseP p).length < 32 := by
    rw [List.length_eraseP_of_mem member hx]
    have full := hr.1
    have pos := List.length_pos_of_mem member
    omega
  exact Relay.join_bounded (hr.sublist List.eraseP_sublist) shorter he

/-- A queue without POINTER entries that are not all KEYBOARD entries holds a NOTICE. -/
theorem any_isNotice {q : List InputEntry} (noPointer : ¬ q.any InputEntry.isPointer = true)
    (few : q.countP InputEntry.isKeyboard < q.length) : q.any InputEntry.isNotice = true := by
  obtain ⟨e, member, notKeyboard⟩ := List.countP_lt_length_iff.1 few
  refine List.any_eq_true.2 ⟨e, member, ?_⟩
  cases e with
  | keyboard => exact absurd notKeyboard nofun
  | pointer => exact absurd (List.any_eq_true.2 ⟨_, member, rfl⟩) noPointer
  | notice => rfl

/-! ### Offers (R159, R160, R162, R163) -/

section
variable {s : State} (hs : inputBounded s.relay.queue)

include hs

theorem State.offerKeyboard_bounded (m : Byte) (keys : List Byte) :
    inputBounded (s.offerKeyboard m keys).relay.queue := by
  have he := InputEntry.inLimits_keyboard m keys
  unfold State.offerKeyboard
  dsimp only
  split
  next room => exact Relay.join_bounded hs (Relay.not_full_iff.1 room) he
  next full =>
    split
    next => exact hs.replaceNewest _ he
    next noKeyboard =>
      split
      next pointer => exact Relay.shed_join_bounded _ hs pointer he
      next noPointer =>
        have few : s.relay.queue.countP InputEntry.isKeyboard < s.relay.queue.length := by
          rw [List.countP_eq_zero.2 fun e member keyboard => noKeyboard (List.any_eq_true.2 ⟨e, member, keyboard⟩)]
          exact Nat.lt_of_lt_of_le (Nat.zero_lt_succ 31) (Nat.not_lt.1 (mt Relay.not_full_iff.2 full))
        exact Relay.shed_join_bounded true hs (any_isNotice noPointer few) he

/-- R159, with what is done at a full queue that holds no POINTER entry. -/
theorem State.pointerSteps_bounded {x y : BitVec 15} {b : BitVec 5} {w : Int} {drop : State → State}
    (he : (InputEntry.pointer x y b w).inLimits)
    (dropped : 32 ≤ s.relay.queue.length → ¬ s.relay.queue.any InputEntry.isPointer = true →
      inputBounded (drop s).relay.queue) : inputBounded (s.pointerSteps x y b w drop).relay.queue := by
  unfold State.pointerSteps
  split
  next merged => exact hs.merged merged
  next =>
    dsimp only
    split
    next room => exact Relay.join_bounded hs (Relay.not_full_iff.1 room) he
    next full =>
      split
      next => exact hs.replaceNewest _ he
      next noPointer => exact dropped (Nat.not_lt.1 (mt Relay.not_full_iff.2 full)) noPointer

theorem State.offerPointer_bounded {x y : BitVec 15} {b : BitVec 5} {w : Int}
    (he : (InputEntry.pointer x y b w).inLimits) : inputBounded (s.offerPointer x y b w).relay.queue :=
  State.pointerSteps_bounded hs he fun _ _ => hs

theorem State.offerPointerRelease_bounded (x y : BitVec 15) :
    inputBounded (s.offerPointerRelease x y).relay.queue := by
  have he : (InputEntry.pointer x y 0 0).inLimits := InputEntry.inLimits_pointer (by decide) (by decide)
  refine State.pointerSteps_bounded hs he fun full noPointer => ?_
  change inputBounded (s.relay.shedForRelease.join _).queue
  unfold Relay.shedForRelease
  split
  next two =>
    obtain ⟨e, member, keyboard⟩ := List.countP_pos_iff.1 (Nat.lt_of_lt_of_le Nat.zero_lt_two two)
    exact Relay.shed_join_bounded _ hs (List.any_eq_true.2 ⟨e, member, keyboard⟩) he
  next few => exact Relay.shed_join_bounded true hs (any_isNotice noPointer (by omega)) he

theorem State.offerNotice_bounded (n : Notice) : inputBounded (s.offerNotice n).relay.queue := by
  rw [State.offerNotice, State.updRelay_relay]
  split
  next => exact hs
  next room =>
    have below := Relay.not_full_iff.1 (by simpa using room)
    exact Relay.join_bounded hs below (InputEntry.inLimits_notice n)

/-- What the Input Relay does when the link has left UP (R162). -/
theorem State.releaseHeld_bounded : inputBounded s.releaseHeld.relay.queue := by
  have keys : inputBounded s.releaseKeys.relay.queue := by
    unfold State.releaseKeys
    split
    · exact State.offerKeyboard_bounded hs 0 []
    · exact hs
  have buttons : inputBounded s.releaseKeys.releaseButtons.relay.queue := by
    unfold State.releaseButtons
    split
    · split
      · exact State.offerPointerRelease_bounded keys _ _
      · exact keys
    · exact keys
  rw [State.releaseHeld_eq]
  exact State.offerNotice_bounded buttons _

end

end Sys2Proof.Machine
end

section
/-! SUPPORT. The two queues' bounds (R143, R157): an operation leaves both queues alone, or offers a frame or an entry, or
lets one begin, and each keeps the bounds. -/

namespace Sys2Proof.Machine

/-- The control FIFO's bounds by the state of the link (R143). -/
def fifoBounded (t : LinkState) (l : List ControlFrame) : Prop :=
  (t = .down → l = []) ∧ (t = .aligning → l.length ≤ 1 ∧ ∀ f ∈ l, f.isHello = true) ∧ (t = .up → upFifoBounded l)

theorem State.controlFifoBounded_iff (s : State) :
    s.controlFifoBounded ↔ fifoBounded s.link.state s.link.control := by
  unfold fifoBounded
  rw [upFifoBounded_iff]

/-- A FIFO that loses frames. -/
theorem fifoBounded.sublist {t : LinkState} {l l' : List ControlFrame} (hl : fifoBounded t l) (sub : l'.Sublist l) :
    fifoBounded t l' := by
  obtain ⟨down, aligning, up⟩ := hl
  refine ⟨fun d => List.sublist_nil.1 (down d ▸ sub), fun a => ?_, fun u => (up u).sublist sub⟩
  obtain ⟨one, hellos⟩ := aligning a
  exact ⟨sub.length_le.trans one, fun f member => hellos f (sub.subset member)⟩

theorem fifoBounded_nil (t : LinkState) : fifoBounded t [] :=
  ⟨fun _ => rfl, fun _ => ⟨Nat.zero_le _, nofun⟩, fun _ => upFifoBounded_nil⟩

theorem fifoBounded_up {l : List ControlFrame} : fifoBounded .up l ↔ upFifoBounded l :=
  ⟨fun ⟨_, _, up⟩ => up rfl, fun up => ⟨nofun, nofun, fun _ => up⟩⟩

/-- What the bounds are about. -/
def State.queues (s : State) : List InputEntry × LinkState × List ControlFrame :=
  (s.relay.queue, s.link.state, s.link.control)

/-- From `s` to `t` the bounds of both queues carry over. -/
structure State.KeepsQueues (s t : State) : Prop where
  input : inputBounded s.relay.queue → inputBounded t.relay.queue
  control : fifoBounded s.link.state s.link.control → fifoBounded t.link.state t.link.control

/-! ### The relation -/

namespace State.KeepsQueues

variable {s t u : State}

theorem refl (s : State) : s.KeepsQueues s := ⟨id, id⟩

theorem trans (h : s.KeepsQueues t) (k : t.KeepsQueues u) : s.KeepsQueues u :=
  ⟨k.input ∘ h.input, k.control ∘ h.control⟩

/-- A change of anything but the two queues and the state of the link. -/
theorem of_eq (h : t.queues = s.queues := by simp [State.queues]) : s.KeepsQueues t := by
  simp only [State.queues, Prod.mk.injEq] at h
  obtain ⟨queue, state, control⟩ := h
  exact ⟨fun hs => queue ▸ hs, fun hs => state ▸ control ▸ hs⟩

/-- Before an operation such a change does no harm. -/
theorem after (k : t.KeepsQueues u) (h : t.queues = s.queues := by simp [State.queues]) : s.KeepsQueues u :=
  (of_eq h).trans k

/-- Nor does it after an operation. -/
theorem before (k : s.KeepsQueues t) (h : u.queues = t.queues := by simp [State.queues]) : s.KeepsQueues u :=
  k.trans (of_eq h)

theorem ite {c : Prop} {_ : Decidable c} (h : s.KeepsQueues t) (k : s.KeepsQueues u) :
    s.KeepsQueues (if c then t else u) := by
  split
  · exact h
  · exact k

theorem foldl {α : Type} {f : State → α → State} (h : ∀ (v : State) a, v.KeepsQueues (f v a)) (l : List α)
    (s : State) : s.KeepsQueues (l.foldl f s) :=
  List.foldlRecOn (motive := s.KeepsQueues) l f (refl s) fun v hv a _ => hv.trans (h v a)

theorem forHeads {f : Fin 4 → State → State} (h : ∀ i (v : State), v.KeepsQueues (f i v)) (s : State) :
    s.KeepsQueues (s.forHeads f) := foldl (fun v i => h i v) allHeads s

/-- A change of the input queue alone. -/
theorem of_input (input : inputBounded s.relay.queue → inputBounded t.relay.queue)
    (state : t.link.state = s.link.state := by simp) (control : t.link.control = s.link.control := by simp) :
    s.KeepsQueues t := ⟨input, fun hs => state ▸ control ▸ hs⟩

/-- A change of the control FIFO alone. -/
theorem of_control (control : fifoBounded s.link.state s.link.control → fifoBounded t.link.state t.link.control)
    (queue : t.relay.queue = s.relay.queue := by simp) : s.KeepsQueues t := ⟨fun hs => queue ▸ hs, control⟩

end State.KeepsQueues

/-! ### Offers and the send arbiter -/

theorem State.sendDecision_keepsQueues (s : State) : s.KeepsQueues s.sendDecision := by
  refine .of_control fun hs => ?_
  rw [show s.sendDecision.link.state = s.link.state by simp]
  exact hs.sublist s.sendDecision_control

/-- A frame of a kind that the FIFO has room for joins the tail, in the place of an ANSWER when the FIFO is full. -/
theorem upFifoBounded.pushControl {s : State} {f : ControlFrame} (hs : upFifoBounded s.link.control)
    (none : ∀ g ∈ s.link.control, g.kind ≠ f.kind) (one : f.kind.most = 1) :
    upFifoBounded (s.pushControl f).link.control := by
  have fresh : ∀ l : List ControlFrame, l.Sublist s.link.control → (l.map ControlFrame.kind).count f.kind < f.kind.most := by
    intro l sub
    rw [count_kind, List.countP_eq_zero.2 fun g member same => none g (sub.subset member) (of_decide_eq_true same), one]
    exact Nat.one_pos
  by_cases room : s.link.control.length < 16
  · rw [State.pushControl_of_room room]
    exact hs.append room (fresh _ (.refl _))
  · have full := Nat.not_lt.1 room
    obtain ⟨a, id, v, x, b, control, newest⟩ := exists_newestAnswer (hs.exists_answer full)
    have sub : (a ++ b).Sublist s.link.control := control ▸ (List.sublist_cons_self _ b).append_left a
    have shorter : (a ++ b).length < 16 := by
      have room := control ▸ hs.1
      simp only [List.length_append, List.length_cons] at room ⊢
      omega
    rw [State.pushControl_of_full full control newest]
    exact (hs.sublist sub).append shorter (fresh _ sub)

/-- An offered HEAD, LAMP or STATUS frame (R143). -/
theorem State.offerSingle_keepsQueues (s : State) {f : ControlFrame} (one : f.kind.most = 1) :
    s.KeepsQueues (s.offerSingle f) := by
  by_cases up : s.link.state = .up
  · by_cases queued : ∃ g ∈ s.link.control, g.kind = f.kind
    · rw [State.offerSingle_of_queued up queued]
      refine .of_control fun hs => ?_
      dsimp only
      rw [up, fifoBounded_up] at hs ⊢
      exact hs.replaceKind f
    · have none : ∀ g ∈ s.link.control, g.kind ≠ f.kind := by simpa using queued
      rw [State.offerSingle_of_none up none]
      refine .of_control fun hs => ?_
      rw [show (s.pushControl f).link.state = s.link.state by simp]
      rw [up, fifoBounded_up] at hs ⊢
      exact hs.pushControl none one
  · rw [State.offerSingle_of_not_up up]
    exact .refl s

theorem State.offerHead_keepsQueues (s : State) (h : Fin 4) : s.KeepsQueues (s.offerHead h) :=
  s.offerHead_eq h ▸ s.offerSingle_keepsQueues rfl

theorem State.offerLamp_keepsQueues (s : State) (w : Byte) : s.KeepsQueues (s.offerLamp w) :=
  s.offerLamp_eq w ▸ s.offerSingle_keepsQueues rfl

theorem State.offerStatus_keepsQueues (s : State) : s.KeepsQueues s.offerStatus :=
  s.offerStatus_eq ▸ s.offerSingle_keepsQueues rfl

/-- An ANSWER offered while UP (R143). -/
theorem State.offerAnswer_keepsQueues {s : State} (up : s.link.state = .up) (id : BitVec 16) (valid : Bool)
    (value : BitVec 64) : s.KeepsQueues (s.offerAnswer id valid value) := by
  unfold State.offerAnswer
  split
  next room =>
    refine .of_control fun hs => ?_
    dsimp only
    rw [up, fifoBounded_up] at hs ⊢
    refine hs.append room (Nat.lt_of_le_of_lt List.count_le_length ?_)
    rwa [List.length_map]
  next => exact .of_eq

/-- A HELLO offered while ALIGNING (R139, R143). -/
theorem State.offerHello_keepsQueues {s : State} (aligning : s.link.state = .aligning) :
    s.KeepsQueues s.offerHello := by
  unfold State.offerHello
  split
  next => exact .refl s
  next none =>
    refine .of_control fun hs => ?_
    rw [show (s.pushControl (.hello s.straps.laneCount)).link.state = s.link.state by simp, aligning]
    obtain ⟨-, hellos, -⟩ := hs
    obtain ⟨-, hellos⟩ := hellos aligning
    have empty : s.link.control = [] := List.eq_nil_iff_forall_not_mem.2 fun f member =>
      none (List.any_eq_true.2 ⟨f, member, hellos f member⟩)
    rw [State.pushControl_of_room (by simp [empty])]
    dsimp only
    rw [empty]
    exact ⟨nofun, fun _ => ⟨Nat.le_refl 1, by simp [ControlFrame.isHello]⟩, nofun⟩

theorem State.offerNotice_keepsQueues (s : State) (n : Notice) : s.KeepsQueues (s.offerNotice n) :=
  .of_input fun hs => State.offerNotice_bounded hs n

theorem State.raise_keepsQueues (s : State) (e : Event) : s.KeepsQueues (s.raise e) := .of_eq

/-! ### The encode decision and deferral (R130 to R135) -/

theorem State.charge_keepsQueues (s : State) (h : Fin 4) (i : Fin 64) (d : Decision) : s.KeepsQueues (s.charge h i d) :=
  (State.sendDecision_keepsQueues _).after rfl

theorem State.encodeDecision_keepsQueues (s : State) (i : Fin 64) (r : Record) (f : CodedForms) :
    s.KeepsQueues (s.encodeDecision i r f) := by
  unfold State.encodeDecision
  refine .ite .of_eq ?_
  split
  · exact (State.charge_keepsQueues _ r.head i _).after
  · exact .of_eq

theorem State.finishEncoding_keepsQueues (s : State) (i : Fin 64) : s.KeepsQueues (s.finishEncoding i) := by
  unfold State.finishEncoding
  split
  · exact .ite .of_eq (.after (State.encodeDecision_keepsQueues _ i _ _))
  · exact .refl s

theorem State.abandonDeferral_keepsQueues (s : State) (i : Fin 64) (r : Record) :
    s.KeepsQueues (s.abandonDeferral i r) := .of_eq

theorem State.tryDeferred_keepsQueues (s : State) (h : Fin 4) (l : List (Fin 64)) :
    s.KeepsQueues (s.tryDeferred h l) := by
  induction l generalizing s with
  | nil => exact .refl s
  | cons i l ih =>
    rw [State.tryDeferred]
    repeat' split
    next d _ => exact ((State.charge_keepsQueues _ h i d).after).trans (ih _)
    all_goals exact .refl s

theorem State.reevaluate_keepsQueues (s : State) (h : Fin 4) : s.KeepsQueues (s.reevaluate h) := by
  unfold State.reevaluate
  extract_lets freed tried
  have toFreed : s.KeepsQueues freed := .ite .of_eq (.refl s)
  have aged : ∀ (v : State) (i : Fin 64), v.KeepsQueues (v.ageDeferred i) := fun v i => .of_eq
  exact (toFreed.trans (freed.tryDeferred_keepsQueues h _)).trans (.foldl aged _ _)

theorem State.statusTest_keepsQueues (s : State) : s.KeepsQueues s.statusTest := by
  unfold State.statusTest
  dsimp only
  exact .ite (.before (.ite s.offerStatus_keepsQueues (.refl s)) rfl) (.refl s)

theorem State.takeTick_keepsQueues (s : State) : s.KeepsQueues s.takeTick := by
  unfold State.takeTick
  extract_lets reached _ ticked divided evaluated
  have toDivided : s.KeepsQueues divided := .of_eq (by simp [State.queues, divided, ticked, reached])
  have toEvaluated : divided.KeepsQueues evaluated := .forHeads (fun h v => v.reevaluate_keepsQueues h) divided
  exact ((toDivided.trans toEvaluated).trans evaluated.statusTest_keepsQueues).trans
    (State.sendDecision_keepsQueues _)

/-! ### The Channel Follower -/

/-- A command taken by the follower leaves the queues when its effect does. -/
theorem State.takeCommand_keepsQueues {s : State} (a : Anomaly) {effect : State → State} (y : Beyond)
    (he : (effect s).queues = s.queues) : s.KeepsQueues (s.takeCommand a effect y) := by
  have effected : s.KeepsQueues (effect s) := .of_eq he
  have blind : ∀ counted, s.KeepsQueues (s.takeBlind a effect y counted) := fun counted => by
    have flagged : s.KeepsQueues (State.flagged a y counted (effect s)) := by
      rw [State.flagged_eq]
      exact effected.before rfl
    rw [State.takeBlind_eq]
    exact .ite flagged flagged.before
  unfold State.takeCommand
  split
  · exact .ite effected.before effected
  · exact blind _
  · exact blind _

theorem State.assertMemoryReset_keepsQueues (s : State) : s.KeepsQueues s.assertMemoryReset := by
  rw [State.assertMemoryReset_eq]
  exact .of_eq

/-! ### Descriptors (R38 to R45) -/

theorem State.redeclare_keepsQueues (s : State) (id : Fin 16) (old f : Surface) :
    s.KeepsQueues (s.redeclare id old f) := by
  unfold State.redeclare
  extract_lets withdrawn declared
  have toDeclared : s.KeepsQueues declared := .of_eq (by simp [State.queues, declared, withdrawn, State.declare])
  split
  next => exact toDeclared
  next h _ =>
    extract_lets shown lost
    have hidden : declared.KeepsQueues (declared.loseShown h) := by
      rw [State.loseShown_eq]
      exact (State.offerHead_keepsQueues _ h).after (by simp only [State.hideShown, State.queues])
    have toLost : s.KeepsQueues lost := .ite (toDeclared.trans hidden) toDeclared
    have regrown : lost.KeepsQueues (lost.regrow h f.geometry shown) := by
      rw [State.regrow_eq]
      have reshaped : lost.KeepsQueues (lost.reshapeHead h f.geometry) :=
        .of_eq (by simp only [State.reshapeHead, State.queues])
      exact .ite reshaped (reshaped.trans (State.offerHead_keepsQueues _ h))
    exact .ite (toLost.trans regrown) toLost

theorem State.applyDescriptor_keepsQueues (s : State) (d : DescriptorSlot) : s.KeepsQueues (s.applyDescriptor d) := by
  unfold State.applyDescriptor
  split
  · unfold State.takeSurface
    split
    · exact .refl s
    · split
      · exact .of_eq rfl
      · exact s.redeclare_keepsQueues _ _ _
  · unfold State.takeHead
    split
    · exact .refl s
    next h ids _ =>
      rw [State.defineHead_eq]
      have enlisted : s.KeepsQueues ((s.disown (s.heads.look h).flipSet).enlist h ids) :=
        .of_eq (by simp [State.queues, State.disown, State.enlist])
      exact (enlisted.trans (State.offerHead_keepsQueues _ h)).before (by cases _ : (s.heads.look h).state <;> rfl)
  · unfold State.takeWithdrawSurface
    split
    · exact .refl s
    · exact .of_eq
  · unfold State.takeWithdrawHead
    split
    · exact .refl s
    next h _ =>
      rw [State.removeHead_eq]
      have vacated : s.KeepsQueues ((s.disown (s.heads.look h).flipSet).vacate h) :=
        .of_eq (by simp [State.queues, State.disown, State.vacate])
      exact .ite ((vacated.trans (State.offerHead_keepsQueues _ h)).before rfl) (.refl s)
  · exact .refl s

theorem State.writeSlot_keepsQueues (s : State) (i : Fin 16) (off : Nat) (bytes : List (Nat × Byte)) :
    s.KeepsQueues (s.writeSlot i off bytes) := by
  unfold State.writeSlot State.conclude
  extract_lets d written o applied stored noticed
  have toWritten : s.KeepsQueues written := .of_eq rfl
  have toApplied : s.KeepsQueues applied := .ite (toWritten.trans (written.applyDescriptor_keepsQueues d)) toWritten
  have toStored : s.KeepsQueues stored := toApplied.before (by simp only [stored, State.queues])
  have toNoticed : s.KeepsQueues noticed := toStored.trans (stored.offerNotice_keepsQueues _)
  exact .ite ((State.KeepsQueues.ite toNoticed (toNoticed.trans (State.raise_keepsQueues _ _))).trans
    (State.sendDecision_keepsQueues _)) toWritten

end Sys2Proof.Machine
end

section
/-! SUPPORT. What each command makes of the two queues' bounds: O55. -/

namespace Sys2Proof.Machine

/-- The command goes on, and keeps the bounds of both queues. -/
def State.queuesKeptBy (s : State) (o : Host.Outcome State Fault Refusal) : Prop := ∃ t, o = .next t ∧ s.KeepsQueues t

theorem State.KeepsQueues.into {s t : State} (h : s.KeepsQueues t) : s.queuesKeptBy (.next t) := ⟨t, rfl, h⟩

theorem State.queuesKeptBy_self (s : State) : s.queuesKeptBy (.next s) := (State.KeepsQueues.refl s).into

/-- A command that leaves the queues and the state of the link alone. -/
theorem State.queuesKeptBy_of_eq {s t : State} (h : t.queues = s.queues := by simp [State.queues]) :
    s.queuesKeptBy (.next t) := (State.KeepsQueues.of_eq h).into

/-! ### The Channel Follower -/

/-- A rank command, taken or not. -/
theorem exec_rank_keepsQueues {c : Instr} {n : Nat} (hc : c.rank? = some n) (s : State) : s.queuesKeptBy (exec c s) := by
  by_cases cal : c = .calibrate n
  · subst cal
    exact s.queuesKeptBy_self
  cases line : s.memoryResetLine with
  | true =>
    rw [exec_held line (.inl (hc ▸ Option.some_ne_none n))]
    exact s.queuesKeptBy_self
  | false =>
    by_cases present : n < s.straps.rankCount
    · have two : n < 2 := Nat.lt_of_lt_of_le present (rankCount_le_two s.straps)
      have taken : c.takenBy ⟨n, two⟩ s := ⟨hc, cal, present, line⟩
      rw [exec_of_takenBy taken]
      exact (State.takeCommand_keepsQueues _ _ rfl).into
    · obtain ⟨missing, -, -⟩ := commandsWithoutEffect
      rw [missing c n s hc (Nat.not_lt.1 present)]
      exact s.queuesKeptBy_self

theorem execModeSet_keepsQueues (n : Fin 4) (v : BitVec 16) (s : State) : s.queuesKeptBy (exec (.modeSet n v) s) := by
  cases line : s.memoryResetLine with
  | true =>
    rw [exec_held line (.inr (.inr ⟨n, v, rfl⟩))]
    exact s.queuesKeptBy_self
  | false =>
    rw [exec_modeSet line]
    exact (State.takeCommand_keepsQueues _ _ rfl).into

theorem inputBounded_restart : inputBounded [.notice .restart] :=
  ⟨by decide, fun _ member => List.mem_singleton.1 member ▸ InputEntry.inLimits_notice .restart⟩

/-- After part reset the RESTART notice is the one entry, and no frame is queued (R143, R157). -/
theorem execPartReset_keepsQueues (p : Straps) (line ready : Bool) (s : State) :
    s.queuesKeptBy (execPartReset p line ready s) := by
  unfold execPartReset
  extract_lets _ fresh held
  have inFresh : s.KeepsQueues fresh := ⟨fun _ => inputBounded_restart, fun _ => fifoBounded_nil _⟩
  have toHeld : fresh.KeepsQueues held := .ite fresh.assertMemoryReset_keepsQueues (.refl fresh)
  have begun : held.KeepsQueues (held.updRelay Relay.tryBegin) := .of_input fun hs => hs.sublist (Relay.tryBegin_queue _)
  exact ((inFresh.trans toHeld).trans begun).into

/-! ### Observed writes and reads -/

theorem execObservedWrite_keepsQueues (o : WriteCompletion) (s : State) : s.queuesKeptBy (execObservedWrite o s) := by
  unfold execObservedWrite
  split
  next => exact s.queuesKeptBy_self
  next b _ =>
    extract_lets _ taken bytes
    have toTaken : s.KeepsQueues taken := .of_eq rfl
    split
    · have tracked : taken.KeepsQueues (taken.trackWrite b.address bytes) := by
        unfold State.trackWrite
        split
        · exact .of_eq
        · exact .refl taken
      exact (toTaken.trans (.ite (taken.writeSlot_keepsQueues _ _ bytes) tracked)).into
    · exact toTaken.into

/-- A frame start offers a HEAD frame or none (R72, R74). -/
theorem State.frameStart_keepsQueues (s : State) (h : Fin 4) (id : Fin 16) (xb : Nat) (data : List Byte) :
    s.KeepsQueues (s.frameStart h id xb data) := by
  rw [State.frameStart_eq]
  have cleared : s.KeepsQueues (s.clearFrame h id) := .of_eq (by simp [State.queues, State.clearFrame])
  have entered : (s.clearFrame h id).KeepsQueues ((s.clearFrame h id).enterFrame h id (s.frameAnnounces h)
      ((s.scans.look h).measured s.budget.now) s.budget.now) := by
    unfold State.enterFrame
    extract_lets shows
    have toShows : (s.clearFrame h id).KeepsQueues shows := .of_eq (by simp [State.queues, shows])
    have toAnnounced : (s.clearFrame h id).KeepsQueues (if s.frameAnnounces h then shows.offerHead h else shows) :=
      .ite (toShows.trans (shows.offerHead_keepsQueues h)) toShows
    exact toAnnounced.before
  exact (cleared.trans entered).before

theorem State.takeRead_keepsQueues (s : State) (g : Nat) (data : List Byte) : s.KeepsQueues (s.takeRead g data) := by
  unfold State.takeRead
  repeat' split
  · exact .refl s
  · exact .refl s
  · exact .refl s
  · dsimp only
    split
    · exact (s.frameStart_keepsQueues _ _ _ _).trans (State.sendDecision_keepsQueues _)
    · exact .of_eq
    · exact .of_eq

theorem execObservedRead_keepsQueues (o : ReadCompletion) (s : State) : s.queuesKeptBy (execObservedRead o s) := by
  unfold execObservedRead
  split
  next => exact s.queuesKeptBy_self
  next b _ =>
    extract_lets _ taken
    have toTaken : s.KeepsQueues taken := .of_eq rfl
    split
    · exact (toTaken.trans (taken.takeRead_keepsQueues b.address _)).into
    · exact toTaken.into

/-! ### The timers and the encoder -/

theorem execStallTimerExpiry_keepsQueues (h : Fin 4) (s : State) : s.queuesKeptBy (execStallTimerExpiry h s) := by
  unfold execStallTimerExpiry
  split
  · exact s.queuesKeptBy_self
  next e _ =>
    dsimp only
    split
    · exact State.queuesKeptBy_of_eq
    · rw [State.stallHead_eq]
      have halted : s.KeepsQueues ((s.reachTime e).haltHead h) := .of_eq (by simp [State.queues, State.haltHead])
      exact ((halted.trans (State.offerHead_keepsQueues _ h)).trans
        ((State.raise_keepsQueues _ _).trans (State.sendDecision_keepsQueues _))).into
    · exact State.queuesKeptBy_of_eq

theorem execEncodeCompletion_keepsQueues (s : State) : s.queuesKeptBy (execEncodeCompletion s) := by
  unfold execEncodeCompletion
  split
  next i _ =>
    have idle : s.KeepsQueues (s.finishEncoding i).idleEncoder := (s.finishEncoding_keepsQueues i).before rfl
    exact (idle.before (u := (s.finishEncoding i).idleEncoder.startEncoder)).into
  next => exact s.queuesKeptBy_self

theorem execDeferralAbandoned_keepsQueues (i : Fin 64) (s : State) : s.queuesKeptBy (execDeferralAbandoned i s) := by
  unfold execDeferralAbandoned
  split
  next r _ =>
    split
    · exact (s.abandonDeferral_keepsQueues i r).into
    · exact s.queuesKeptBy_self
  next => exact s.queuesKeptBy_self

theorem execOverrideHoldExpiry_keepsQueues (s : State) : s.queuesKeptBy (execOverrideHoldExpiry s) := by
  unfold execOverrideHoldExpiry
  split
  · exact s.queuesKeptBy_self
  · exact State.queuesKeptBy_of_eq

/-! ### The state of the link -/

/-- The link enters another state with an empty FIFO, as it leaves DOWN, ALIGNING or UP (R139 to R141). -/
theorem State.KeepsQueues.of_empty {s t : State} (empty : t.link.control = [])
    (queue : t.relay.queue = s.relay.queue := by simp) : s.KeepsQueues t :=
  .of_control (fun _ => empty ▸ fifoBounded_nil _) queue

theorem execLanesAligned_keepsQueues (s : State) : s.queuesKeptBy (execLanesAligned s) := by
  unfold execLanesAligned
  split
  next down =>
    extract_lets _ aligning
    have toAligning : s.KeepsQueues aligning := .of_control (queue := rfl) fun hs => by
      rw [show aligning.link.control = [] from hs.1 down]
      exact fifoBounded_nil _
    exact ((toAligning.trans (State.offerHello_keepsQueues rfl)).trans (State.sendDecision_keepsQueues _)).into
  next => exact s.queuesKeptBy_self

theorem State.leaveUp_keepsQueues (s : State) : s.KeepsQueues s.leaveUp := by
  rw [State.leaveUp_eq]
  have severed : s.KeepsQueues s.withdrawAtLinkLoss.sever := .of_empty rfl
  exact severed.trans (.of_input State.releaseHeld_bounded)

theorem execLaneAlignmentLost_keepsQueues (lane : Fin 2) (s : State) :
    s.queuesKeptBy (execLaneAlignmentLost lane s) := by
  unfold execLaneAlignmentLost
  split
  · extract_lets _ lost
    have toLost : s.KeepsQueues lost := .of_eq rfl
    split
    · exact toLost.into
    · have left : lost.KeepsQueues lost.leaveAligning := .of_empty rfl rfl
      exact (toLost.trans left).into
    · exact (toLost.trans lost.leaveUp_keepsQueues).into
  · exact s.queuesKeptBy_self

theorem execHelloRepeatTimerExpiry_keepsQueues (s : State) : s.queuesKeptBy (execHelloRepeatTimerExpiry s) := by
  unfold execHelloRepeatTimerExpiry
  split
  next e aligning _ =>
    have reached : (s.reachTime e).link.state = .aligning := by simpa using aligning
    extract_lets _ offered
    have toOffered : s.KeepsQueues offered := (State.offerHello_keepsQueues reached).after
    have restarted : s.KeepsQueues
        { offered with link := { offered.link with helloAt := some (offered.after 10000) } } := toOffered.before rfl
    exact (restarted.trans (State.sendDecision_keepsQueues _)).into
  next => exact s.queuesKeptBy_self

theorem execAligningTimerExpiry_keepsQueues (s : State) : s.queuesKeptBy (execAligningTimerExpiry s) := by
  unfold execAligningTimerExpiry
  split
  next e _ _ =>
    extract_lets left
    have toLeft : s.KeepsQueues left := .of_empty rfl (by simp [left, State.leaveAligning])
    have lanesLost : s.KeepsQueues { left with link := { left.link with
        acquired := Table.const false, arriving := none, aligned := Table.const false } } := toLeft.before rfl
    exact lanesLost.into
  next => exact s.queuesKeptBy_self

/-- From ALIGNING the link enters UP with the HELLO frames removed (R141). -/
theorem State.enterUp_keepsQueues {s : State} (aligning : s.link.state = .aligning) : s.KeepsQueues s.enterUp := by
  unfold State.enterUp
  extract_lets _ up _ cleared marked heads status _ tested lamp notice
  have toCleared : s.KeepsQueues cleared := .of_control (queue := rfl) fun hs => by
    obtain ⟨-, hellos, -⟩ := hs
    obtain ⟨-, hellos⟩ := hellos aligning
    have empty : cleared.link.control = [] := by simpa [cleared, up] using hellos
    rw [empty]
    exact fifoBounded_nil _
  have toMarked : s.KeepsQueues marked := toCleared.before (by simp [State.queues, marked])
  have toHeads : marked.KeepsQueues heads := .forHeads (fun h v => v.offerHead_keepsQueues h) marked
  have toStatus : heads.KeepsQueues status := .ite heads.offerStatus_keepsQueues (.refl heads)
  have toTested : s.KeepsQueues tested := ((toMarked.trans toHeads).trans toStatus).before rfl
  have toNotice : tested.KeepsQueues notice :=
    (tested.offerLamp_keepsQueues _).trans (lamp.offerNotice_keepsQueues _)
  exact (toTested.trans toNotice).trans notice.sendDecision_keepsQueues

theorem execHello_keepsQueues (version : Byte) (s : State) : s.queuesKeptBy (execHello version s) := by
  unfold execHello
  split
  · exact s.queuesKeptBy_self
  next aligning =>
    split
    · exact (State.enterUp_keepsQueues aligning).into
    · exact State.queuesKeptBy_of_eq
  · exact s.queuesKeptBy_self

/-! ### The Desk Link -/

theorem execFrameEnd_keepsQueues (s : State) : s.queuesKeptBy (execFrameEnd s) := by
  unfold execFrameEnd
  split
  · exact s.queuesKeptBy_self
  · exact ((State.sendDecision_keepsQueues _).after).into

theorem execSet_keepsQueues (setting head : Byte) (value : BitVec 64) (s : State) :
    s.queuesKeptBy (execSet setting head value s) := by
  unfold execSet
  split
  · split
    · exact State.queuesKeptBy_of_eq
    · exact State.queuesKeptBy_of_eq
  · exact s.queuesKeptBy_self

theorem execApply_keepsQueues (s : State) : s.queuesKeptBy (execApply s) := by
  unfold execApply
  split
  · exact State.queuesKeptBy_of_eq
  · exact s.queuesKeptBy_self

theorem execReadRequest_keepsQueues (id : BitVec 16) (item head flags : Byte) (s : State) :
    s.queuesKeptBy (execReadRequest id item head flags s) := by
  unfold execReadRequest
  split
  next up =>
    extract_lets v cleared
    have cleared_eq : cleared.queues = s.queues := by
      have link : (s.clearItem item head).link = s.link := State.clearItem_link
      have relay : (s.clearItem item head).relay = s.relay := by
        unfold State.clearItem
        repeat' split
        all_goals rfl
      simp only [cleared]
      split <;> simp only [State.queues, link, relay]
    have stillUp : cleared.link.state = .up := (congrArg (fun q => q.2.1) cleared_eq).trans up
    exact (((State.KeepsQueues.of_eq cleared_eq).trans (State.offerAnswer_keepsQueues stillUp id _ _)).trans
      (State.sendDecision_keepsQueues _)).into
  next => exact s.queuesKeptBy_self

theorem execClear_keepsQueues (events : BitVec 16) (s : State) : s.queuesKeptBy (execClear events s) := by
  unfold execClear
  split
  · exact State.queuesKeptBy_of_eq
  · exact s.queuesKeptBy_self

theorem execResync_keepsQueues (head : Byte) (s : State) : s.queuesKeptBy (execResync head s) := by
  unfold execResync
  split
  · split
    · exact State.queuesKeptBy_of_eq
    · exact s.queuesKeptBy_self
  · exact s.queuesKeptBy_self

/-! ### The Input Relay -/

theorem execKeys_keepsQueues (modifiers : Byte) (codes : Table 6 Byte) (s : State) :
    s.queuesKeptBy (execKeys modifiers codes s) := by
  unfold execKeys
  split
  · extract_lets keys changed acted replaced
    have toActed : s.KeepsQueues acted := .ite .of_eq (.refl s)
    have toReplaced : s.KeepsQueues replaced := toActed.before rfl
    exact (toReplaced.trans (.of_input fun hs => State.offerKeyboard_bounded hs modifiers keys)).into
  · exact s.queuesKeptBy_self

theorem execPointer_keepsQueues (x y : BitVec 16) (buttons wheel : Byte) (s : State) :
    s.queuesKeptBy (execPointer x y buttons wheel s) := by
  unfold execPointer
  split
  · extract_lets px py b moved pressed afterMotion afterButtons positioned
    have toMotion : s.KeepsQueues afterMotion := .ite .of_eq (.refl s)
    have toButtons : afterMotion.KeepsQueues afterButtons := .ite .of_eq (.refl afterMotion)
    have toPositioned : s.KeepsQueues positioned := (toMotion.trans toButtons).before rfl
    obtain ⟨low, high⟩ := pointerWheel_limits wheel
    exact (toPositioned.trans (.of_input fun hs =>
      State.offerPointer_bounded hs (InputEntry.inLimits_pointer low high))).into
  · exact s.queuesKeptBy_self

/-- The transmitter may begin a frame (R156). -/
theorem State.tryBegin_keepsQueues {s : State} {f : Relay → Relay} (queue : (f s.relay).queue = s.relay.queue) :
    s.KeepsQueues (s.updRelay fun r => (f r).tryBegin) :=
  .of_input fun hs => (queue.symm ▸ hs : inputBounded (f s.relay).queue).sublist (Relay.tryBegin_queue _)

theorem execInputFrameEnd_keepsQueues (s : State) : s.queuesKeptBy (execInputFrameEnd s) := by
  unfold execInputFrameEnd
  split
  · exact s.queuesKeptBy_self
  · exact (State.tryBegin_keepsQueues (f := fun r => { r with sending := none }) rfl).into

theorem execLamp_keepsQueues (set : Byte) (s : State) : s.queuesKeptBy (execLamp set s) := by
  unfold execLamp
  extract_lets overrun received
  have toOverrun : s.KeepsQueues overrun := .ite (s.raise_keepsQueues _) (.refl s)
  have toReceived : s.KeepsQueues received := toOverrun.before rfl
  split
  · exact ((toReceived.trans (received.offerLamp_keepsQueues set)).trans (State.sendDecision_keepsQueues _)).into
  · exact toReceived.into

/-! ### A step -/

/-- Each command goes on and keeps the bounds. -/
theorem exec_keepsQueues (c : Instr) (s : State) : s.queuesKeptBy (exec c s) := by
  cases c with
  | partReset p line ready => exact execPartReset_keepsQueues p line ready s
  | activate | precharge | prechargeAll | write | writeAutoPrecharge | read | readAutoPrecharge | refresh | calibrate
  | powerDownEntry | powerDownExit | selfRefreshEntry | selfRefreshExit => exact exec_rank_keepsQueues rfl s
  | modeSet n v => exact execModeSet_keepsQueues n v s
  | memoryReset => exact s.assertMemoryReset_keepsQueues.into
  | observedWrite o => exact execObservedWrite_keepsQueues o s
  | observedRead o => exact execObservedRead_keepsQueues o s
  | encodeCompletion => exact execEncodeCompletion_keepsQueues s
  | stallTimerExpiry h => exact execStallTimerExpiry_keepsQueues h s
  | tick => exact s.takeTick_keepsQueues.into
  | deferralAbandoned i => exact execDeferralAbandoned_keepsQueues i s
  | overrideHoldExpiry => exact execOverrideHoldExpiry_keepsQueues s
  | lanesAligned => exact execLanesAligned_keepsQueues s
  | laneAlignmentLost lane => exact execLaneAlignmentLost_keepsQueues lane s
  | helloRepeatTimerExpiry => exact execHelloRepeatTimerExpiry_keepsQueues s
  | aligningTimerExpiry => exact execAligningTimerExpiry_keepsQueues s
  | frameEnd => exact execFrameEnd_keepsQueues s
  | hello version => exact execHello_keepsQueues version s
  | keys modifiers codes => exact execKeys_keepsQueues modifiers codes s
  | pointer x y buttons wheel => exact execPointer_keepsQueues x y buttons wheel s
  | set setting head value => exact execSet_keepsQueues setting head value s
  | apply => exact execApply_keepsQueues s
  | readRequest id item head flags => exact execReadRequest_keepsQueues id item head flags s
  | clear events => exact execClear_keepsQueues events s
  | resync head => exact execResync_keepsQueues head s
  | readyLevelRise => exact (State.tryBegin_keepsQueues (f := fun r => { r with ready := true }) rfl).into
  | inputFrameEnd => exact execInputFrameEnd_keepsQueues s
  | lamp set => exact execLamp_keepsQueues set s
  | noOp => exact s.queuesKeptBy_self
  | epochEnd | memoryResetRelease | readyLevelFall | badUpstreamFrame | inputLineBadFrame =>
    exact State.queuesKeptBy_of_eq

/-- A step keeps the bounds of both queues. -/
theorem step_keepsQueues {s t : State} (h : step s = .next t) : s.KeepsQueues t := by
  unfold step at h
  split at h
  · obtain rfl := Host.Outcome.next.inj h
    exact .of_eq rfl
  next c rest _ =>
    obtain ⟨u, hu, kept⟩ := exec_keepsQueues c { s with pending := rest }
    obtain rfl := Host.Outcome.next.inj (h.symm.trans hu)
    exact kept.after rfl

/-- Settles O55: a step is a chain of operations of which each keeps the bounds of the input queue and those of the
control FIFO. -/
theorem queuesStayBounded : Obligations.QueuesStayBounded := by
  refine ⟨fun s t bounded h => (step_keepsQueues h).input bounded, fun s t bounded h => ?_⟩
  rw [State.controlFifoBounded_iff] at bounded ⊢
  exact (step_keepsQueues h).control bounded

end Sys2Proof.Machine
end

section
/-! SUPPORT. The send arbiter (R145, R146): what a send decision takes, and the order of the tile frames. -/

namespace Sys2Proof.Machine

/-! ### The end of a frame -/

/-- At the end of a frame other than a tile frame the wire is idle and the next send decision is taken (R146). -/
theorem exec_frameEnd_of_noTile {s : State} (busy : s.link.wire ≠ .idle) (noTile : ∀ i, s.link.wire ≠ .tile i) :
    exec .frameEnd s = .next ({ s with link := { s.link with wire := .idle } } : State).sendDecision := by
  cases wire : s.link.wire with
  | idle => exact absurd wire busy
  | tile i => exact absurd wire (noTile i)
  | control | status => simp only [exec, execFrameEnd, State.endFrame, wire]

/-! ### What a decision takes -/

section
variable {s : State}

theorem State.sendDecision_of_down (down : s.link.state = .down) : s.sendDecision = s := by
  unfold State.sendDecision
  cases wire : s.link.wire with
  | idle => simp only [down]
  | _ => rfl

variable (idle : s.link.wire = .idle) (on : s.link.state ≠ .down)

include idle on

/-- The frame at the head of the control FIFO begins. -/
theorem State.sendDecision_of_frame {f : ControlFrame} {rest : List ControlFrame} (control : s.link.control = f :: rest) :
    s.sendDecision = ({ s with link := { s.link with control := rest } } : State).beginControl f := by
  unfold State.sendDecision
  cases state : s.link.state with
  | down => exact absurd state on
  | aligning | up => simp only [idle, control]

theorem State.sendDecision_of_empty (control : s.link.control = []) :
    s.sendDecision = if s.link.state = .up then s.sendTile [.critical, .high, .normal] else s := by
  unfold State.sendDecision
  cases state : s.link.state with
  | down => exact absurd state on
  | aligning | up => simp only [idle, control]

end

/-- A frame other than STATUS and LAMP goes onto the wire as it was queued. -/
theorem State.beginControl_of_plain {s : State} {f : ControlFrame} (notStatus : f ≠ .status) (notLamp : f.isLamp = false) :
    s.beginControl f = { s with link := { s.link with wire := .control f } } := by
  cases f with
  | status => exact absurd rfl notStatus
  | lamp => exact absurd notLamp nofun
  | hello | head | answer => rfl

/-! ### The head a class serves next -/

/-- The first number that meets a condition is the least one. -/
theorem find?_finRange {n : Nat} {p : Fin n → Bool} {k : Fin n} (found : (List.finRange n).find? p = some k) :
    p k = true ∧ ∀ j, p j = true → k ≤ j := by
  obtain ⟨meets, before, after, split, none⟩ := List.find?_eq_some_iff_append.1 found
  refine ⟨meets, fun j hj => ?_⟩
  have sorted : (before ++ k :: after).Pairwise (· < ·) := split ▸ List.pairwise_lt_finRange n
  have member : j ∈ before ++ k :: after := split ▸ List.mem_finRange j
  obtain earlier | rfl | later := (List.mem_append.1 member).imp_right List.mem_cons.1
  · exact absurd hj (by simpa using none j earlier)
  · exact le_refl j
  · exact (List.rel_of_pairwise_cons (List.pairwise_append.1 sorted).2.1 later).le

/-- The cyclic order that begins behind `l`, by the distance from `l + 1`. -/
theorem cyclicOrder_eq : ∀ l : Fin 4, [l + 1, l + 2, l + 3, l] = (List.finRange 4).map (l + 1 + ·) := by decide

/-- The class of a head in force (R121). -/
def State.classOf (h : Fin 4) (s : State) : HeadClass := (s.link.current.heads.look h).cls

section
variable {s : State} {c : HeadClass}

/-- Whether a head of the class waits for the arbiter. -/
def State.waitsIn (c : HeadClass) (h : Fin 4) (s : State) : Bool :=
  decide (s.classOf h = c) && !(s.link.send.look h).isEmpty

theorem State.waitsIn_iff {h : Fin 4} : s.waitsIn c h = true ↔ s.classOf h = c ∧ s.link.send.look h ≠ [] := by
  simp [State.waitsIn]

theorem State.nextHead_eq (c : HeadClass) (s : State) : s.nextHead c =
    ((List.finRange 4).find? fun k => s.waitsIn c (s.link.lastServed.of c + 1 + k)).map
      (s.link.lastServed.of c + 1 + ·) := by
  rw [State.nextHead, cyclicOrder_eq, List.find?_map]
  rfl

/-- The head chosen waits, and comes before every other head of the class that waits (R145). -/
theorem State.nextHead_some {h : Fin 4} (chosen : s.nextHead c = some h) :
    s.classOf h = c ∧ s.link.send.look h ≠ [] ∧ ∀ q, s.link.send.look q ≠ [] → s.classOf q = c →
      (h - s.link.lastServed.of c - 1).1 ≤ (q - s.link.lastServed.of c - 1).1 := by
  rw [State.nextHead_eq] at chosen
  obtain ⟨k, found, rfl⟩ := Option.map_eq_some_iff.1 chosen
  obtain ⟨waits, least⟩ := find?_finRange found
  obtain ⟨own, fifo⟩ := State.waitsIn_iff.1 waits
  refine ⟨own, fifo, fun q waitsToo same => ?_⟩
  have distance : ∀ l j : Fin 4, l + 1 + j - l - 1 = j ∧ l + 1 + (j - l - 1) = j := by decide
  rw [(distance _ k).1]
  refine least _ ?_
  rw [(distance _ q).2]
  exact State.waitsIn_iff.2 ⟨same, waitsToo⟩

theorem State.nextHead_none (none : s.nextHead c = none) {q : Fin 4} (same : s.classOf q = c) :
    s.link.send.look q = [] := by
  by_contra waits
  rw [State.nextHead, List.find?_eq_none] at none
  exact none q (mem_cyclicOrder _ q) (State.waitsIn_iff.2 ⟨same, waits⟩)

/-! ### The tile frame that begins -/

theorem State.sendTile_of_none (none : ∀ h, s.link.send.look h = []) (l : List HeadClass) : s.sendTile l = s := by
  induction l with
  | nil => rfl
  | cons c l ih =>
    rw [State.sendTile]
    split
    next h _ => simp only [none h]
    next => exact ih

/-- Over classes in their order, the first with a record queued gives the tile frame (R145). -/
theorem State.sendTile_of_some {l : List HeadClass} (order : l.Pairwise fun c d => c.place ≤ d.place)
    (waiting : ∃ h, s.link.send.look h ≠ [] ∧ s.classOf h ∈ l) :
    ∃ h i rest, s.nextHead (s.classOf h) = some h ∧ s.link.send.look h = i :: rest ∧
      (∀ q, s.link.send.look q ≠ [] → s.classOf q ∈ l → (s.classOf h).place ≤ (s.classOf q).place) ∧
      s.sendTile l = s.beginTile (s.classOf h) h i rest := by
  induction l with
  | nil =>
    obtain ⟨h, -, member⟩ := waiting
    exact absurd member List.not_mem_nil
  | cons c l ih =>
    obtain ⟨first, order⟩ := List.pairwise_cons.1 order
    cases chosen : s.nextHead c with
    | some h =>
      obtain ⟨rfl, waits, -⟩ := State.nextHead_some chosen
      obtain ⟨i, rest, fifo⟩ := List.exists_cons_of_ne_nil waits
      refine ⟨h, i, rest, chosen, fifo, fun q _ member => ?_, by simp only [State.sendTile, chosen, fifo]⟩
      obtain same | later := List.mem_cons.1 member
      · exact same ▸ Nat.le_refl _
      · exact first _ later
    | none =>
      have later : ∀ q, s.link.send.look q ≠ [] → s.classOf q ∈ c :: l → s.classOf q ∈ l := fun q waits member =>
        (List.mem_cons.1 member).resolve_left fun same => waits (State.nextHead_none chosen same)
      obtain ⟨q, waits, member⟩ := waiting
      obtain ⟨h, i, rest, next, fifo, least, begun⟩ := ih order ⟨q, waits, later q waits member⟩
      exact ⟨h, i, rest, next, fifo, fun q waits member => least q waits (later q waits member),
        by simp only [State.sendTile, chosen, begun]⟩

end

/-! ### The offers -/

/-- A HEAD, LAMP or STATUS frame, and the frames of its kind. -/
theorem State.offered_single {s offered : State} {f : ControlFrame} {kind : ControlFrame → Bool}
    (offer : (∃ h, offered = s.offerHead h ∧ kind = ControlFrame.isHead h ∧ f = .head (s.headFrame h)) ∨
      (∃ w, offered = s.offerLamp w ∧ kind = ControlFrame.isLamp ∧ f = .lamp w) ∨
      (offered = s.offerStatus ∧ kind = (· == .status) ∧ f = .status)) :
    offered = s.offerSingle f ∧ kind = fun g => decide (g.kind = f.kind) := by
  obtain ⟨h, rfl, rfl, rfl⟩ | ⟨w, rfl, rfl, rfl⟩ | ⟨rfl, rfl, rfl⟩ := offer
  · refine ⟨s.offerHead_eq h, funext fun g => ?_⟩
    rw [← ControlFrame.isHead_eq, State.headFrame_head]
  · exact ⟨s.offerLamp_eq w, funext (ControlFrame.isLamp_eq w)⟩
  · exact ⟨s.offerStatus_eq, funext ControlFrame.beq_status⟩

/-- Settles O45: the offer of a frame of a single kind, the end of a frame, and the send decision by what waits. -/
theorem sendArbiter : Obligations.SendArbiter := by
  refine ⟨fun s offered f kind offer => ?_, fun s idle => ?_, fun s frame => ?_, fun s rest => ?_, fun s idle on => ?_⟩
  · obtain ⟨rfl, rfl⟩ := State.offered_single offer
    simp only [decide_eq_true_eq, decide_eq_false_iff_not]
    refine ⟨State.offerSingle_of_not_up, fun up => ⟨State.offerSingle_of_queued up, fun none room => ?_,
      fun a id v x b none full control newest => ?_⟩⟩
    · rw [State.offerSingle_of_none up none, State.pushControl_of_room room]
    · rw [State.offerSingle_of_none up none, State.pushControl_of_full full control newest]
  · simp only [exec, execFrameEnd, idle]
  · obtain ⟨_, wire⟩ | ⟨_, wire⟩ := frame
    · exact exec_frameEnd_of_noTile (by simp [wire]) (by simp [wire])
    · exact exec_frameEnd_of_noTile (by simp [wire]) (by simp [wire])
  · exact rest.elim State.sendDecision_of_busy State.sendDecision_of_down
  · refine ⟨fun g rest control notStatus notLamp => ?_, fun rest control => ?_, fun w rest control => ?_,
      fun control nothing => ?_, fun control up waits => ?_⟩
    · rw [State.sendDecision_of_frame idle on control, State.beginControl_of_plain notStatus notLamp]
    · rw [State.sendDecision_of_frame idle on control]
      rfl
    · rw [State.sendDecision_of_frame idle on control]
      rfl
    · rw [State.sendDecision_of_empty idle on control]
      split
      next up => exact State.sendTile_of_none (nothing.resolve_left (not_not.2 up)) _
      next => rfl
    · have every : ∀ c : HeadClass, c ∈ [HeadClass.critical, .high, .normal] := fun c => by cases c <;> decide
      obtain ⟨q, waits⟩ := waits
      obtain ⟨h, i, rest, next, fifo, least, begun⟩ :=
        State.sendTile_of_some (s := s) (by decide) ⟨q, waits, every (s.classOf q)⟩
      obtain ⟨-, -, first⟩ := State.nextHead_some next
      refine ⟨h, i, rest, fifo, fun q waits => least q waits (every _), first, ?_⟩
      rw [State.sendDecision_of_empty idle on control, if_pos up, begun]
      rfl

end Sys2Proof.Machine
end

section
/-! SUPPORT. The link enters UP (R141): the marking of R60, and the frames that are queued, one after another. -/

namespace Sys2Proof.Machine

/-! ### Link UP marking (R60) -/

/-- The marking of one head: every surface of its flip set wholly stale and its quality map EXACT, unless it is OFF. -/
def State.markHead (h : Fin 4) (s : State) : State :=
  if s.isOn h then (s.markEach (s.heads.look h).flipSet).updHead h Head.allExact else s

theorem State.linkUpMarking_eq (s : State) : s.linkUpMarking = s.forHeads State.markHead := rfl

theorem State.markHead_heads (h q : Fin 4) (s : State) : (s.markHead h).heads.look q =
    if q = h ∧ s.isOn q = true then (s.heads.look q).allExact else s.heads.look q := by
  unfold State.markHead
  by_cases on : s.isOn h = true
  · rw [if_pos on, State.updHead_heads, Table.look_upd]
    by_cases own : q = h
    · subst own
      simp [on]
    · simp [own]
  · rw [if_neg on, if_neg]
    rintro ⟨rfl, isOn⟩
    exact on isOn

theorem State.markHead_surfaces (h : Fin 4) (id : Fin 16) (s : State) : (s.markHead h).surfaces.look id =
    if s.isOn h = true ∧ id ∈ (s.heads.look h).flipSet then (s.surfaces.look id).map Surface.markWhole
    else s.surfaces.look id := by
  unfold State.markHead
  split
  next on =>
    rw [show ((s.markEach (s.heads.look h).flipSet).updHead h Head.allExact).surfaces =
      (s.markEach (s.heads.look h).flipSet).surfaces from rfl, State.markEach_look]
    simp only [on, true_and]
  next off => rw [if_neg fun both => off both.1]

/-- A head keeps its state and its flip set. -/
theorem State.markHead_isOn (h q : Fin 4) (s : State) : (s.markHead h).isOn q = s.isOn q ∧
    ((s.markHead h).heads.look q).flipSet = (s.heads.look q).flipSet := by
  unfold State.isOn
  rw [State.markHead_heads]
  split
  · exact ⟨rfl, rfl⟩
  · exact ⟨rfl, rfl⟩

theorem Head.allExact_allExact (d : Head) : d.allExact.allExact = d.allExact := rfl

theorem Surface.markWhole_markWhole (f : Surface) : f.markWhole.markWhole = f.markWhole := rfl

/-- The heads of a list marked one after another. -/
theorem State.markHeads_look (l : List (Fin 4)) (s : State) :
    (∀ q, (l.foldl (fun v h => v.markHead h) s).heads.look q =
      if q ∈ l ∧ s.isOn q = true then (s.heads.look q).allExact else s.heads.look q) ∧
    ∀ id, (l.foldl (fun v h => v.markHead h) s).surfaces.look id =
      if ∃ q ∈ l, s.isOn q = true ∧ id ∈ (s.heads.look q).flipSet then (s.surfaces.look id).map Surface.markWhole
      else s.surfaces.look id := by
  induction l generalizing s with
  | nil => exact ⟨fun q => by simp, fun id => by simp⟩
  | cons h l ih =>
    obtain ⟨heads, surfaces⟩ := ih (s.markHead h)
    have kept := fun q => s.markHead_isOn h q
    refine ⟨fun q => ?_, fun id => ?_⟩
    · rw [List.foldl_cons, heads, (kept q).1, State.markHead_heads]
      by_cases own : q = h
      · subst own
        by_cases on : s.isOn q = true
        · simp only [on, and_true, if_true, List.mem_cons_self, Head.allExact_allExact, ite_self]
        · simp only [on, and_false, Bool.false_eq_true, if_false]
      · simp only [own, false_and, if_false, List.mem_cons, false_or]
    · simp only [List.foldl_cons, surfaces, kept, State.markHead_surfaces, List.exists_mem_cons_iff]
      by_cases own : s.isOn h = true ∧ id ∈ (s.heads.look h).flipSet
      · simp only [own, and_self, true_or, if_true, Option.map_map, Function.comp_def, Surface.markWhole_markWhole,
          ite_self]
      · simp only [own, false_or, if_false]

theorem State.linkUpMarking_heads (s : State) (h : Fin 4) : s.linkUpMarking.heads.look h =
    if (s.heads.look h).state = .off then s.heads.look h else (s.heads.look h).allExact := by
  rw [State.linkUpMarking_eq, State.forHeads, (State.markHeads_look allHeads s).1 h]
  simp [allHeads, State.isOn]

theorem State.linkUpMarking_surfaces (s : State) (id : Fin 16) : s.linkUpMarking.surfaces.look id =
    if ∃ h, (s.heads.look h).state ≠ .off ∧ id ∈ (s.heads.look h).flipSet then
      (s.surfaces.look id).map Surface.markWhole
    else s.surfaces.look id := by
  rw [State.linkUpMarking_eq, State.forHeads, (State.markHeads_look allHeads s).2 id]
  simp [allHeads, State.isOn]

/-! ### The frames queued -/

/-- The state with another control FIFO. -/
def State.withControl (l : List ControlFrame) (s : State) : State := { s with link := { s.link with control := l } }

@[simp] theorem State.withControl_control (l : List ControlFrame) (s : State) : (s.withControl l).link.control = l := rfl

@[simp] theorem State.withControl_withControl (l m : List ControlFrame) (s : State) :
    (s.withControl l).withControl m = s.withControl m := rfl

/-- A frame of a new kind joins a FIFO with room. -/
theorem State.offerSingle_joins {s : State} {f : ControlFrame} (up : s.link.state = .up)
    (none : ∀ g ∈ s.link.control, g.kind ≠ f.kind) (room : s.link.control.length < 16) :
    s.offerSingle f = s.withControl (s.link.control ++ [f]) := by
  rw [State.offerSingle_of_none up none, State.pushControl_of_room room]
  rfl

/-- Frames of kinds that differ, offered one after another. -/
theorem State.offerSingles {s : State} (up : s.link.state = .up) {fs : List ControlFrame}
    (distinct : ((s.link.control ++ fs).map ControlFrame.kind).Nodup) (room : (s.link.control ++ fs).length ≤ 16) :
    fs.foldl (fun v f => v.offerSingle f) s = s.withControl (s.link.control ++ fs) := by
  induction fs generalizing s with
  | nil =>
    rw [List.append_nil]
    rfl
  | cons f fs ih =>
    have none : ∀ g ∈ s.link.control, g.kind ≠ f.kind := fun g member same => by
      rw [List.map_append, List.nodup_append] at distinct
      exact distinct.2.2 _ (List.mem_map_of_mem member) _ (List.mem_map_of_mem List.mem_cons_self) same
    have below : s.link.control.length < 16 := by
      rw [List.length_append, List.length_cons] at room
      omega
    rw [List.append_cons] at distinct room ⊢
    rw [List.foldl_cons, State.offerSingle_joins up none below]
    exact ih (s := s.withControl (s.link.control ++ [f])) up distinct room

/-- The HEAD frame of each head, in order. -/
def State.headFrames (s : State) : List ControlFrame := allHeads.map fun h => .head (s.headFrame h)

/-- What is queued at the entry into UP (R141). -/
def State.upFrames (s : State) : List ControlFrame :=
  s.headFrames ++ (if s.link.reportable ≠ 0 then [.status] else []) ++ [.lamp s.relay.lamps]

theorem State.forHeads_offerHead (s : State) : s.forHeads (fun h v => v.offerHead h) =
    s.headFrames.foldl (fun v f => v.offerSingle f) s := by
  have same : ∀ (l : List (Fin 4)) (v : State), v.heads = s.heads → v.scans = s.scans →
      l.foldl (fun v h => v.offerHead h) v =
        (l.map fun h => ControlFrame.head (s.headFrame h)).foldl (fun v f => v.offerSingle f) v := by
    intro l
    induction l with
    | nil => exact fun v _ _ => rfl
    | cons h l ih =>
      intro v heads scans
      have frame : v.headFrame h = s.headFrame h := by simp only [State.headFrame, heads, scans]
      rw [List.foldl_cons, List.map_cons, List.foldl_cons, ← frame, ← State.offerHead_eq]
      exact ih _ (by simpa using heads) (by simpa using scans)
  exact same allHeads s rfl rfl

/-- UP with its timers stopped and the HELLO frames removed: the entry into UP before the marking (R141). -/
def State.entersUp (s : State) : State :=
  { s with link := { s.link with state := .up, aligningAt := none, helloAt := none, control := [] } }

/-- The frames queued, and the STATUS pending flag clear. -/
def State.announced (s : State) : State :=
  { s with link := { s.link with control := s.upFrames, statusPending := false } }

@[simp] theorem State.entersUp_frame (s : State) : s.entersUp.straps = s.straps ∧
    s.entersUp.memoryResetLine = s.memoryResetLine ∧ s.entersUp.channel = s.channel ∧
    s.entersUp.descriptors = s.descriptors ∧ s.entersUp.surfaces = s.surfaces ∧ s.entersUp.heads = s.heads ∧
    s.entersUp.scans = s.scans ∧ s.entersUp.slots = s.slots ∧ s.entersUp.rovers = s.rovers ∧
    s.entersUp.encodeQueue = s.encodeQueue ∧ s.entersUp.encoder = s.encoder ∧ s.entersUp.budget = s.budget ∧
    s.entersUp.relay = s.relay ∧ s.entersUp.counters = s.counters ∧ s.entersUp.pending = s.pending :=
  ⟨rfl, rfl, rfl, rfl, rfl, rfl, rfl, rfl, rfl, rfl, rfl, rfl, rfl, rfl, rfl⟩

@[simp] theorem State.announced_frame (s : State) : s.announced.straps = s.straps ∧
    s.announced.memoryResetLine = s.memoryResetLine ∧ s.announced.channel = s.channel ∧
    s.announced.descriptors = s.descriptors ∧ s.announced.surfaces = s.surfaces ∧ s.announced.heads = s.heads ∧
    s.announced.scans = s.scans ∧ s.announced.slots = s.slots ∧ s.announced.rovers = s.rovers ∧
    s.announced.encodeQueue = s.encodeQueue ∧ s.announced.encoder = s.encoder ∧ s.announced.budget = s.budget ∧
    s.announced.relay = s.relay ∧ s.announced.counters = s.counters ∧ s.announced.pending = s.pending :=
  ⟨rfl, rfl, rfl, rfl, rfl, rfl, rfl, rfl, rfl, rfl, rfl, rfl, rfl, rfl, rfl⟩

@[simp] theorem State.announced_link (s : State) :
    s.announced.link = { s.link with control := s.upFrames, statusPending := false } := rfl

/-- The frames that R141 queues, one after another. -/
theorem State.announced_eq {s : State} (up : s.link.state = .up) (empty : s.link.control = []) :
    let heads := s.forHeads fun h v => v.offerHead h
    let status := if heads.link.reportable ≠ 0 then heads.offerStatus else heads
    let tested := { status with link := { status.link with statusPending := false } }
    tested.offerLamp tested.relay.lamps = s.announced := by
  have four : s.headFrames.length = 4 := by simp [State.headFrames, allHeads]
  have kinds : ∀ g ∈ s.headFrames, ∃ d, g = .head d := fun g member => by
    obtain ⟨h, -, rfl⟩ := List.mem_map.1 member
    exact ⟨_, rfl⟩
  have distinct : (s.headFrames.map ControlFrame.kind).Nodup := by
    rw [State.headFrames, List.map_map]
    refine (List.nodup_finRange 4).map fun h q same => ?_
    have own := ControlFrame.kind_head_inj.1 same
    rwa [State.headFrame_head, State.headFrame_head] at own
  intro heads status tested
  have heads_eq : heads = s.withControl s.headFrames := by
    rw [show heads = _ from s.forHeads_offerHead, State.offerSingles up, empty, List.nil_append]
    · rwa [empty, List.nil_append]
    · rw [empty, List.nil_append, four]
      decide
  have status_eq : status = s.withControl (s.headFrames ++ if s.link.reportable ≠ 0 then [.status] else []) := by
    have report : heads.link.reportable = s.link.reportable := by rw [heads_eq]; rfl
    simp only [status, report]
    split
    · rw [heads_eq, State.offerStatus_eq]
      refine State.offerSingle_joins up (fun g member => ?_) (four.trans_lt (by decide))
      obtain ⟨d, rfl⟩ := kinds g member
      exact nofun
    · rw [heads_eq, List.append_nil]
  have tested_eq : tested = { s with link := { s.link with
      control := s.headFrames ++ (if s.link.reportable ≠ 0 then [.status] else []), statusPending := false } } := by
    simp only [tested, status_eq]
    rfl
  rw [tested_eq, State.offerLamp_eq]
  refine State.offerSingle_joins up (fun g member => ?_) ?_
  · obtain head | status := List.mem_append.1 member
    · obtain ⟨d, rfl⟩ := kinds g head
      exact nofun
    · split at status
      · obtain rfl := List.mem_singleton.1 status
        exact nofun
      · exact absurd status List.not_mem_nil
  · dsimp only
    split <;> simp [four]

/-- The entry into UP in the order of R141. -/
theorem State.enterUp_eq {s : State} (hellos : ∀ f ∈ s.link.control, f.isHello = true) :
    s.enterUp = (s.entersUp.linkUpMarking.announced.offerNotice (.link true)).sendDecision := by
  unfold State.enterUp
  extract_lets _ up _ cleared marked heads status _ tested lamp notice
  have cleared_eq : cleared = s.entersUp := by
    have empty : s.link.control.filter (fun f => !f.isHello) = [] := by simpa using hellos
    exact congrArg (fun l => ({ s with link :=
      { s.link with state := .up, aligningAt := none, helloAt := none, control := l } } : State)) empty
  have marked_eq : marked = s.entersUp.linkUpMarking := congrArg State.linkUpMarking cleared_eq
  have lamp_eq : lamp = marked.announced := State.announced_eq (by rw [marked_eq]; simp [State.entersUp])
    (by rw [marked_eq]; simp [State.entersUp])
  rw [← marked_eq, ← lamp_eq]

/-! ### The state entered -/

/-- A marking changes nothing that a HEAD frame says. -/
theorem State.linkUpMarking_headFrame (s : State) (h : Fin 4) : s.linkUpMarking.headFrame h = s.headFrame h := by
  have same : ∀ d : Head, d = s.heads.look h ∨ d = (s.heads.look h).allExact → d.state = (s.heads.look h).state ∧
      d.flipSet = (s.heads.look h).flipSet ∧ d.geometry = (s.heads.look h).geometry := by
    rintro d (rfl | rfl) <;> exact ⟨rfl, rfl, rfl⟩
  obtain ⟨state, flipSet, geometry⟩ := same (s.linkUpMarking.heads.look h) (by
    rw [State.linkUpMarking_heads]
    split
    · exact .inl rfl
    · exact .inr rfl)
  simp only [State.headFrame, state, flipSet, geometry, State.linkUpMarking_frame]

/-- The frames are those of the state in which the HELLO is taken. -/
theorem State.entered_upFrames (s : State) : s.entersUp.linkUpMarking.upFrames =
    .head (s.headFrame 0) :: ([.head (s.headFrame 1), .head (s.headFrame 2), .head (s.headFrame 3)] ++
      (if s.link.reportable ≠ 0 then [.status] else []) ++ [.lamp s.relay.lamps]) := by
  have frames : ∀ h, s.entersUp.headFrame h = s.headFrame h := fun h => rfl
  simp only [State.upFrames, State.headFrames, State.linkUpMarking_headFrame, frames, State.linkUpMarking_frame]
  rfl

/-- A send decision with a HEAD frame first: it begins on an idle wire, and waits for a busy one (R145). -/
theorem State.sendDecision_queuedHead (m : State) {l : Link} (r : Relay) {d : HeadFrame} {rest frames : List ControlFrame}
    (on : l.state ≠ .down) (first : frames = .head d :: rest) : ∃ w c,
    ({ m with link := { l with control := frames, statusPending := false }, relay := r } : State).sendDecision =
      { m with link := { l with wire := w, control := c, statusPending := false }, relay := r } ∧
    (l.wire = .idle → .head d :: c = frames ∧ w = .control (.head d)) ∧
    (l.wire ≠ .idle → c = frames ∧ w = l.wire) := by
  by_cases idle : l.wire = .idle
  · exact ⟨.control (.head d), rest, (State.sendDecision_of_frame idle on first).trans
      (State.beginControl_of_plain nofun rfl), fun _ => ⟨first.symm, rfl⟩, fun busy => absurd idle busy⟩
  · exact ⟨l.wire, frames, State.sendDecision_of_busy idle, fun yes => absurd yes idle, fun _ => ⟨rfl, rfl⟩⟩

/-- The first HEAD frame begins on an idle wire, and waits behind a frame that is being sent (R141, R145). -/
theorem exec_hello_up {s : State} (aligning : s.link.state = .aligning)
    (hellos : ∀ f ∈ s.link.control, f.isHello = true) : ∃ w c,
    exec (.hello 1) s = .next { s.entersUp.linkUpMarking with
      link := { s.entersUp.link with wire := w, control := c, statusPending := false }
      relay := (s.offerNotice (.link true)).relay } ∧
    (s.link.wire = .idle → .head (s.headFrame 0) :: c = s.entersUp.linkUpMarking.upFrames ∧
      w = .control (.head (s.headFrame 0))) ∧
    (s.link.wire ≠ .idle → c = s.entersUp.linkUpMarking.upFrames ∧ w = s.link.wire) := by
  have entered : exec (.hello 1) s = .next s.enterUp := by simp only [exec, execHello, aligning, if_true]
  have noticed : s.entersUp.linkUpMarking.announced.offerNotice (.link true) = { s.entersUp.linkUpMarking with
      link := { s.entersUp.link with control := s.entersUp.linkUpMarking.upFrames, statusPending := false }
      relay := (s.offerNotice (.link true)).relay } :=
    State.eq_of_fields (link := by simp) (relay := by simp [State.offerNotice])
  rw [entered, State.enterUp_eq hellos, noticed]
  obtain ⟨w, c, sent, idle, busy⟩ := s.entersUp.linkUpMarking.sendDecision_queuedHead (l := s.entersUp.link)
    (s.offerNotice (.link true)).relay nofun s.entered_upFrames
  exact ⟨w, c, congrArg _ sent, idle, busy⟩

/-- Settles O43: the frames and the notice by the entry's one state, the marks by the marking of each head. -/
theorem linkUp : Obligations.LinkUp := by
  intro s aligning hellos frame report later
  obtain ⟨w, c, entered, idle, busy⟩ := exec_hello_up aligning hellos
  have frame_eq : ∀ h, frame h = .head (s.headFrame h) := fun h => by
    simp only [frame, State.headFrame]
    cases state : (s.heads.look h).state <;> rfl
  have frames : s.entersUp.linkUpMarking.upFrames = frame 0 :: later := by
    simp only [s.entered_upFrames, later, frame_eq]
    rfl
  rw [frames, ← frame_eq] at idle
  rw [frames] at busy
  have queued : c = later ∨ c = frame 0 :: later := by
    by_cases wire : s.link.wire = .idle
    · exact .inl (List.tail_eq_of_cons_eq (idle wire).1)
    · exact .inr (busy wire).1
  have short : later.length ≤ 5 := by
    simp only [later]
    split <;> simp
  refine ⟨_, entered, rfl, rfl, rfl, rfl, ?_, fun reports => ?_, fun wire => ?_, fun wire => ?_, fun h g on geometry => ?_,
    fun h off => ?_, fun h id f on member declared => ?_, fun id none => ?_, rfl, ?_, ?_⟩
  · obtain rfl | rfl := queued
    · exact short.trans (by decide)
    · exact Nat.succ_le_succ short
  · have member : ControlFrame.status ∈ later := by
      simp only [later]
      rw [if_pos reports]
      simp
    obtain rfl | rfl := queued
    · exact member
    · exact List.mem_cons_of_mem _ member
  · exact ⟨(idle wire).2, List.tail_eq_of_cons_eq (idle wire).1⟩
  · exact ⟨(busy wire).2, (busy wire).1⟩
  · simp only [State.linkUpMarking_heads, State.entersUp_frame, if_neg on, Head.allExact, geometry]
  · simp only [State.linkUpMarking_heads, State.entersUp_frame, if_pos off]
  · simp only [State.linkUpMarking_surfaces, State.entersUp_frame]
    rw [if_pos ⟨h, on, member⟩, declared]
    rfl
  · simp only [State.linkUpMarking_surfaces, State.entersUp_frame]
    refine if_neg ?_
    rintro ⟨h, on, member⟩
    exact none h on member
  · simp
  · simp

end Sys2Proof.Machine
end

section
/-! SUPPORT. The link states (R139, TABLE 34): the queue of a HELLO, the timers, and the lanes. -/

namespace Sys2Proof.Machine

/-! ### A HELLO (R139, R143) -/

section
variable {s : State}

/-- A HELLO joins an empty FIFO. -/
theorem State.offerHello_of_empty (empty : s.link.control = []) :
    s.offerHello = s.withControl [.hello s.straps.laneCount] := by
  have none : s.link.control.any ControlFrame.isHello = false := by rw [empty]; rfl
  rw [State.offerHello, none, if_neg Bool.false_ne_true, State.pushControl_of_room (by rw [empty]; decide), empty]
  rfl

/-- A HELLO that waits is enough. -/
theorem State.offerHello_of_waiting (waits : s.link.control.any ControlFrame.isHello = true) : s.offerHello = s :=
  if_pos waits

/-- A HELLO at the head of the FIFO begins on an idle wire. -/
theorem State.sendDecision_hello {n : Nat} {rest : List ControlFrame} (idle : s.link.wire = .idle)
    (on : s.link.state ≠ .down) (control : s.link.control = .hello n :: rest) :
    s.sendDecision = { s with link := { s.link with wire := .control (.hello n), control := rest } } :=
  (State.sendDecision_of_frame idle on control).trans (State.beginControl_of_plain nofun rfl)

/-! ### LANES_ALIGNED and the timers -/

/-- From DOWN, with nothing queued, the HELLO begins at once. -/
theorem exec_lanesAligned_down (down : s.link.state = .down) (idle : s.link.wire = .idle)
    (empty : s.link.control = []) : exec .lanesAligned s = .next { s with link := { s.link with
      state := .aligning
      aligned := Table.tab fun l => decide (l.1 < s.straps.laneCount)
      helloAt := some (s.budget.now + 10000)
      aligningAt := some (s.budget.now + 500000)
      wire := .control (.hello s.straps.laneCount) } } := by
  simp only [exec, execLanesAligned, down]
  rw [State.offerHello_of_empty (by exact empty), State.sendDecision_hello (by exact idle) (by simp [State.withControl]) rfl]
  simp only [State.withControl, ← empty]
  rfl

section
variable {e : Time} (aligning : s.link.state = .aligning) (reached : timeReached s.budget.now e = true)

include aligning reached

theorem exec_helloRepeatTimerExpiry_reached (timer : s.link.helloAt = some e) :
    exec .helloRepeatTimerExpiry s = .next ({ s.offerHello with
      link := { s.offerHello.link with helloAt := some (s.budget.now + 10000) } } : State).sendDecision := by
  simp only [exec, execHelloRepeatTimerExpiry, aligning, timer, State.reachTime_of_reached reached]
  rw [State.after, show s.offerHello.budget = s.budget by simp]
  rfl

theorem exec_aligningTimerExpiry_reached (timer : s.link.aligningAt = some e) :
    exec .aligningTimerExpiry s = .next { s with link := { s.link with
      state := .down, aligningAt := none, helloAt := none, control := [], wire := .idle,
      acquired := Table.const false, arriving := none, aligned := Table.const false } } := by
  simp only [exec, execAligningTimerExpiry, aligning, timer, State.reachTime_of_reached reached, State.leaveAligning]

end

/-! ### HELLO -/

/-- HELLO brings the link UP whatever its FIFO holds. -/
theorem State.enterUp_state (s : State) : s.enterUp.link.state = .up ∧ s.enterUp.link.aligningAt = none ∧
    s.enterUp.link.helloAt = none := by
  let π := fun t : State => (t.link.state, t.link.aligningAt, t.link.helloAt)
  have heads : ∀ t : State, π (t.forHeads fun h t => t.offerHead h) = π t := fun t =>
    foldl_keeps π _ (fun t h => by simp [π]) allHeads t
  simp only [π, Prod.mk.injEq] at heads
  unfold State.enterUp
  dsimp only
  split <;> simp [heads]

/-! ### The lanes (R138) -/

theorem State.everyLaneAcquired_iff : s.everyLaneAcquired = true ↔
    ∀ l : Fin 2, l.1 < s.straps.laneCount → s.link.acquired.look l = true := by
  simp [State.everyLaneAcquired, imp_iff_not_or]

/-- A lane that loses its alignment in ALIGNING takes the link DOWN, and in DOWN only its flag. -/
theorem exec_laneAlignmentLost_aligning {lane : Fin 2} (aligning : s.link.state = .aligning)
    (strapped : lane.1 < s.straps.laneCount) : exec (.laneAlignmentLost lane) s = .next (s.unalign lane).leaveAligning := by
  simp only [exec, execLaneAlignmentLost, strapped, if_true, aligning, State.unalign]

theorem exec_laneAlignmentLost_down {lane : Fin 2} (down : s.link.state = .down)
    (strapped : lane.1 < s.straps.laneCount) : exec (.laneAlignmentLost lane) s = .next (s.unalign lane) := by
  simp only [exec, execLaneAlignmentLost, strapped, if_true, down, State.unalign]

end

theorem exec_partReset_down (s : State) (p : Straps) (line ready : Bool) :
    ∃ t, exec (.partReset p line ready) s = .next t ∧ t.link.state = .down := by
  refine ⟨_, rfl, ?_⟩
  split
  · simp [State.assertMemoryReset_eq, State.initial, Link.reset]
  · simp [State.initial, Link.reset]

/-- The repeat timer, with the wire idle or busy, and a HELLO waiting or none. -/
theorem exec_helloRepeatTimerExpiry_cases {s : State} {e : Time} (aligning : s.link.state = .aligning)
    (timer : s.link.helloAt = some e) (reached : timeReached s.budget.now e = true) :
    let restarted : Link := { s.link with helloAt := some (s.budget.now + 10000) }
    (s.link.wire = .idle → s.link.control = [] → exec .helloRepeatTimerExpiry s =
      .next { s with link := { restarted with wire := .control (.hello s.straps.laneCount) } }) ∧
    (s.link.wire ≠ .idle → s.link.control = [] → exec .helloRepeatTimerExpiry s =
      .next { s with link := { restarted with control := [.hello s.straps.laneCount] } }) ∧
    (s.link.wire ≠ .idle → s.link.control.any ControlFrame.isHello = true →
      exec .helloRepeatTimerExpiry s = .next { s with link := restarted }) := by
  have on : s.link.state ≠ .down := by simp [aligning]
  intro restarted
  rw [exec_helloRepeatTimerExpiry_reached aligning reached timer]
  refine ⟨fun idle empty => ?_, fun busy empty => ?_, fun busy waits => ?_⟩
  · rw [State.offerHello_of_empty empty, State.sendDecision_hello (by exact idle) (by exact on) rfl]
    simp only [State.withControl, restarted, ← empty]
  · rw [State.offerHello_of_empty empty, State.sendDecision_of_busy (by exact busy)]
    rfl
  · rw [State.offerHello_of_waiting waits, State.sendDecision_of_busy (by exact busy)]

/-- Settles O41: each command by the state it finds the link in, and each lane by what the other has. -/
theorem linkStateTable : Obligations.LinkStateTable := by
  refine fun s => ⟨exec_partReset_down s, exec_lanesAligned_down, fun v state => ?_, fun v aligning other => ?_,
    fun aligning => ?_, fun e aligning timer reached => exec_helloRepeatTimerExpiry_cases aligning timer reached,
    fun e aligning timer reached => exec_aligningTimerExpiry_reached aligning reached timer, fun lane => ?_,
    fun lane strapped => ⟨fun down => exec_laneAlignmentLost_down down strapped,
      fun aligning => exec_laneAlignmentLost_aligning aligning strapped,
      fun up => ⟨_, exec_laneAlignmentLost_up up strapped, by simp⟩⟩⟩
  · obtain down | up := state
    · simp only [exec, execHello, down]
    · simp only [exec, execHello, up]
  · simp only [exec, execHello, aligning, if_neg other]
    rfl
  · exact ⟨s.enterUp, by simp only [exec, execHello, aligning, if_true], s.enterUp_state⟩
  · intro found every
    have acquires : lane.1 < s.straps.laneCount → s.acquireLane lane =
        if ({ s with link := found } : State).everyLaneAcquired
        then { s with link := found, pending := s.pending ++ [.lanesAligned] } else { s with link := found } :=
      fun strapped => if_pos strapped
    refine ⟨fun beyond => if_neg (Nat.not_lt.2 beyond), fun strapped all => ?_, fun strapped short => ?_,
      s.loseLane_of_acquiring lane, fun has => if_pos has⟩
    · rw [acquires strapped, if_pos (State.everyLaneAcquired_iff.2 all)]
    · rw [acquires strapped, if_neg fun all => short (State.everyLaneAcquired_iff.1 all)]

end Sys2Proof.Machine
end

section
/-! SUPPORT. Events (R152) and counters (R154). -/

namespace Sys2Proof.Machine

/-! ### Events -/

/-- Each event has one bit of its own: TABLE 38, entry by entry. -/
theorem Event.bit_and_bit (e x : Event) : e.bit &&& x.bit = if x = e then e.bit else 0 := by
  cases e <;> cases x <;> rfl

/-- A latch other than the event's is kept. -/
theorem State.raise_latched_other (s : State) {e x : Event} (other : x ≠ e) : (s.raise e).latched x = s.latched x := by
  have kept : (s.link.latches ||| e.bit) &&& x.bit = s.link.latches &&& x.bit := by
    rw [BitVec.and_comm, BitVec.and_or_distrib_left, BitVec.and_comm x.bit e.bit, Event.bit_and_bit, if_neg other,
      BitVec.and_comm]
    exact BitVec.or_zero
  unfold State.latched
  rw [State.raise, Link.raise_latches]
  split
  next => rw [kept]
  next => rfl

section
variable {s : State} {e : Event}

/-- A latched event changes nothing. -/
theorem State.raise_of_latched (latched : s.latched e = true) : s.raise e = s := by
  have set : s.link.latches &&& e.bit ≠ 0 := by simpa [State.latched] using latched
  rw [State.raise, Link.raise, if_neg set]

/-- An event that was not latched: the latch is set, and the STATUS pending flag where the event is not masked. -/
theorem State.raise_of_clear (clear : s.latched e = false) : s.raise e = { s with link := { s.link with
    latches := s.link.latches ||| e.bit
    statusPending := s.link.statusPending || decide (s.link.current.mask &&& e.bit = 0) } } := by
  have none : s.link.latches &&& e.bit = 0 := by simpa [State.latched] using clear
  rw [State.raise, Link.raise, if_pos none]

end

/-! ### Counters -/

/-- A counter stored is read back, and no other changes: TABLE 39, entry by entry. -/
theorem Counters.value_store (c : Counters) (k x : Counter) (v : BitVec 32) :
    (c.store k v).value x = if x = k then v else c.value x := by
  cases k <;> cases x <;> rfl

theorem saturatingAdd_toNat (v : BitVec 32) (n : Nat) : (saturatingAdd v n).toNat = min (v.toNat + n) 4294967295 := by
  rw [saturatingAdd, BitVec.toNat_ofNat]
  omega

/-- Settles O51: an event by its latch, a count by the counter it is stored in. -/
theorem eventsAndCounters : Obligations.EventsAndCounters := by
  refine ⟨fun s e => ⟨State.raise_of_latched, fun clear => ⟨s.raise_latched e, fun x other => s.raise_latched_other other,
    fun unmasked => ?_, fun masked => ?_, ?_⟩⟩, fun s k n => ⟨?_, fun x other => ?_, rfl⟩⟩
  · rw [State.raise_of_clear clear]
    simp [unmasked]
  · rw [State.raise_of_clear clear]
    dsimp only
    rw [decide_eq_false masked, Bool.or_false]
  · rw [State.raise_of_clear clear]
  · rw [State.countBy_counters, Counters.value_store, if_pos rfl, saturatingAdd_toNat]
  · rw [State.countBy_counters, Counters.value_store, if_neg other]

end Sys2Proof.Machine
end

section
/-! SUPPORT. Upstream frames (R147, R168, TABLE 47): what is discarded, the command the bytes spell, and what the lanes
carry. -/

namespace Sys2Proof.Machine

/-! ### Frames that are discarded, and CLEAR -/

/-- While the link is not UP a well-formed frame other than HELLO changes nothing (R147). -/
theorem exec_upstream_of_not_up {s : State} (notUp : s.link.state ≠ .up) :
    (∀ m k, exec (.keys m k) s = .next s) ∧ (∀ x y b w, exec (.pointer x y b w) s = .next s) ∧
    (∀ i h v, exec (.set i h v) s = .next s) ∧ exec .apply s = .next s ∧
    (∀ i t h f, exec (.readRequest i t h f) s = .next s) ∧ (∀ e, exec (.clear e) s = .next s) ∧
    (∀ h, exec (.resync h) s = .next s) := by
  cases state : s.link.state with
  | up => exact absurd state notUp
  | down | aligning =>
    simp only [exec, execKeys, execPointer, execSet, execApply, execReadRequest, execClear, execResync, state,
      implies_true, and_self]

/-! ### The bytes between two marks -/

theorem checkMatches_append {body check : List Byte} (four : check.length = 4) :
    checkMatches (body ++ check) = (check == littleEndian 4 (crc32 body).toNat) := by
  have all : (body ++ check).length - 4 = body.length := by rw [List.length_append, four, Nat.add_sub_cancel]
  simp only [checkMatches, all, List.take_left, List.drop_left]

/-- The kind byte of a frame is its body's. -/
theorem frameByte_append {body : List Byte} (check : List Byte) (nonempty : 1 ≤ body.length) :
    frameByte (body ++ check) 0 = frameByte body 0 := by
  simp only [frameByte, List.getD_append _ _ _ _ nonempty]

theorem receiveFrame_of_short {f : List Byte} (short : f.length < 5) :
    receiveFrame f = .badUpstreamFrame .wrongLength := if_pos short

theorem receiveFrame_of_badCheck {f : List Byte} (long : 5 ≤ f.length) (bad : checkMatches f = false) :
    receiveFrame f = .badUpstreamFrame .badCheck := by
  simp only [receiveFrame, if_neg (Nat.not_lt.2 long), bad, Bool.not_false, if_true]

section
variable {f : List Byte} (long : 5 ≤ f.length) (right : checkMatches f = true)

include long right

theorem receiveFrame_of_unknownKind (unknown : upstreamLength (frameByte f 0) = none) :
    receiveFrame f = .badUpstreamFrame .unknownKind := by
  simp only [receiveFrame, if_neg (Nat.not_lt.2 long), right, Bool.not_true, Bool.false_eq_true, if_false, unknown]

theorem receiveFrame_of_kind {n : Nat} (kind : upstreamLength (frameByte f 0) = some n) :
    receiveFrame f = if f.length = n then commandOf f else .badUpstreamFrame .wrongLength := by
  simp only [receiveFrame, if_neg (Nat.not_lt.2 long), right, Bool.not_true, Bool.false_eq_true, if_false, kind]

end

theorem upstreamLength_of_unlisted {k : Byte} (unlisted : k.toNat < 0x10 ∨ 0x17 < k.toNat) : upstreamLength k = none := by
  unfold upstreamLength
  split
  case h_9 => rfl
  all_goals omega

/-! ### The fields of a frame -/

/-- A field whose bytes are those of a number from byte `j` up is that part of the number. -/
theorem frameField_eq {w : Nat} (f : List Byte) (z : BitVec w) (a n j : Nat)
    (bytes : ∀ k < n, frameByte f (a + k) = z.extractLsb' (8 * (j + k)) 8) :
    frameField f a n = z.toNat / 256 ^ j % 256 ^ n := by
  induction n generalizing a j with
  | zero => simp [frameField, Nat.mod_one]
  | succ n ih =>
    have later := ih (a + 1) (j + 1) fun k within => by
      have byte := bytes (k + 1) (by omega)
      rwa [Nat.add_right_comm, Nat.add_assoc, Nat.add_right_comm j, Nat.add_assoc]
    have first := bytes 0 n.succ_pos
    rw [Nat.add_zero, Nat.add_zero] at first
    rw [frameField, later, first, BitVec.extractLsb'_toNat, Nat.shiftRight_eq_div_pow, Nat.pow_mul, Nat.pow_succ' (n := n),
      Nat.mod_mul, Nat.div_div_eq_div_mul, ← Nat.pow_succ]

/-- A field of all of a number's bytes is the number. -/
theorem frameField_whole {n : Nat} {f : List Byte} {z : BitVec (8 * n)} {a : Nat}
    (bytes : ∀ k < n, frameByte f (a + k) = z.extractLsb' (8 * k) 8) : BitVec.ofNat (8 * n) (frameField f a n) = z := by
  have field := frameField_eq f z a n 0 fun k within => by rw [bytes k within, Nat.zero_add]
  rw [field, Nat.pow_zero, Nat.div_one, show 256 ^ n = 2 ^ (8 * n) by rw [Nat.pow_mul], Nat.mod_eq_of_lt z.isLt]
  exact (BitVec.ofNat_toNat _ z).trans z.setWidth_eq

/-! ### The commands (TABLE 47) -/

section
variable (v m i q g b w : Byte) (x y : BitVec 16) (check : List Byte)

/-- A number of two bytes, low byte first. -/
def twoBytes (z : BitVec 16) : List Byte := [z.extractLsb' 0 8, z.extractLsb' 8 8]

theorem frameField_two {f : List Byte} {z : BitVec 16} {a : Nat} (low : frameByte f a = z.extractLsb' 0 8)
    (high : frameByte f (a + 1) = z.extractLsb' 8 8) : BitVec.ofNat 16 (frameField f a 2) = z :=
  frameField_whole (n := 2) fun k within => by
    obtain rfl | rfl : k = 0 ∨ k = 1 := by omega
    · exact low
    · exact high

theorem commandOf_keys (codes : Table 6 Byte) :
    commandOf ([0x11, m] ++ (List.finRange 6).map codes.look ++ check) = .keys m codes := by
  refine congrArg (Instr.keys m) (Table.ext_look fun k => ?_)
  rw [Table.look_tab]
  fin_cases k <;> rfl

theorem commandOf_pointer : commandOf ([0x12] ++ twoBytes x ++ twoBytes y ++ [b, w] ++ check) = .pointer x y b w := by
  have left : BitVec.ofNat 16 (frameField ([0x12] ++ twoBytes x ++ twoBytes y ++ [b, w] ++ check) 1 2) = x :=
    frameField_two rfl rfl
  have top : BitVec.ofNat 16 (frameField ([0x12] ++ twoBytes x ++ twoBytes y ++ [b, w] ++ check) 3 2) = y :=
    frameField_two rfl rfl
  exact congrArg₂ (fun x y => Instr.pointer x y b w) left top

theorem commandOf_set (value : BitVec 64) :
    commandOf ([0x13, i, q] ++ (List.range 8).map (fun n => value.extractLsb' (8 * n) 8) ++ check) = .set i q value := by
  refine congrArg (Instr.set i q) (frameField_whole (n := 8) fun k within => ?_)
  interval_cases k <;> rfl

theorem commandOf_readRequest :
    commandOf ([0x15] ++ twoBytes x ++ [i, q, g] ++ check) = .readRequest x i q g :=
  congrArg (fun x => Instr.readRequest x i q g) (frameField_two rfl rfl)

theorem commandOf_clear : commandOf ([0x16] ++ twoBytes x ++ check) = .clear x :=
  congrArg Instr.clear (frameField_two rfl rfl)

end

/-! ### The lanes (R138, R168) -/

/-- Two lanes' bytes, in turn, are the frame's. -/
theorem interleave_laneBytes (f : List Byte) : interleave (laneBytes 2 0 f) (laneBytes 2 1 f) = f := by
  induction f using List.twoStepInduction with
  | nil => rfl
  | singleton a => rfl
  | cons_cons a b f ih _ => rw [laneBytes_first_cons, laneBytes_second_cons, interleave, ih]

theorem laneCount_cases (p : Straps) : p.laneCount = 1 ∨ p.laneCount = 2 := by
  unfold Straps.laneCount
  cases p.lanes with
  | one => exact .inl rfl
  | two => exact .inr rfl

/-- What the lanes of the straps carry, rejoined, is the frame. -/
theorem rejoinLanes_laneBytes (p : Straps) (f : List Byte) :
    rejoinLanes p.laneCount (Table.tab fun l => laneBytes p.laneCount l.1 f) = f := by
  obtain one | two := laneCount_cases p
  · rw [one, rejoinLanes_one, Table.look_tab]
    exact laneBytes_single f
  · rw [two, rejoinLanes_two, Table.look_tab, Table.look_tab]
    exact interleave_laneBytes f

theorem interleave_nil (a : List Byte) : interleave a [] = a ∧ interleave [] a = a := by
  cases a <;> exact ⟨rfl, rfl⟩

section
variable {s : State} {l : Fin 2}

theorem State.laneReceives_iff : s.laneReceives l = true ↔ l.1 < s.straps.laneCount ∧ s.link.acquired.look l = true := by
  rw [State.laneReceives, Bool.and_eq_true, decide_eq_true_eq]

theorem State.anyLaneReceives_of (receives : s.laneReceives l = true) : s.anyLaneReceives = true :=
  List.any_eq_true.2 ⟨l, List.mem_finRange l, receives⟩

theorem State.anyLaneReceives_eq_false (none : ∀ l, s.laneReceives l ≠ true) : s.anyLaneReceives = false :=
  List.any_eq_false.2 fun l _ => none l

/-! An end, a beginning and bytes, within a frame and outside one. -/

theorem State.endUpstreamFrame_of_none (none : s.link.arriving = none) : s.endUpstreamFrame = s := by
  simp only [State.endUpstreamFrame, none]

theorem State.endUpstreamFrame_of_arriving {b : Table 2 (List Byte)} (arriving : s.link.arriving = some b) :
    s.endUpstreamFrame = ({ s with link := { s.link with arriving := none } } : State).receiveFrame
      (rejoinLanes s.straps.laneCount b) := by
  simp only [State.endUpstreamFrame, arriving]

theorem State.beginUpstreamFrame_of_receives (receives : s.laneReceives l = true) : s.beginUpstreamFrame =
    { s.endUpstreamFrame with link := { s.endUpstreamFrame.link with arriving := some (Table.const []) } } :=
  if_pos (State.anyLaneReceives_of receives)

theorem State.receiveLaneBytes_of_receives {b : Table 2 (List Byte)} (receives : s.laneReceives l = true)
    (arriving : s.link.arriving = some b) (f : List Byte) : s.receiveLaneBytes l f =
      { s with link := { s.link with arriving := some (b.put l (b.look l ++ f)) } } := by
  simp only [State.receiveLaneBytes, arriving, receives, if_true, Table.upd]

theorem State.receiveLaneBytes_of_none (none : s.link.arriving = none) (f : List Byte) : s.receiveLaneBytes l f = s := by
  simp only [State.receiveLaneBytes, none]

theorem State.receiveLaneBytes_of_unaligned (unaligned : s.laneReceives l ≠ true) (f : List Byte) :
    s.receiveLaneBytes l f = s := by
  unfold State.receiveLaneBytes
  split
  · rw [if_neg unaligned]
  · rfl

/-- With no lane aligned a whole frame is not received (R147). -/
theorem State.receiveLanes_of_none (none : ∀ l, s.laneReceives l ≠ true) (idle : s.link.arriving = .none)
    (bytes : Table 2 (List Byte)) : s.receiveLanes bytes = s := by
  rw [State.receiveLanes, s.beginUpstreamFrame_of_none (State.anyLaneReceives_eq_false none),
    State.receiveLaneBytes_of_none idle, State.receiveLaneBytes_of_none idle, State.endUpstreamFrame_of_none idle]

/-- The lanes of the straps decide what a frame is. -/
theorem rejoinLanes_congr (p : Straps) {a b : Table 2 (List Byte)} (same : ∀ l : Fin 2, l.1 < p.laneCount → a.look l = b.look l) :
    rejoinLanes p.laneCount a = rejoinLanes p.laneCount b := by
  obtain one | two := laneCount_cases p
  · rw [one, rejoinLanes_one, rejoinLanes_one, same 0 (by rw [one]; decide)]
  · rw [two, rejoinLanes_two, rejoinLanes_two, same 0 (by rw [two]; decide), same 1 (by rw [two]; decide)]

/-- With every lane aligned a frame is taken whole. -/
theorem State.receiveLanes_whole (idle : s.link.arriving = none)
    (all : ∀ l : Fin 2, l.1 < s.straps.laneCount → s.laneReceives l = true) (f : List Byte) :
    s.receiveLanes (Table.tab fun l => laneBytes s.straps.laneCount l.1 f) = s.receiveFrame f := by
  have first : s.laneReceives 0 = true := all 0 (by obtain one | two := laneCount_cases s.straps <;> omega)
  rw [State.receiveLanes_eq _ s idle (State.anyLaneReceives_of first)]
  refine congrArg (fun f => s.receiveFrame f) (Eq.trans ?_ (rejoinLanes_laneBytes s.straps f))
  refine rejoinLanes_congr s.straps fun l strapped => ?_
  rw [Table.look_tab, if_pos (all l strapped)]

/-- A frame of which one lane alone carries bytes is that lane's. -/
theorem rejoinLanes_single {lanes : Nat} (within : l.1 < lanes) (most : lanes ≤ 2) (bytes : List Byte) :
    rejoinLanes lanes (Table.tab fun k => if k = l then bytes else []) = bytes := by
  obtain rfl | rfl : l = 0 ∨ l = 1 := by omega
  · unfold rejoinLanes
    split
    · simp
    · simp [interleave_nil]
  · obtain rfl : lanes = 2 := by omega
    simp [rejoinLanes_two, interleave_nil]

/-- With one lane aligned the bytes of that one are the frame (log 31). -/
theorem State.receiveLanes_single (idle : s.link.arriving = none) (own : s.laneReceives l = true)
    (only : ∀ k, s.laneReceives k = true → k = l) (bytes : Table 2 (List Byte)) :
    s.receiveLanes bytes = s.receiveFrame (bytes.look l) := by
  have strapped := (State.laneReceives_iff.1 own).1
  have most : s.straps.laneCount ≤ 2 := by obtain one | two := laneCount_cases s.straps <;> omega
  rw [State.receiveLanes_eq _ s idle (State.anyLaneReceives_of own)]
  refine congrArg (fun f => s.receiveFrame f) (Eq.trans ?_ (rejoinLanes_single strapped most (bytes.look l)))
  refine congrArg _ (Table.ext_look fun k => ?_)
  rw [Table.look_tab, Table.look_tab]
  by_cases same : k = l
  · rw [same, if_pos own, if_pos rfl]
  · rw [if_neg fun receives => same (only k receives), if_neg same]

/-- A frame that a loss of alignment cuts off is not taken, whatever bytes follow it. -/
theorem State.loseLane_endUpstreamFrame (has : s.link.acquired.look l = true) (k : Fin 2) (f : List Byte) :
    ((s.loseLane l).receiveLaneBytes k f).endUpstreamFrame = s.loseLane l := by
  have none : (s.loseLane l).link.arriving = none := by rw [State.loseLane, if_pos has]
  rw [State.receiveLaneBytes_of_none none, State.endUpstreamFrame_of_none none]

end

/-- Settles O48: a frame by its check, kind and length, its command by its fields, its bytes by the lanes aligned. -/
theorem upstreamFrames : Obligations.UpstreamFrames := by
  refine ⟨fun s events up => ?_, fun s x => rfl, fun s => exec_upstream_of_not_up, fun body nonempty => ?_,
    fun f => receiveFrame_of_short, ⟨rfl, fun k => upstreamLength_of_unlisted⟩,
    fun v m i q g b w k x y value check => ⟨rfl, commandOf_keys m check k, commandOf_pointer b w x y check,
      commandOf_set i q check value, rfl, commandOf_readRequest i q g x check, commandOf_clear x check, rfl⟩,
    fun s f => ⟨rejoinLanes_laneBytes s.straps f, rfl⟩, fun s f bytes => ?_⟩
  · simp only [exec, execClear, up]
    rfl
  · intro sent
    have kind := frameByte_append (littleEndian 4 (crc32 body).toNat) nonempty
    have long : ∀ check : List Byte, check.length = 4 → 5 ≤ (body ++ check).length := fun check four => by
      rw [List.length_append, four]
      omega
    have four : (littleEndian 4 (crc32 body).toNat).length = 4 := by simp [littleEndian]
    have length : sent.length = body.length + 4 := by rw [List.length_append, four]
    have right : checkMatches sent = true := by rw [checkMatches_append four, beq_self_eq_true]
    refine ⟨fun known => ?_, fun unknown => ?_, fun n known other => ?_, fun check four wrong => ?_⟩
    · rw [receiveFrame_of_kind (long _ four) right (kind ▸ known), if_pos length]
    · exact receiveFrame_of_unknownKind (long _ four) right (kind ▸ unknown)
    · rw [receiveFrame_of_kind (long _ four) right (kind ▸ known), if_neg (length ▸ other.symm)]
    · exact receiveFrame_of_badCheck (long check four) (by rw [checkMatches_append four, beq_eq_false_iff_ne]; exact wrong)
  · intro aligned arrives
    have receives : ∀ l, s.laneReceives l = true ↔ aligned l := fun l => State.laneReceives_iff
    refine ⟨fun none all => ?_, fun l none own only => ?_, fun none => ?_, fun none idle => ?_, fun l own => ⟨?_, ?_, ?_⟩,
      fun l either => ?_, fun b arriving => ?_, fun none => ?_, fun l k has => ?_⟩
    · exact State.receiveLanes_whole none (fun l strapped => (receives l).2 (all l strapped)) f
    · exact State.receiveLanes_single none ((receives l).2 own) (fun k has => only k ((receives k).1 has)) bytes
    · exact s.beginUpstreamFrame_of_none (State.anyLaneReceives_eq_false fun l has => none l ((receives l).1 has))
    · exact State.receiveLanes_of_none (fun l has => none l ((receives l).1 has)) idle bytes
    · intro idle
      rw [State.beginUpstreamFrame_of_receives ((receives l).2 own), State.endUpstreamFrame_of_none idle]
    · intro b arriving
      rw [State.beginUpstreamFrame_of_receives ((receives l).2 own), State.endUpstreamFrame_of_arriving arriving]
      rfl
    · exact fun b arriving => State.receiveLaneBytes_of_receives ((receives l).2 own) arriving f
    · obtain unaligned | none := either
      · exact State.receiveLaneBytes_of_unaligned (fun has => unaligned ((receives l).1 has)) f
      · exact State.receiveLaneBytes_of_none none f
    · exact State.endUpstreamFrame_of_arriving arriving
    · exact State.endUpstreamFrame_of_none none
    · exact State.loseLane_endUpstreamFrame has k f

end Sys2Proof.Machine
end

section
/-! SUPPORT. The input line: the transmitter and the notices (R156, R163), the lamps (R143, R166), and the receiver
(R165). -/

namespace Sys2Proof.Machine

/-! ### The transmitter (R156) -/

section
variable {r : Relay} {x : InputEntry} {rest : List InputEntry}

/-- A frame with the entry at the head of the queue; a NOTICE takes the lost-notice flag and clears it. -/
theorem Relay.beginFrame_of_cons (queue : r.queue = x :: rest) : r.beginFrame = { r with
    queue := rest
    sending := some { entry := x, lost := x.isNotice && r.lost }
    lost := !x.isNotice && r.lost } := by
  cases x with
  | notice n => simp only [Relay.beginFrame, queue, InputEntry.isNotice, Bool.true_and, Bool.not_true, Bool.false_and]
  | keyboard | pointer =>
    simp only [Relay.beginFrame, queue, InputEntry.isNotice, Bool.false_and, Bool.not_false, Bool.true_and]

theorem Relay.beginFrame_of_nil (queue : r.queue = []) : r.beginFrame = r := by
  simp only [Relay.beginFrame, queue]

theorem Relay.tryBegin_of_cons (idle : r.sending = none) (ready : r.ready = true) (queue : r.queue = x :: rest) :
    r.tryBegin = { r with
      queue := rest
      sending := some { entry := x, lost := x.isNotice && r.lost }
      lost := !x.isNotice && r.lost } :=
  (if_pos (by rw [idle, ready]; rfl)).trans (Relay.beginFrame_of_cons queue)

/-- While a frame is being sent, or the level is low, none begins. -/
theorem Relay.tryBegin_of_held (held : r.sending ≠ none ∨ r.ready = false) : r.tryBegin = r := by
  refine if_neg fun both => ?_
  obtain ⟨idle, ready⟩ := (Bool.and_eq_true _ _).mp both
  obtain busy | low := held
  · exact busy (Option.isNone_iff_eq_none.1 idle)
  · exact absurd ready (by simp [low])

theorem Relay.tryBegin_of_nil (queue : r.queue = []) : r.tryBegin = r := by
  unfold Relay.tryBegin
  split
  · exact Relay.beginFrame_of_nil queue
  · rfl

end

/-! The ready level rises, or a frame ends: what the transmitter does is what the relay does. -/

theorem exec_readyLevelRise {s : State} {r : Relay} (begins : ({ s.relay with ready := true } : Relay).tryBegin = r) :
    exec .readyLevelRise s = .next { s with relay := r } := by
  rw [← begins]
  rfl

theorem exec_inputFrameEnd_busy {s : State} {r : Relay} (busy : s.relay.sending ≠ none)
    (begins : ({ s.relay with sending := none } : Relay).tryBegin = r) :
    exec .inputFrameEnd s = .next { s with relay := r } := by
  rw [← begins]
  cases sending : s.relay.sending with
  | none => exact absurd sending busy
  | some f =>
    simp only [exec, execInputFrameEnd, sending]
    rfl

/-- An IDLE transmitter ends no frame (log 21). -/
theorem exec_inputFrameEnd_idle {s : State} (idle : s.relay.sending = none) : exec .inputFrameEnd s = .next s := by
  simp only [exec, execInputFrameEnd, idle]

/-! ### The notices (R163) -/

section
variable {s : State} (n : Notice)

theorem State.offerNotice_of_full (full : 32 ≤ s.relay.queue.length) :
    s.offerNotice n = { s with relay := { s.relay with lost := true } } := by
  rw [State.offerNotice, State.updRelay, Relay.full_eq_true full, if_pos rfl]

theorem State.offerNotice_of_room (room : s.relay.queue.length < 32) :
    s.offerNotice n = { s with relay := s.relay.join (.notice n) } := by
  rw [State.offerNotice, State.updRelay, Relay.full_eq_false room, if_neg Bool.false_ne_true]

end

/-! ### The lamps (R143, R166) -/

section
variable (s : State) (w : Byte)

/-- What a LAMP does in every link state: LAMP_OVERRUN when a lamp set still waited, and the record takes the new set. -/
def State.lampNoted : State := { s with
  link := if s.relay.lampPending then s.link.raise .lampOverrun else s.link
  relay := { s.relay with lamps := w, lampPending := true } }

theorem State.lampNoted_link : (s.lampNoted w).link.state = s.link.state ∧ (s.lampNoted w).link.wire = s.link.wire ∧
    (s.lampNoted w).link.control = s.link.control := by
  unfold State.lampNoted Link.raise
  repeat' split
  all_goals exact ⟨rfl, rfl, rfl⟩

theorem exec_lamp : exec (.lamp w) s = .next (if s.link.state = .up then ((s.lampNoted w).offerLamp w).sendDecision
    else s.lampNoted w) := by
  have noted : (if s.relay.lampPending = true then s.raise .lampOverrun else s).updRelay
      (fun r => { r with lamps := w, lampPending := true }) = s.lampNoted w := by
    unfold State.lampNoted
    split <;> rfl
  simp only [exec, execLamp, noted, (s.lampNoted_link w).1]
  cases s.link.state <;> rfl

end

section
variable {s : State} {w : Byte} (up : s.link.state = .up)

include up

theorem exec_lamp_up : exec (.lamp w) s = .next ((s.lampNoted w).offerLamp w).sendDecision := by
  rw [exec_lamp, if_pos up]

/-- With the wire idle and nothing queued the LAMP frame begins, and nothing is pending then. -/
theorem exec_lamp_idle (idle : s.link.wire = .idle) (empty : s.link.control = []) :
    exec (.lamp w) s = .next { s.lampNoted w with
      link := { (s.lampNoted w).link with wire := .control (.lamp w) }
      relay := { (s.lampNoted w).relay with lampPending := false } } := by
  obtain ⟨state, wire, control⟩ := s.lampNoted_link w
  rw [exec_lamp_up up, State.offerLamp_eq, State.offerSingle_joins (state.trans up) (by simp [control, empty])
    (by simp [control, empty])]
  refine congrArg _ ((State.sendDecision_of_frame (by exact wire.trans idle) (by simp [State.withControl, state, up])
    (by rw [control, empty]; rfl)).trans ?_)
  rw [State.beginControl]
  simp only [State.withControl, ← empty, ← control]

/-- With the wire busy the LAMP frame waits: it joins the tail. -/
theorem exec_lamp_joins (busy : s.link.wire ≠ .idle) (none : ∀ f ∈ s.link.control, f.isLamp = false)
    (room : s.link.control.length < 16) : exec (.lamp w) s = .next { s.lampNoted w with
      link := { (s.lampNoted w).link with control := s.link.control ++ [.lamp w] } } := by
  obtain ⟨state, wire, control⟩ := s.lampNoted_link w
  have others : ∀ g ∈ (s.lampNoted w).link.control, g.kind ≠ (ControlFrame.lamp w).kind := fun g member =>
    of_decide_eq_false ((g.isLamp_eq w).symm.trans (none g (control ▸ member)))
  rw [exec_lamp_up up, State.offerLamp_eq, State.offerSingle_joins (state.trans up) others (by rwa [control]),
    State.sendDecision_of_busy (by rwa [← wire] at busy), control]
  rfl

/-- With the wire busy the LAMP frame waits: it takes the place of the one that is queued. -/
theorem exec_lamp_replaces (busy : s.link.wire ≠ .idle) (queued : ∃ f ∈ s.link.control, f.isLamp = true) :
    exec (.lamp w) s = .next { s.lampNoted w with link := { (s.lampNoted w).link with
      control := s.link.control.map fun f => if f.isLamp then .lamp w else f } } := by
  obtain ⟨state, wire, control⟩ := s.lampNoted_link w
  have one : ∃ g ∈ (s.lampNoted w).link.control, g.kind = (ControlFrame.lamp w).kind := by
    simpa only [ControlFrame.isLamp_eq w, decide_eq_true_eq, control] using queued
  rw [exec_lamp_up up, State.offerLamp_eq, State.offerSingle_of_queued (state.trans up) one,
    State.sendDecision_of_busy (by rwa [← wire] at busy), control]
  simp only [replaceKind, ControlFrame.isLamp_eq w, decide_eq_true_eq]

end

/-! ### The receiver (R165): the byte at which it hunts again -/

section
variable (stop : Bool) {v : Byte}

theorem Receiver.take_ignored (other : v ≠ 0xA5) :
    Receiver.hunting.take { value := v, stopOk := stop } = (.hunting, none) := if_neg other

/-- After the start mark a bad stop bit discards the frame. -/
theorem Receiver.take_badStop {r : Receiver} (begun : r ≠ .hunting) (v : Byte) :
    r.take { value := v, stopOk := false } = (.hunting, some (.inputLineBadFrame .badStop)) := by
  cases r with
  | hunting => exact absurd rfl begun
  | kind | length | payload | check => rfl

/-- A frame of another kind is discarded once its length is taken too (log 30). -/
theorem Receiver.take_wrongKind {k : Byte} (kind : k ≠ 0x81) (v : Byte) :
    (Receiver.length k).take { value := v, stopOk := true } = (.hunting, some (.inputLineBadFrame .wrongKind)) :=
  if_pos kind

theorem Receiver.take_wrongLength (length : v ≠ 0x01) : (Receiver.length 0x81).take { value := v, stopOk := true } =
    (.hunting, some (.inputLineBadFrame .wrongLength)) := if_neg length

theorem Receiver.take_check (w : Byte) :
    (Receiver.check w).take { value := 0x81 ^^^ 0x01 ^^^ w, stopOk := true } = (.hunting, some (.lamp w)) := if_pos rfl

theorem Receiver.take_badCheck {w : Byte} (wrong : v ≠ 0x81 ^^^ 0x01 ^^^ w) :
    (Receiver.check w).take { value := v, stopOk := true } = (.hunting, some (.inputLineBadFrame .badCheck)) :=
  if_neg wrong

end

/-- Settles O54: the relay's steps by what the transmitter finds, a LAMP by the wire and the FIFO, and the receiver by
the byte that ends a run; the bytes before it lead to its state by evaluation. -/
theorem inputLine : Obligations.InputLine := by
  refine ⟨fun s => ?_, fun s w => ?_, fun s x => rfl, fun s b => rfl, ?_⟩
  · intro begun
    refine ⟨rfl, fun held => ?_, fun x rest idle queue => ?_, fun idle => ?_, fun busy held => ?_,
      fun x rest busy ready queue => ?_, fun n => State.offerNotice_of_full n, fun n room held => ?_, fun n room => ?_,
      fun n queue idle ready => ?_⟩
    · obtain busy | empty := held
      · exact exec_readyLevelRise (Relay.tryBegin_of_held (.inl busy))
      · exact exec_readyLevelRise (Relay.tryBegin_of_nil empty)
    · exact exec_readyLevelRise (Relay.tryBegin_of_cons idle rfl queue)
    · exact exec_inputFrameEnd_idle idle
    · obtain low | empty := held
      · exact exec_inputFrameEnd_busy busy (Relay.tryBegin_of_held (.inr low))
      · exact exec_inputFrameEnd_busy busy (Relay.tryBegin_of_nil empty)
    · refine (exec_inputFrameEnd_busy busy (Relay.tryBegin_of_cons rfl ready queue)).trans ?_
      simp only [begun, ← ready]
    · rw [State.offerNotice_of_room n room, Relay.join, Relay.tryBegin_of_held (by exact held)]
    · rw [State.offerNotice_of_room n room, Relay.join_eq_joined]
    · rw [State.offerNotice_of_room n (by rw [queue]; decide), Relay.join,
        Relay.tryBegin_of_cons (by exact idle) (by exact ready) (by rw [queue]; rfl)]
      simp only [InputEntry.isNotice, Bool.true_and, Bool.not_true, Bool.false_and, ← queue]
  · intro raised noted
    exact ⟨fun off => (exec_lamp s w).trans (if_neg off ▸ rfl), exec_lamp_up, exec_lamp_idle,
      fun up busy => ⟨exec_lamp_joins up busy, exec_lamp_replaces up busy⟩⟩
  · intro run w k v stop
    have last : ∀ {t u : Receiver × Option Instr}, t = u → (t.1, t.2.toList) = (u.1, u.2.toList) := by
      rintro t _ rfl
      rfl
    refine ⟨last (Receiver.take_check w), fun wrong => last (Receiver.take_badCheck wrong),
      fun other => last (Receiver.take_ignored stop other), fun kind => last (Receiver.take_wrongKind kind v),
      fun length => last (Receiver.take_wrongLength length), fun begun member => ?_⟩
    simp only [List.mem_cons, List.not_mem_nil, or_false] at member
    obtain rfl | rfl | rfl | rfl := member
    · exact last (Receiver.take_badStop (r := .kind) nofun v)
    · exact last (Receiver.take_badStop (r := .length k) nofun v)
    · exact last (Receiver.take_badStop (r := .payload) nofun v)
    · exact last (Receiver.take_badStop (r := .check w) nofun v)

end Sys2Proof.Machine
end

end
